-- ==== Sys2Proof/Word.lean ====
section
/-!
DEFINITION. Word.lean: the word types of the model.
The spec numbers bits from the least significant one (R6); multi-byte fields are little-endian (R7).
-/
namespace Sys2Proof

/-- One byte. -/
abbrev Byte := BitVec 8

/-- A 32-bit register or trouble word. -/
abbrev Word32 := BitVec 32

/-- A 64-bit register, counter or trouble word. -/
abbrev Word64 := BitVec 64

end Sys2Proof
end

