-- ==== Sys2Proof/Operand.lean ====
section
/-!
DEFINITION. Operand.lean: what the commands of the block carry.
A mailbox command carries the request area that its doorbell submits (Table 04-13) and the host memory that its scatter list describes (R145).
An event of the hardware carries the place it happens at and what the hardware found there: a measured time, the outcome of a retry, a received frame.
-/
namespace Sys2Proof

/-- A mailbox window: the administrative window, or the window of a tenant (R134). -/
inductive Window where
  /-- The administrative window of PF1. -/
  | admin
  /-- The window of tenant `t`. -/
  | tenant (t : Fin 1024)
  deriving DecidableEq, Repr

/-- The number of a window: its tenant, or 1,024 for the administrative window (Table 04-24). -/
def Window.num : Window → Nat
  | .admin => 1024
  | .tenant t => t.val

/-- An entry of a scatter list in host memory (Table 04-15). -/
structure SglEntry where
  /-- ADDR, the host address of the segment. -/
  addr : Nat
  /-- LENGTH, in bytes. -/
  len : Nat
  /-- The reserved bytes 12 to 15. -/
  rsv : Nat
  deriving DecidableEq, Repr

/-- A request as a doorbell with GO = 1 submits it (Tables 04-8 and 04-13), with the scatter list it names.
The opcode is the row of the table; the reserved fields stand here because the device checks them (R146). -/
structure Request where
  /-- TAG of the doorbell. -/
  tag : Nat
  /-- LEN, the payload length. -/
  len : Nat
  /-- SGL_COUNT. -/
  sglCount : Nat
  /-- Bytes 0x046 and 0x047, reserved. -/
  hdrRsv : Nat
  /-- SGL_ADDR. -/
  sglAddr : Nat
  /-- The payload from 0x050 upward. -/
  payload : List Byte
  /-- The scatter list at SGL_ADDR, as the device reads it at acceptance (R145). -/
  sgl : List SglEntry
  /-- Whether the DMA read of the list succeeds. -/
  sglReadable : Bool
  /-- The bytes of the list's segments, in order: what the host put there for a command that reads them. -/
  data : List Byte
  deriving DecidableEq, Repr

/-- A cell of the chip by its logical indices (R50). -/
structure CellRef where
  region : Fin 8
  block : Fin 16
  cell : Fin 16
  deriving DecidableEq, Repr

/-- A block of the chip by its logical indices (R50). -/
structure BlockRef where
  region : Fin 8
  block : Fin 16
  deriving DecidableEq, Repr

/-- Which registers a write reaches. -/
inductive RegTarget where
  /-- PF1 BAR0 (Table 04-1). -/
  | bar0
  /-- A mailbox window (Table 04-6). -/
  | window (w : Window)
  /-- The recovery port (R664). -/
  | recovery
  deriving DecidableEq, Repr

/-- What the hardware measures at a tick boundary. -/
structure BoundaryFound where
  /-- T_d of the region dies 0 to 7 and of the hub die, in m°C (R624). -/
  temps : List Int
  /-- The hold-up bank's voltage in mV (R629). -/
  bankMv : Nat
  /-- Bytes read or written in the Stockpile in the tick that ends (Table 18-1). -/
  hbmBytes : Nat
  /-- Bytes on the NAND channels in the tick that ends, by the tenant that read or wrote them; a number from 1,024 up names no tenant (R606). -/
  nandBytes : List (Nat × Nat)
  deriving DecidableEq, Repr

/-- What an uncorrectable block-store word holds (R68). -/
inductive StoreHolds where
  | data (stream pos op : Nat)
  | arbiter
  deriving DecidableEq, Repr

/-- What an uncorrectable HBM line holds (Table 02-3). -/
inductive HbmHolds where
  | sample (stream pos : Nat)
  | weights (slot : Nat)
  | extentMap
  | context (stream : Nat)
  | dedup (table bucket : Nat)
  | vocab (slot : Nat)
  | dirty (extent : Nat) (page : Nat)
  | dirtyGranule (granule : Nat)
  deriving DecidableEq, Repr

/-- How far the recovery of a page gets (R244). -/
inductive PageFound where
  | soft (reads : Nat)
  | parity
  | unreadable
  deriving DecidableEq, Repr

/-- A leak audit: of a TONGS_AUDIT command, or of a tenant's drain. -/
inductive AuditRef where
  | command (w : Window) (ticket : Nat)
  | drain (tenant : Nat)
  deriving DecidableEq, Repr

/-- A queue pair: of a reservoir or of a peer. -/
inductive QpRef where
  | reservoir (tenant number : Nat)
  | peer (number : Nat)
  deriving DecidableEq, Repr

/-- A move between two arrays: element size, counts of its axes from the innermost, and for each side a base address and signed pitches in bytes. -/
structure MoveRec where
  elem : Nat
  counts : List Nat
  src : Nat
  srcPitch : List Int
  dst : Nat
  dstPitch : List Int
  deriving DecidableEq, Repr

/-- A physical unit as BIST, training and the retention records name it (R72, R687). -/
inductive PhysRef where
  | block (r pb : Nat) | cell (r pb pc : Nat) | lane (r pb l : Nat) | swage (r pb : Nat) | screen (r pb : Nat)
  | wedge (r u : Nat) | hammer (r : Nat) | ring (r : Nat) | dir (r : Nat) | hbm (r : Nat) | port (p : Nat) | core (c : Nat)
  deriving DecidableEq, Repr

/-- Which of the two latest checkpoints of the maps a rebuild could read (R676). -/
inductive MapsFound where
  | latest | previous | none_
  deriving DecidableEq, Repr

/-- What a bring-up finds when it tests and trains the device (R673 to R677, R687, R701). -/
structure BringupFound where
  /-- Physical units that fail BIST, training or a verification of this bring-up. -/
  bad : List PhysRef
  /-- NAND channels that fail training. -/
  channels : List Nat
  /-- Dies that answer with the geometry of the lowest-numbered one (R210). -/
  dies : List Nat
  /-- That geometry: pages per block per plane, bits per native cell, and blocks per plane. -/
  ppb : Nat
  bits : Nat
  blocksPerPlane : Nat
  maps : MapsFound
  /-- The check word of hub retention SRAM holds (R672). -/
  retentionOk : Bool
  /-- The straps TICK_EN and TICK_POS. -/
  tickEn : Bool
  tickPos : Nat
  /-- ms from the trigger to step 8. -/
  ms : Nat
  deriving DecidableEq, Repr

/-- An NVMe command: its submission queue (0 for the admin queue), the fields of its entry, and the data that the host sends with it. -/
structure NvmeRequest where
  sq : Nat
  cid : Nat
  nsid : Nat
  cdw10 : Nat
  cdw11 : Nat
  cdw12 : Nat
  cdw13 : Nat
  cdw14 : Nat
  cdw15 : Nat
  data : List Byte
  deriving DecidableEq, Repr

/-- An MCTP packet: whether its PEC is good, its transport header, and its body of up to 64 bytes (R661). -/
structure MctpPacket where
  pecOk : Bool
  dest : Nat
  source : Nat
  som : Bool
  eom : Bool
  seq : Nat
  tagOwner : Bool
  tag : Nat
  body : List Byte
  deriving DecidableEq, Repr

end Sys2Proof
end

