-- ==== Sys2Proof/Syntax.lean ====
section
/-!
DEFINITION. Syntax.lean: the commands of the block, one constructor for each row of the table of operations and events.
-/
namespace Sys2Proof

/-- A command: a doorbell of the mailbox with its request, a register access, or an event of the hardware with what it found. -/
inductive Instr where
  /-- HELLO (R157). Negotiates the HCP version of a mailbox window and reports the variant and enabled counts. -/
  | hello (w : Window) (r : Request)
  /-- SET_EVENT_RING (R151). Gives the window's event ring, resets TAIL, HEAD and PHASE, and posts any staged events into the new ring. -/
  | setEventRing (w : Window) (r : Request)
  /-- TICKET_QUERY (R160). Reports whether a ticket is outstanding and the tick at which it was issued. -/
  | ticketQuery (w : Window) (r : Request)
  /-- SET_PARAM (R168). Sets one parameter, clamped under R164, and echoes APPLIED, PENDING and EFFECTIVE_TICK. -/
  | setParam (w : Window) (r : Request)
  /-- GET_PARAM (R168). Returns the value in force and any pending value of one parameter. -/
  | getParam (w : Window) (r : Request)
  /-- READ_COUNTERS (R172). Returns up to 64 counters or levels, all read in one fabric cycle. -/
  | readCounters (w : Window) (r : Request)
  /-- READ_TROUBLE (R173). Returns every trouble word as 560 bytes read in one fabric cycle. -/
  | readTrouble (w : Window) (r : Request)
  /-- CLEAR_STICKY (R174). Clears the named sticky bits in the named trouble words and returns the masks cleared. -/
  | clearSticky (w : Window) (r : Request)
  /-- UNIT_MAP (R52). Accepts a request for the physical position behind each logical unit of one kind in a region and takes a ticket. -/
  | unitMap (w : Window) (r : Request)
  /-- UNIT_MAP_DONE (R52). Writes the unit map entries to the scatter list and completes the ticket. -/
  | unitMapDone (w : Window) (ticket : Nat)
  /-- TENANT_CREATE (R538). Creates a tenant with its configured or default parameters and its ingest policer. -/
  | tenantCreate (w : Window) (r : Request)
  /-- TENANT_DELETE (R539). Starts the drain of a tenant, or its removal at once when it is DISABLED, and takes a ticket. -/
  | tenantDelete (w : Window) (r : Request)
  /-- FUNCTION_DISABLE (R539). Starts or joins the drain of a tenant's function and takes a ticket. -/
  | functionDisable (w : Window) (r : Request)
  /-- FUNCTION_ENABLE (R539). Returns a DISABLED tenant to ENABLED with its window IDLE and unnegotiated. -/
  | functionEnable (w : Window) (r : Request)
  /-- GATE_LIST_SET (R554). Installs a tenant's gate list to take effect at a future START_TICK. -/
  | gateListSet (w : Window) (r : Request)
  /-- PROGRAM_LOAD (R193). Takes the lowest EMPTY program slot as LOADING and takes a ticket for validation of the binary. -/
  | programLoad (w : Window) (r : Request)
  /-- PROGRAM_LOAD_DONE (R195). Validates the binary in the order of Table 05-7, copies the model images, writes the load report and completes the ticket. -/
  | programLoadDone (w : Window) (ticket : Nat)
  /-- PROGRAM_UNLOAD (R201). Sets a loaded slot to UNLOADING and takes a ticket. -/
  | programUnload (w : Window) (r : Request)
  /-- PROGRAM_UNLOAD_DONE (R201). Frees the slot's pages, sets it EMPTY and completes the ticket. -/
  | programUnloadDone (w : Window) (ticket : Nat)
  /-- VOCAB_LOAD (R434). Starts loading or deleting a vocabulary slot and takes a ticket. -/
  | vocabLoad (w : Window) (r : Request)
  /-- VOCAB_LOAD_DONE (R436). Checks and copies the vocabulary image, makes it RESIDENT or restores the slot, and completes the ticket. -/
  | vocabLoadDone (w : Window) (ticket : Nat)
  /-- SCREEN_TABLE_LOAD (R417). Starts building a new Screen table generation in shadow, or deletes the table, and takes a ticket. -/
  | screenTableLoad (w : Window) (r : Request)
  /-- SCREEN_BUILD_DONE (R418). The shadow build of a Screen generation completes or fails. -/
  | screenBuildDone (w : Window) (ticket : Nat)
  /-- GENERATION_RETIRE (R422). Frees the pages of a retired generation once no lookup runs on it and no stream pins it. -/
  | generationRetire (slot gen : Nat)
  /-- SCREEN_TABLE_UPDATE (R424). Schedules additions or removals of Screen entries for the next tick boundary. -/
  | screenTableUpdate (w : Window) (r : Request)
  /-- STREAM_CREATE (R482). Creates a dataset stream and writes its context with STATE IDLE. -/
  | streamCreate (w : Window) (r : Request)
  /-- STREAM_DELETE (R485). Starts deleting a stream and takes a ticket. -/
  | streamDelete (w : Window) (r : Request)
  /-- STREAM_DELETE_DONE (R485). Frees the context slot and home-map entry of a deleted stream and completes the ticket. -/
  | streamDeleteDone (stream : Nat)
  /-- EPOCH_START (R483). Accepts an epoch with its keys, to take effect at the next plan. -/
  | epochStart (w : Window) (r : Request)
  /-- STREAM_PAUSE (R484). Moves a RUNNING stream to PAUSED at the next plan. -/
  | streamPause (w : Window) (r : Request)
  /-- STREAM_RESUME (R484). Moves a PAUSED stream to RUNNING at the next plan. -/
  | streamResume (w : Window) (r : Request)
  /-- MODE_SET (R573). Sets a stream's MODE_NEXT. -/
  | modeSet (w : Window) (r : Request)
  /-- CONTEXT_READ (R102). Returns a stream's 256-byte context and home-map entry as they stood in one fabric cycle. -/
  | contextRead (w : Window) (r : Request)
  /-- CONSUMER_ATTACH (R495). Creates a reservoir's QP, settles billet format and flush method, and takes a ticket. -/
  | consumerAttach (w : Window) (r : Request)
  /-- ATTACH_TIMEOUT (R497). An attach without a valid head 10 s after acceptance completes with ATTACH_TIMEOUT and frees the index. -/
  | attachTimeout (tenant reservoir : Nat)
  /-- CONSUMER_DETACH (R510). Starts detaching a reservoir and takes a ticket. -/
  | consumerDetach (w : Window) (r : Request)
  /-- CONSUMER_DETACH_DONE (R510). Destroys the QP after outstanding writes and fences complete, clears the binding and completes the ticket. -/
  | consumerDetachDone (tenant reservoir : Nat)
  /-- RESERVOIR_BIND (R498). Sets or clears a reservoir's bit in a stream's RESERVOIR_MAP. -/
  | reservoirBind (w : Window) (r : Request)
  /-- PEER_ADD (R519). Declares or removes a peer ADF1 and its QP. -/
  | peerAdd (w : Window) (r : Request)
  /-- INGEST_OPEN (R525). Creates a live-ingest stream with its match key and staleness bound. -/
  | ingestOpen (w : Window) (r : Request)
  /-- INGEST_CLOSE (R532). Stops frame matching for a live-ingest stream and takes a ticket. -/
  | ingestClose (w : Window) (r : Request)
  /-- INGEST_CLOSE_DONE (R532). Ends the ingest epoch, frees the context and completes the ticket. -/
  | ingestCloseDone (stream : Nat)
  /-- INGEST_CLOSE_DISCARD (R532). Sixteen ticks after INGEST_CLOSE, discards incomplete work and drops its frames. -/
  | ingestCloseDiscard (stream : Nat)
  /-- DATASET_CREATE (R229). Creates a dataset namespace owned by a tenant. -/
  | datasetCreate (w : Window) (r : Request)
  /-- DATASET_APPEND (R230). Takes the next dataset offset for an extent and takes a ticket. -/
  | datasetAppend (w : Window) (r : Request)
  /-- DATASET_APPEND_DURABLE (R230). The appended extent becomes durable, its report is written and the ticket completes. -/
  | datasetAppendDurable (w : Window) (ticket : Nat)
  /-- DATASET_SEAL (R231). Starts reading and checking a dataset's sample directory and takes a ticket. -/
  | datasetSeal (w : Window) (r : Request)
  /-- DATASET_SEAL_DONE (R231). Seals the dataset with its MANIFEST_HASH, or ends with DIRECTORY_BAD, and completes the ticket. -/
  | datasetSealDone (w : Window) (ticket : Nat)
  /-- DATASET_DISCARD (R236). Marks every extent of a dataset DISCARDED in one journal record, frees the id and completes its ticket. -/
  | datasetDiscard (w : Window) (r : Request)
  /-- PLACEMENT_SET (R237). Gives the peer replicas of a dataset, taking effect at the next boundary. -/
  | placementSet (w : Window) (r : Request)
  /-- DATASET_KEY_SET (R659). Sets the encryption key mode of an empty dataset or the scratch namespace. -/
  | datasetKeySet (w : Window) (r : Request)
  /-- BARRIER_JOIN (R588). Joins or leaves a barrier group in a given role and takes a ticket. -/
  | barrierJoin (w : Window) (r : Request)
  /-- BARRIER_JOIN_DONE (R588). The join completes when the master drives its first frame, the follower resyncs or PTP locks. -/
  | barrierJoinDone
  /-- SYNC_TIMEOUT (R588). A join that has not aligned within 10 s completes with SYNC_TIMEOUT. -/
  | syncTimeout
  /-- TICK_EPOCH_SET (R592). Schedules a tick epoch at a PTP instant with a tick number and period. -/
  | tickEpochSet (w : Window) (r : Request)
  /-- TICK_EPOCH_TAKES_EFFECT (R593). At PTP instant AT the device makes a boundary numbered TICK_AT and follows the new period. -/
  | tickEpochTakesEffect (found : BoundaryFound)
  /-- REPLAY_RECORD (R578). Arms or stops recording of a stream's epoch into a replay log. -/
  | replayRecord (w : Window) (r : Request)
  /-- REPLAY_RUN (R583). Runs, exports or deletes a recorded log; RUN creates a replay stream and takes a ticket. -/
  | replayRun (w : Window) (r : Request)
  /-- REPLAY_END (R586). A replay reaches LOG_END, diverges or is aborted, writes its report and completes the ticket. -/
  | replayEnd (stream : Nat)
  /-- DIGEST_READ (R577). Returns a stream's kept per-tick billet digest records. -/
  | digestRead (w : Window) (r : Request)
  /-- TONGS_AUDIT (R127). Accepts a leak audit of the chip or one tenant and takes a ticket. -/
  | tongsAudit (w : Window) (r : Request)
  /-- TONGS_AUDIT_DONE (R128). The audit scan completes and its result is written and reported. -/
  | tongsAuditDone (audit : AuditRef)
  /-- TONGS_BUFFER_STATE (R122). Returns the state record of one buffer handle. -/
  | tongsBufferState (w : Window) (r : Request)
  /-- CONFIG_READ (R181). Accepts a read of the configuration copy in use and takes a ticket. -/
  | configRead (w : Window) (r : Request)
  /-- CONFIG_READ_DONE (R181). Writes the configuration copy in use, or an image of the defaults, and completes the ticket. -/
  | configReadDone (w : Window) (ticket : Nat)
  /-- CONFIG_WRITE (R180). Accepts a new configuration image and takes a ticket. -/
  | configWrite (w : Window) (r : Request)
  /-- CONFIG_WRITE_DONE (R180). Erases, programs and reads back the copy not in use, and in HOLD re-runs the topology check. -/
  | configWriteDone (w : Window) (ticket : Nat) (readBackOk : Bool)
  /-- TOPOLOGY_ACK (R692). Acknowledges the topology mismatch and moves the device from HOLD to READY. -/
  | topologyAck (w : Window) (r : Request)
  /-- FW_STAGE (R682). Accepts a signed firmware image for the slot not running and takes a ticket. -/
  | fwStage (w : Window) (r : Request)
  /-- FW_STAGE_DONE (R682). Checks, writes and reads back the firmware slot, records it staged and completes the ticket. -/
  | fwStageDone (w : Window) (ticket : Nat) (readBackOk : Bool)
  /-- FW_ACTIVATE (R683). Selects the staged slot for the next reset. -/
  | fwActivate (w : Window) (r : Request)
  /-- ACTIVATION_RECORD_WRITTEN (R683). The new activation record is written to SPI NOR within 100 ms of FW_ACTIVATE. -/
  | activationRecordWritten
  /-- HOLDUP_MEASURE (R634). Starts a hold-up capacitance test now and takes a ticket. -/
  | holdupMeasure (w : Window) (r : Request)
  /-- POWER_STATE_SET (R623). Sets the administrative power request. -/
  | powerStateSet (w : Window) (r : Request)
  /-- TICK_COUNT_LO_READ (R17). A read of TICK_COUNT_LO latches the upper half of the tick counter. -/
  | tickCountLoRead
  /-- MBX_IRQ_WRITE (R140). A write of MBX_IRQ clears pending bits and sends an MSI-X message when an enable is set over a pending bit. -/
  | mbxIrqWrite (w : Window) (value : Nat)
  /-- EVT_HEAD_WRITE (R154). The host advances HEAD, freeing entries into which staged events and EVENTS_LOST are posted. -/
  | evtHeadWrite (w : Window) (value : Nat)
  /-- REGISTER_WRITE (R133). A write to a register with no row of its own, applied by its access code or discarded. -/
  | registerWrite (target : RegTarget) (offset bits value : Nat)
  /-- TICK_BOUNDARY (R14). A tick boundary increments the counter, marks carries, releases the plan, decides slots and runs the per-boundary controllers. -/
  | tickBoundary (found : BoundaryFound)
  /-- PLAN_FREEZE (R28). 20 µs before a boundary the plan is frozen, charging incomplete items and fixing the launch list and ladder step. -/
  | planFreeze
  /-- LIMP_PROBE (R65). Every 64 ticks a demoted unit receives one probe work item. -/
  | limpProbe (unit : Nat)
  /-- PERIOD_CHANGE_TAKES_EFFECT (R45). At PERIOD_AT_TICK the generator counts the new period and admission uses the new capacities. -/
  | periodChangeTakesEffect
  /-- GATE_LIST_TAKES_EFFECT (R555). At START_TICK a tenant's new gate list comes into force. -/
  | gateListTakesEffect (tenant : Nat)
  /-- DEFER_STALLED (R35). A sample deferred for DEFER_LIMIT ticks raises DEFER_STALLED, again after each further DEFER_LIMIT. -/
  | deferStalled (stream pos : Nat)
  /-- SLC_LIMIT_RECOMPUTE (R242). Every 1,024th boundary, and after a change in dies in service, the Face recomputes SLC_LIMIT. -/
  | slcLimitRecompute
  /-- STAGED_LAUNCH_PRECHARGE (R390). A listed cell enters the pre-charge workload at its wave time before the boundary. -/
  | stagedLaunchPrecharge (cell : CellRef)
  /-- STAGED_LAUNCH_RELEASE (R391). A listed cell leaves pre-charge and starts its first work item at its wave time after the boundary. -/
  | stagedLaunchRelease (cell : CellRef)
  /-- WORK_ITEM_COMPLETE (R19). A work item completes, handing its output on, with corruption, screening, window placement and assembly as they apply. -/
  | workItemComplete (item : Nat) (atNs : Nat)
  /-- READ_HEDGE (R248). A READ_SAMPLE running for twice its predicted cost near its expected tick is hedged to a peer. -/
  | readHedge (item : Nat)
  /-- CELL_STORE_CE (R57). SECDED corrects a single-bit cell-store error and writes back the word. -/
  | cellStoreCe (cell : CellRef) (atNs : Nat)
  /-- CELL_OP_FAILURE (R59). An op fails by double-bit or residue error; the cell retries once or, on a failed retry, is quarantined. -/
  | cellOpFailure (cell : CellRef) (residue : Bool) (atNs : Nat)
  /-- LANE_FAULT (R67). A Crusher lane parity fault is retried once and then quarantines the lane. -/
  | laneFault (block : BlockRef) (lane : Fin 4) (atNs : Nat)
  /-- SWAGE_FAULT (R67). A Swage fault is retried once and then fences the block. -/
  | swageFault (block : BlockRef) (atNs : Nat)
  /-- SCREEN_FAULT (R67). A Screen fault is retried once and then fences the block. -/
  | screenFault (block : BlockRef) (atNs : Nat)
  /-- BLOCK_STORE_UE (R68). An uncorrectable block-store error re-issues the producing work or fences the block. -/
  | blockStoreUe (block : BlockRef) (holds : StoreHolds) (atNs : Nat)
  /-- HBM_CE (R73). The region arbiter corrects an HBM error and writes the line back. -/
  | hbmCe (region : Fin 8)
  /-- HBM_UE (R74). An uncorrectable HBM line is handled by what it holds under Table 02-3. -/
  | hbmUe (region : Fin 8) (holds : HbmHolds)
  /-- RING_FAULT (R75). A ring flit that fails CRC twice starts a region reset. -/
  | ringFault (region : Fin 8) (lost : List Nat)
  /-- DIR_FAULT (R75). A directory parity error starts a region reset. -/
  | dirFault (region : Fin 8) (lost : List Nat)
  /-- WEDGE_FAULT (R76). A failed Wedge retry quarantines the unit and re-issues its work. -/
  | wedgeFault (region : Fin 8) (unit : Fin 8) (atNs : Nat)
  /-- REGION_RESET_DONE (R77). A region reset completes and the region resumes at the next boundary. -/
  | regionResetDone (region : Fin 8)
  /-- REGION_RESET_TIMEOUT (R78). A region reset not complete within 50 ms fences the region. -/
  | regionResetTimeout (region : Fin 8)
  /-- HBM_CONTROLLER_FAILURE (R78). An HBM controller or PHY failure fences the region with HBM_LOST. -/
  | hbmControllerFailure (region : Fin 8)
  /-- REHOME_DONE (R112). Contexts homed in a fenced region are re-homed and their streams return to their states. -/
  | rehomeDone (region : Fin 8)
  /-- CORE_FAULT (R82). A failed Hearth application core is taken out of service. -/
  | coreFault (core : Fin 8)
  /-- LOCKSTEP_MISMATCH (R82). The safety cores disagree and the device halts. -/
  | lockstepMismatch
  /-- HUB_SRAM_UE (R723). An uncorrectable hub SRAM word is rebuilt from a copy or halts the device. -/
  | hubSramUe (copyExists : Bool)
  /-- PERMUTE_FAULT (R458). A failed permutation check moves all further positions to firmware. -/
  | permuteFault
  /-- PAGE_DECODE_FAIL (R244). A page that fails hard decode goes through soft reads, parity rebuild, peer read or is recorded unreadable. -/
  | pageDecodeFail (dataset : Nat) (offset : Nat) (found : PageFound)
  /-- PROGRAM_FAIL (R218). A NAND program failure closes the bench early as WEAK. -/
  | programFail (bench : Nat) (member : Nat)
  /-- ERASE_DONE (R219). A die block erase succeeds to ERASED or fails and retires the block. -/
  | eraseDone (die block : Nat) (ok : Bool)
  /-- BENCH_VERIFY (R216). The read verify of a closed bench completes, releasing parity or making the bench WEAK. -/
  | benchVerify (bench : Nat) (ok : Bool)
  /-- DIE_FAILED (R220). A die without ready status in 100 ms, or with 3 failed status reads, becomes FAILED. -/
  | dieFailed (die : Nat)
  /-- CHANNEL_RETRAIN_FAIL (R221). A channel that fails 3 retrains makes every die on it FAILED. -/
  | channelRetrainFail (channel : Nat)
  /-- WRITE_PERMIT_ROOM (R238). Programming frees room under DIRTY_PERMIT and waiting writes become durable. -/
  | writePermitRoom (chunks : Nat)
  /-- JOURNAL_TAIL_FLUSH (R226). The journal tail is written to flash when it holds 64 KiB. -/
  | journalTailFlush
  /-- MAPS_CHECKPOINT (R226). The Face writes a checkpoint of all maps at least every 60 s. -/
  | mapsCheckpoint
  /-- DEDUP_SWEEP_DONE (R413). A sweep frees an ended epoch's run entries from a dedup generation. -/
  | dedupSweepDone (slot gen : Nat)
  /-- DRAIN_TICK_STEP (R560). At B0 to B0 + 4 the drain stops admission, stops running items, errors QPs and frees buffers. -/
  | drainTickStep (tenant : Nat)
  /-- TENANT_REMOVAL_DONE (R565). A deleted tenant's objects are removed and the tenant reads ABSENT. -/
  | tenantRemovalDone (tenant : Nat)
  /-- FUNCTION_LEVEL_RESET (R143). A Function Level Reset of PF1 or a VF starts the drain of its tenant. -/
  | functionLevelReset (w : Window)
  /-- VF_REMOVAL (R537). Removal of a VF by its SR-IOV control starts the drain of its tenant. -/
  | vfRemoval (vf : Nat)
  /-- RDMA_ACK (R507). An ACK releases write credit, or for a tail publication marks its billets delivered. -/
  | rdmaAck (tenant reservoir : Nat)
  /-- FENCE_RESPONSE (R505). A FLUSH or zero-length READ response drops the batch's buffers and allows the tail publication. -/
  | fenceResponse (tenant reservoir : Nat)
  /-- QP_ERROR (R492). A QP that exhausts retries or receives an error NAK enters the error state and its reservoir fails. -/
  | qpError (qp : QpRef) (reason : Nat)
  /-- CNP_RECEIVED (R512). A CNP lowers the QP's rate at most once per 50 µs. -/
  | cnpReceived (qp : QpRef) (ns : Nat)
  /-- CONGESTION_INCREASE (R512). At the end of a 55 µs period with no CNP the QP's rate rises by R_AI. -/
  | congestionIncrease (qp : QpRef)
  /-- GAUGE_READ_RESPONSE (R502). The response to the RDMA READ of HEAD_ADDR arrives for use at the next boundary. -/
  | gaugeReadResponse (tenant reservoir : Nat) (value : Nat)
  /-- ARP_REQUEST (R491). The Haul answers an ARP request for a local GID with the port's MAC. -/
  | arpRequest (port : Nat) (frame : List Byte)
  /-- NEIGHBOR_SOLICITATION (R491). The Haul answers an IPv6 Neighbor Solicitation for a local GID with the port's MAC. -/
  | neighborSolicitation (port : Nat) (frame : List Byte)
  /-- INGRESS_FRAME (R527). A received frame is parsed, dropped with a reason, or accepted as an ingest frame after policing and staleness checks. -/
  | ingressFrame (port : Nat) (frame : List Byte) (ns : Nat)
  /-- MANIFEST_QUERY (R521). A peer's MANIFEST_QUERY is answered with the dataset's MANIFEST_HASH. -/
  | manifestQuery (peer : Nat) (message : List Byte)
  /-- MANIFEST_REPLY (R521). A MANIFEST_REPLY makes a replica entry usable when the hashes match. -/
  | manifestReply (peer : Nat) (message : List Byte)
  /-- READ_REQ (R522). A serving device checks a READ_REQ and reads the sample as work of no tenant, or answers BUSY. -/
  | readReq (peer : Nat) (message : List Byte)
  /-- READ_READY (R523). The requester reads the sample's links from the peer by RDMA READ. -/
  | readReady (peer : Nat) (message : List Byte)
  /-- READ_FAIL (R523). A READ_FAIL moves the request to the next usable replica or retries a BUSY peer. -/
  | readFail (peer : Nat) (message : List Byte)
  /-- RELEASE (R522). A RELEASE frees the serving device's peer buffers. -/
  | release (peer : Nat) (message : List Byte)
  /-- PEER_LINK_READ_DONE (R523). The RDMA READs of a peer sample complete and the Face's request is completed. -/
  | peerLinkReadDone (peer tag : Nat) (data : List Byte)
  /-- PEER_REQUEST_TIMEOUT (R523). A peer request unanswered for 20 ms moves to the next replica; three in a row make the peer DOWN. -/
  | peerRequestTimeout (peer tag : Nat)
  /-- PEER_BUSY_RETRY (R523). One tick after a BUSY answer the request is repeated to the same peer. -/
  | peerBusyRetry (peer tag : Nat)
  /-- PEER_RELEASE_TIMEOUT (R522). A served sample not released within 100 ms is freed. -/
  | peerReleaseTimeout (peer tag : Nat)
  /-- PEER_PROBE (R524). A DOWN peer is probed with MANIFEST_QUERY every 2,500 ticks. -/
  | peerProbe (peer : Nat)
  /-- PORT_LINK_LOSS (R490). A port that loses its link or fails 3 retrains in 1 s leaves service. -/
  | portLinkLoss (port : Nat)
  /-- ETH_REFCLK_LOSS (R714). A port whose reference clock is absent for 10 µs leaves service. -/
  | ethRefclkLoss (port : Nat)
  /-- TICK_BUS_FRAME (R590). A completed TICK bus frame is checked and confirms or loads the count and period. -/
  | tickBusFrame (frame : List Byte)
  /-- TICK_PULSE_MISSING (R595). Two boundaries without a pulse put a follower out of alignment with SYNC_LOST. -/
  | tickPulseMissing
  /-- PTP_SYNC_MESSAGE (R591). A PTP Sync updates the offset, locking or losing lock. -/
  | ptpSyncMessage (offset : Int) (boundaryNs : Nat)
  /-- PTP_SYNC_TIMEOUT (R595). No Sync for 3 s puts a PTP member out of alignment. -/
  | ptpSyncTimeout
  /-- RESYNC (R597). At its reference boundary a member takes the boundary or resyncs its count with two empty ticks. -/
  | resync (reference number eNs : Nat) (found : BoundaryFound)
  /-- SLUMBER_ENTRY (R620). The device enters Slumber once its target is Slumber and it is quiet. -/
  | slumberEntry
  /-- SLUMBER_EXIT (R621). A doorbell, NVMe command or request change makes the device leave Slumber. -/
  | slumberExit
  /-- POWER_STATE_EXIT_DONE (R622). The device reaches the configuration of a shallower state within its exit latency and admission resumes. -/
  | powerStateExitDone
  /-- DROOP_DETECT (R393). A block's supply falls 3 % below setpoint and its cells stretch their cycles. -/
  | droopDetect (block : BlockRef)
  /-- DROOP_RECOVER (R393). After 32 cycles above the release level the block's cells return to nominal period. -/
  | droopRecover (block : BlockRef)
  /-- DROOP_CEILING_EXPIRE (R614). The droop ceiling lapses 2,500 ticks after it was set. -/
  | droopCeilingExpire
  /-- PMBUS_READ (R605). Every 10 ms the Bellows reads each rail's voltage and current. -/
  | pmbusRead (reads : List (Option (Nat × Nat)))
  /-- GAIN_UPDATE (R605). Every 100 ms each rail's model gain is updated from measured energy. -/
  | gainUpdate
  /-- HOLDUP_TEST_DUE (R630). The periodic hold-up capacitance test falls due and starts if R631 permits. -/
  | holdupTestDue
  /-- HOLDUP_TEST_DONE (R631). The bank discharges to the stop level, the sink is released and C and E_u are computed and reported. -/
  | holdupTestDone (dtUs v2Mv : Nat)
  /-- HOLDUP_TEST_TIMEOUT (R632). A bank not discharged within 1 s ends the test with HOLDUP_TEST_FAILED. -/
  | holdupTestTimeout
  /-- QUENCH_TRIP (R627). A comparator at 110 °C stops every clock and asserts THERMTRIP_L. -/
  | quenchTrip (die sensor : Nat)
  /-- POWER_ON (R709). All rails in range with PFAIL_L high trigger a cold reset. -/
  | powerOn (found : BringupFound)
  /-- RESET_L_ASSERT (R669). RESET_L low for at least 10 µs and released triggers a cold reset. -/
  | resetLAssert (found : BringupFound)
  /-- PERST_L (R671). PERST_L triggers a warm reset that flushes dirty chunks, writes retention records and runs the warm bring-up. -/
  | perstL (found : BringupFound)
  /-- PFAIL_L_FALL (R251). PFAIL_L low for 1 µs stops admission and starts the hold-up flush. -/
  | pfailLFall
  /-- PFAIL_L_RISE (R252). PFAIL_L rising before the flush ends leads to a warm reset after the flush. -/
  | pfailLRise
  /-- HOLDUP_FLUSH_DONE (R251). The journal tail and flush record are programmed and the device stops its clocks. -/
  | holdupFlushDone (found : BringupFound)
  /-- RAIL_FAULT (R711). A rail out of range for 5 µs, or SYS_REFCLK absent for 10 µs, stops every clock and holds the device in reset. -/
  | railFault (rail : Nat)
  /-- LPO_CLK_LOSS (R714). LPO_CLK absent in Slumber stops the tick count. -/
  | lpoClkLoss
  /-- LOAD_FW (R666). The recovery port loads, checks and activates a firmware image and resets. -/
  | loadFw (image : List Byte) (readBackOk : Bool) (found : BringupFound)
  /-- READ_LOG (R666). The recovery port returns the boot log or the Hearth log through REC_DATA. -/
  | readLog
  /-- FACTORY_DEFAULTS (R666). The recovery port erases both configuration copies. -/
  | factoryDefaults (readBackOk : Bool)
  /-- SANITIZE (R666). The recovery port starts a Block Erase or Crypto Erase sanitize. -/
  | sanitize (readBackOk : Bool)
  /-- RESET (R666). The recovery port takes a cold reset. -/
  | reset (found : BringupFound)
  /-- FORCE_RECOVERY (R666). The recovery port takes a cold reset after which bring-up stops in RECOVERY. -/
  | forceRecovery (found : BringupFound)
  /-- REC_STATUS_READ (R665). A read of REC_STATUS returns the status and clears IGNORED. -/
  | recStatusRead
  /-- SANITIZE_DONE (R656). A sanitize completes its key destruction, erases and map clearing and clears its flag. -/
  | sanitizeDone (failed : List (Nat × Nat))
  /-- NVME_CREATE_IO_SQ (R639). Creates an NVMe I/O submission queue. -/
  | nvmeCreateIoSq (c : NvmeRequest)
  /-- NVME_CREATE_IO_CQ (R639). Creates an NVMe I/O completion queue. -/
  | nvmeCreateIoCq (c : NvmeRequest)
  /-- NVME_DELETE_IO_SQ (R639). Deletes an NVMe I/O submission queue. -/
  | nvmeDeleteIoSq (c : NvmeRequest)
  /-- NVME_DELETE_IO_CQ (R639). Deletes an NVMe I/O completion queue. -/
  | nvmeDeleteIoCq (c : NvmeRequest)
  /-- GET_LOG_PAGE (R640). Returns an NVMe Error, SMART, Firmware Slot or Self-test log page. -/
  | getLogPage (c : NvmeRequest)
  /-- IDENTIFY (R639). Returns NVMe Identify data. -/
  | identify (c : NvmeRequest)
  /-- ABORT (R640). Aborts an NVMe command not yet sent to the Face. -/
  | abort (c : NvmeRequest)
  /-- SET_FEATURES (R650). Sets an NVMe feature, including the storage power request and APST table. -/
  | setFeatures (c : NvmeRequest)
  /-- GET_FEATURES (R650). Returns an NVMe feature, for Power Management the storage request. -/
  | getFeatures (c : NvmeRequest)
  /-- ASYNCHRONOUS_EVENT_REQUEST (R640). Posts an NVMe asynchronous event request to be completed on a later event. -/
  | asynchronousEventRequest (c : NvmeRequest)
  /-- DEVICE_SELF_TEST (R652). Starts a short or extended self-test, or aborts one. -/
  | deviceSelfTest (c : NvmeRequest)
  /-- SELFTEST_DONE (R655). A self-test ends with its log result and SELFTEST_DONE. -/
  | selftestDone (segment : Nat) (die : Option Nat)
  /-- NVME_SANITIZE (R656). The NVMe Sanitize command starts a Block Erase or Crypto Erase. -/
  | nvmeSanitize (c : NvmeRequest)
  /-- NVME_FLUSH (R645). Closes the open extent of a dataset namespace. -/
  | nvmeFlush (c : NvmeRequest)
  /-- NVME_WRITE (R645). Appends to a dataset namespace or writes scratch granules, completing once durable. -/
  | nvmeWrite (c : NvmeRequest)
  /-- NVME_READ (R646). Reads a dataset or scratch namespace. -/
  | nvmeRead (c : NvmeRequest)
  /-- WRITE_ZEROES (R647). Zeroes or deallocates scratch LBAs. -/
  | writeZeroes (c : NvmeRequest)
  /-- DATASET_MANAGEMENT (R647). Deallocates scratch granules wholly within the ranges given. -/
  | datasetManagement (c : NvmeRequest)
  /-- NVME_INVALID_OPCODE (R640). An unsupported NVMe opcode completes with Invalid Command Opcode. -/
  | nvmeInvalidOpcode (c : NvmeRequest)
  /-- OPEN_EXTENT_CLOSE (R645). An open NVMe extent closes 1 s after its last Write. -/
  | openExtentClose (dataset : Nat)
  /-- APST_TRANSITION (R651). After the ITPT idle time the storage request moves to the entry's ITPS. -/
  | apstTransition
  /-- PF0_RESET (R642). A Controller Level Reset or FLR of PF0 aborts commands and self-test and sets the storage request to Blaze. -/
  | pf0Reset
  /-- SET_ENDPOINT_ID (R661). MCTP control message that sets the endpoint id. -/
  | setEndpointId (p : MctpPacket)
  /-- GET_ENDPOINT_ID (R661). MCTP control message that returns the endpoint id. -/
  | getEndpointId (p : MctpPacket)
  /-- GET_MCTP_VERSION_SUPPORT (R661). MCTP control message that returns the supported versions. -/
  | getMctpVersionSupport (p : MctpPacket)
  /-- GET_MESSAGE_TYPE_SUPPORT (R661). MCTP control message that returns the supported message types. -/
  | getMessageTypeSupport (p : MctpPacket)
  /-- GET_VENDOR_DEFINED_MESSAGE_SUPPORT (R661). MCTP control message that returns vendor-defined support. -/
  | getVendorDefinedMessageSupport (p : MctpPacket)
  /-- VENDOR_DEFINED_MESSAGE (R662). An MCTP vendor-defined message carries one permitted HCP command and returns its response. -/
  | vendorDefinedMessage (p : MctpPacket)
  /-- SETDASA (R661). I3C command that sets the dynamic address from the static address. -/
  | setdasa (address : Nat)
  /-- ENTDAA (R661). I3C command that enters dynamic address assignment. -/
  | entdaa (address : Nat)
  /-- RSTDAA (R661). I3C command that resets the dynamic address. -/
  | rstdaa
  /-- BYPASS (R702). JTAG BYPASS instruction, also taken for unsupported instructions. -/
  | bypass (bits : List Bool)
  /-- IDCODE (R702). JTAG IDCODE instruction. -/
  | idcode (bits : List Bool)
  /-- SAMPLE_PRELOAD (R702). JTAG SAMPLE/PRELOAD instruction. -/
  | samplePreload (bits : List Bool)
  /-- EXTEST (R702). JTAG EXTEST, effective only in BOOT or RECOVERY and ended by a cold reset. -/
  | extest (bits : List Bool)
  /-- READ_SHARED (R104). Directory transaction granting a context line in S, or E when uncached. -/
  | readShared (region : Fin 8) (slot : Nat) (block : Fin 16)
  /-- READ_OWN (R107). Directory transaction granting a line in E or M, invalidating or forwarding other copies. -/
  | readOwn (region : Fin 8) (slot : Nat) (block : Fin 16)
  /-- WRITEBACK (R106). Directory transaction writing an M line to the stack and making it U. -/
  | writeback (region : Fin 8) (slot : Nat) (block : Fin 16)
  /-- EVICT_CLEAN (R104). Directory transaction removing an S or E line from a block cache. -/
  | evictClean (region : Fin 8) (slot : Nat) (block : Fin 16)
  /-- HUB_READ (R104). Hub-port read returning the newest copy of a context line. -/
  | hubRead (region : Fin 8) (slot : Nat)
  /-- HUB_WRITE (R104). Hub-port byte-masked write of a context line. -/
  | hubWrite (region : Fin 8) (slot : Nat) (mask : Nat) (data : List Byte)
  /-- BUFFER_ALLOCATE (R117). A request for L bytes is served from the Tongs pools or waits in the region's queue. -/
  | bufferAllocate (region : Fin 8) (len : Nat) (tenant cls : Nat)
  /-- SHARE (R124). Adds one holder to a buffer, or is refused or ignored. -/
  | share (handle : Nat) (cls tenant : Nat)
  /-- DROP (R124). Removes one holder, freeing the buffer at zero and serving waiting allocations. -/
  | drop (handle : Nat) (cls tenant : Nat)
  /-- MOVE (R328). A unit issues a move to a Swage, which runs it by the traversal of Table 09-4. -/
  | move (block : BlockRef) (m : MoveRec) (tenant : Nat) (mem : List Byte)
  /-- COMPRESSOR_DATA (R309). Data enters a compressor context, closing full blocks. -/
  | compressorData (ctx log cls tenant : Nat) (data : List Byte)
  /-- COMPRESSOR_FLUSH (R309). FLUSH ends the current non-empty block with FLUSHED set. -/
  | compressorFlush (ctx : Nat)
  /-- COMPRESSOR_END (R309). END writes the last block and ends the BCB stream. -/
  | compressorEnd (ctx : Nat)
  /-- MAINTENANCE_MOVE_DONE (R240). A fold or garbage-collection move of an extent or granule completes and its entry changes in one journal record. -/
  | maintenanceMoveDone (what : Nat)
  /-- BLOCK_STORE_CE (R89). A block store corrects an error and sets STORE_CE in BLOCK_TROUBLE. -/
  | blockStoreCe (block : BlockRef)
  /-- GAUGE_PAGE_WRITE (R502). The consumer's RDMA WRITE of its head count lands in bytes 0–7 of the reservoir's gauge page. -/
  | gaugePageWrite (tenant reservoir : Nat) (data : List Byte)
  /-- PEER_BUFFER_RDMA_READ (R522). On a serving device, the requester's RDMA READ of a sample link held in PEER buffers is answered. -/
  | peerBufferRdmaRead (peer link : Nat)
  /-- LOCAL_ACK_TIMEOUT (R492). The 1.049 ms local ACK timeout of a QP expires and the unacknowledged packets are retried, counting towards the retry limit. -/
  | localAckTimeout (qp : QpRef)
  /-- REPLAY_EXPORT_DONE (R583). An EXPORT of a replay log finishes writing its BCB stream to the scatter list and its ticket completes. -/
  | replayExportDone (w : Window) (ticket : Nat)
  /-- REPLAY_LOG_DELETE_DONE (R583). A DELETE of a replay log frees the log's extents within 10 ms and its ticket completes. -/
  | replayLogDeleteDone (w : Window) (ticket : Nat)
  /-- UNIT_UNGATED (R609). A cell or block restored by the ladder finishes ungating, 20 µs or 2 ms after the step, and is up to take work from the next plan frozen. -/
  | unitUngated (unit : Nat)
  /-- STANDBY_POWER_LOSS (R628). The sled's standby supply to VDD_AON is lost and the always-on well loses pending pool sizes, the Quench latch and rail-fault records. -/
  | standbyPowerLoss
  /-- CC_EN_SET (R674). The host sets CC.EN of PF0, and CSTS.RDY is set once DEVICE_STATE reads READY. -/
  | ccEnSet
  /-- BUS_MASTER_ENABLE_CHANGE (R541). A function's Bus Master Enable changes, stopping or resuming its scatter-list reads and event posting, with staged events posted on return. -/
  | busMasterEnableChange (fn : Nat) (enabled : Bool)
  /-- SRIOV_VF_ENABLE (R539). The SR-IOV control enables a VF, so that TENANT_CREATE and FUNCTION_ENABLE for its tenant are no longer refused with FUNCTION_ABSENT. -/
  | sriovVfEnable (vf : Nat)
  /-- OPCODE_UNKNOWN (R146). A doorbell carrying an opcode not defined in the negotiated version is refused with OPCODE_UNKNOWN and COMMANDS_REFUSED increments. -/
  | opcodeUnknown (w : Window) (opcode : Nat) (r : Request)
  /-- BAD_CODE (R666). A write to REC_CMD with an undefined CODE ends with BAD_CODE. -/
  | badCode (code : Nat)
  deriving DecidableEq, Repr

end Sys2Proof
end

