-- ==== Sys2Proof/Config.lean ====
section
/-!
DEFINITION. Config.lean: the free values, which the spec leaves open. Nothing in Lean can evaluate them.
-/
namespace Sys2Proof

/-- A free value of the machine: bits that the spec does not state, by the number of values taken before. -/
opaque Config.freeValue : Nat → Nat

/-- Free bytes, by the number of values taken before. -/
opaque Config.freeBytes : Nat → List Byte

/-- The Zstandard frame that the compressor of a firmware major version makes of a block's data (R310, R311). -/
opaque Config.zstdFrame : Nat → List Byte → List Byte

/-- What a kernel of the vector unit computes under a firmware major version (R355 to R358, R368): the kernel, and the bytes it can read. -/
opaque Config.vectorKernel : Nat → List Byte → List (List Byte) → List Byte

/-- Whether a kernel decodes under the vector encoding of a firmware major version (Table 11-4). -/
opaque Config.kernelDecodes : Nat → List Byte → Bool

/-- The fields of the sample shape that VECTOR_MAP gives its output, which the spec does not state. -/
opaque Config.vectorMapShape : Nat → List Byte → List Byte → List Nat

/-- The pair of partial sums that a fast accumulation adds next (R353): by draw, reduction and step. -/
opaque Config.treePick : Nat → Nat → Nat → Nat × Nat

/-- The input offset at which an op finds its output above OUT_MAX, where the spec does not state it: by opcode and input. -/
opaque Config.failOffset : Nat → List Byte → Nat

/-- The UUID of a namespace that Identify gives, by NSID (R639). -/
opaque Config.nsUuid : Nat → List Byte

/-- Bits 31 to 1 of the device's JTAG IDCODE (R702). -/
opaque Config.idcode : Nat

end Sys2Proof
end

