-- ==== Sys2Proof/Machine/Bytes.lean ====
section
/-!
DEFINITION. Machine/Bytes.lean: byte strings, little-endian fields (R7), bit fields (R6) and addressed byte memory.
-/
namespace Sys2Proof.Machine

/-- The byte of value `n` modulo 256. -/
def byteOf (n : Nat) : Byte := BitVec.ofNat 8 n

/-- `w` bytes of `n`, least significant first (R7). -/
def leBytes (w n : Nat) : List Byte :=
  match w with
  | 0 => []
  | k + 1 => byteOf n :: leBytes k (n / 256)

/-- The number whose bytes are `bs`, least significant first (R7). -/
def leNat (bs : List Byte) : Nat :=
  match bs with
  | [] => 0
  | b :: r => b.toNat + 256 * leNat r

/-- `w` bytes of `n`, most significant first: the order of network standards (R7). -/
def beBytes (w n : Nat) : List Byte := (leBytes w n).reverse

/-- The number whose bytes are `bs`, most significant first. -/
def beNat (bs : List Byte) : Nat := bs.foldl (fun a b => 256 * a + b.toNat) 0

/-- `n` bytes of `bs` from offset `o`; bytes past the end read as 0. -/
def bytesAt (bs : List Byte) (o n : Nat) : List Byte :=
  let t := (bs.drop o).take n
  t ++ List.replicate (n - t.length) 0

/-- The little-endian field of `w` bytes at offset `o` (R7). -/
def leAt (bs : List Byte) (o w : Nat) : Nat := leNat (bytesAt bs o w)

/-- The big-endian field of `w` bytes at offset `o`. -/
def beAt (bs : List Byte) (o w : Nat) : Nat := beNat (bytesAt bs o w)

/-- Bits `[lo + n - 1 : lo]` of a number (R6). -/
def bitField (x lo n : Nat) : Nat := x / 2 ^ lo % 2 ^ n

/-- Bit `i` of a number. -/
def bitOf (x i : Nat) : Bool := x / 2 ^ i % 2 == 1

/-- 1 for true, 0 for false. -/
def bitNat (b : Bool) : Nat := if b then 1 else 0

/-- `bs` cut or filled with 0 bytes to length `n`. -/
def padTo (bs : List Byte) (n : Nat) : List Byte := bytesAt bs 0 n

/-- `bs` with the bytes `new` laid over it from offset `o`; its length is kept. -/
def overlay (bs : List Byte) (o : Nat) (new : List Byte) : List Byte :=
  let t := bs.take o ++ new ++ bs.drop (o + new.length)
  t.take bs.length

/-- `n` 0 bytes. -/
def zeros (n : Nat) : List Byte := List.replicate n 0

/-- Whether every byte is 0. -/
def allZero (bs : List Byte) : Bool := bs.all (fun b => b == 0)

/-- The bytes of an ASCII string. -/
def asciiBytes (s : String) : List Byte := s.toList.map (fun c => byteOf c.toNat)

/-- `⌈a / b⌉`, and 0 for `b = 0`. -/
def ceilDiv (a b : Nat) : Nat := if b = 0 then 0 else (a + b - 1) / b

/-- The greatest multiple of `m` that is at most `a`. -/
def roundDown (a m : Nat) : Nat := a / m * m

/-- The least multiple of `m` that is at least `a`. -/
def roundUp (a m : Nat) : Nat := ceilDiv a m * m

/-- Sum of a list of numbers. -/
def sumNat (l : List Nat) : Nat := l.foldl (· + ·) 0

/-- Greatest of a list of numbers, 0 for none. -/
def maxNat (l : List Nat) : Nat := l.foldl max 0

/-- The list with the element at place `i` changed by `f`. -/
def modifyAt {α : Type} (l : List α) (i : Nat) (f : α → α) : List α :=
  l.mapIdx (fun j a => if j = i then f a else a)

/-- The element of `l` with the least key, the first of equals. -/
def argMin {α : Type} (key : α → Nat) (l : List α) : Option α :=
  l.foldl (fun o a => match o with
    | none => some a
    | some b => if key a < key b then some a else some b) none

/-- The element of `l` with the greatest key, the first of equals. -/
def argMax {α : Type} (key : α → Nat) (l : List α) : Option α :=
  l.foldl (fun o a => match o with
    | none => some a
    | some b => if key b < key a then some a else some b) none

/-- Insertion of `a` after every element whose key is at most its own. -/
def insertByKey {α : Type} (key : α → Nat) (a : α) (l : List α) : List α :=
  match l with
  | [] => [a]
  | b :: r => if key a < key b then a :: b :: r else b :: insertByKey key a r

/-- A stable sort by a numeric key. -/
def sortByKey {α : Type} (key : α → Nat) (l : List α) : List α :=
  l.foldl (fun acc a => insertByKey key a acc) []

/-- The middle of a list of numbers: of an even count, the mean of the two middle ones as a pair over 2. -/
def medianTwice (l : List Nat) : Nat :=
  let s := sortByKey id l
  let n := s.length
  if n = 0 then 0
  else if n % 2 = 1 then 2 * s.getD (n / 2) 0
  else s.getD (n / 2 - 1) 0 + s.getD (n / 2) 0

/-! ### Addressed byte memory: the request areas, SPI NOR and REC_DATA -/

/-- Addressed byte memory: address and byte pairs, addresses strictly rising, none equal to what an unlisted address reads as. -/
abbrev Mem := List (Nat × Byte)

/-- One byte of memory; an unlisted address reads as `d`. -/
def Mem.read (d : Byte) (m : Mem) (a : Nat) : Byte :=
  match m with
  | [] => d
  | (x, b) :: r => if x = a then b else Mem.read d r a

/-- Memory with byte `b` at address `a`; writing what an unlisted address reads as removes the entry. -/
def Mem.write (d : Byte) (m : Mem) (a : Nat) (b : Byte) : Mem :=
  match m with
  | [] => if b = d then [] else [(a, b)]
  | (x, c) :: r =>
    if a < x then (if b = d then (x, c) :: r else (a, b) :: (x, c) :: r)
    else if x = a then (if b = d then r else (a, b) :: r)
    else (x, c) :: Mem.write d r a b

/-- Whether memory has its canonical form. -/
def Mem.wf (d : Byte) (m : Mem) : Bool :=
  match m with
  | [] => true
  | [(_, b)] => b != d
  | (x, b) :: (y, c) :: r => (b != d) && decide (x < y) && Mem.wf d ((y, c) :: r)

/-- Memory with the bytes `bs` from address `a` upward. -/
def Mem.writeAll (d : Byte) (m : Mem) (a : Nat) (bs : List Byte) : Mem :=
  match bs with
  | [] => m
  | b :: r => Mem.writeAll d (Mem.write d m a b) (a + 1) r

/-- `n` bytes of memory from address `a` upward. -/
def Mem.readAll (d : Byte) (m : Mem) (a n : Nat) : List Byte :=
  (List.range n).map (fun i => Mem.read d m (a + i))

/-- Memory with every address from `a` to `a + n - 1` reading as `d`. -/
def Mem.erase (m : Mem) (a n : Nat) : Mem := m.filter (fun p => decide (p.1 < a) || decide (a + n ≤ p.1))

end Sys2Proof.Machine
end

