-- ==== Sys2Proof/Machine/Hashes.lean ====
section
/-!
DEFINITION. Machine/Hashes.lean: XXH32 and XXH64 of the LZ4 and Zstandard frames, SipHash-2-4, and the counter cipher Philox4x32-10.
-/
namespace Sys2Proof.Machine

/-- Rotation left by `n` of a `w`-bit word. -/
def rotl (w n x : Nat) : Nat := (x * 2 ^ n % 2 ^ w) ||| (x / 2 ^ (w - n))

/-! ### XXH32 -/

def xxP32 : List Nat := [2654435761, 2246822519, 3266489917, 668265263, 374761393]

/-- One lane step of XXH32. -/
def xx32Round (a lane : Nat) : Nat :=
  rotl 32 13 ((a + lane * xxP32.getD 1 0) % 2 ^ 32) * xxP32.getD 0 0 % 2 ^ 32

/-- The final mixing of XXH32. -/
def xx32Final (h : Nat) : Nat :=
  let h := (h ^^^ (h / 2 ^ 15)) * xxP32.getD 1 0 % 2 ^ 32
  let h := (h ^^^ (h / 2 ^ 13)) * xxP32.getD 2 0 % 2 ^ 32
  h ^^^ (h / 2 ^ 16)

/-- XXH32 with seed 0. -/
def xxh32 (bs : List Byte) : Nat :=
  let m := 2 ^ 32
  let p1 := xxP32.getD 0 0
  let p2 := xxP32.getD 1 0
  let p5 := xxP32.getD 4 0
  let n := bs.length
  let k := n / 16
  let h0 := if n < 16 then p5 else
    let v := (List.range k).foldl (fun (v : List Nat) i =>
      (List.range 4).map (fun j => xx32Round (v.getD j 0) (leAt bs (16 * i + 4 * j) 4))) [(p1 + p2) % m, p2, 0, m - p1]
    (rotl 32 1 (v.getD 0 0) + rotl 32 7 (v.getD 1 0) + rotl 32 12 (v.getD 2 0) + rotl 32 18 (v.getD 3 0)) % m
  let h1 := (h0 + n) % m
  let rest := bs.drop (16 * k)
  let q := rest.length / 4
  let h2 := (List.range q).foldl (fun h i =>
    rotl 32 17 ((h + leAt rest (4 * i) 4 * xxP32.getD 2 0) % m) * xxP32.getD 3 0 % m) h1
  let h3 := (rest.drop (4 * q)).foldl (fun h b => rotl 32 11 ((h + b.toNat * p5) % m) * p1 % m) h2
  xx32Final h3

/-! ### XXH64 -/

def xxP64 : List Nat := [11400714785074694791, 14029467366897019727, 1609587929392839161, 9650029242287828579, 2870177450012600261]

/-- One lane step of XXH64. -/
def xx64Round (a lane : Nat) : Nat :=
  rotl 64 31 ((a + lane * xxP64.getD 1 0) % 2 ^ 64) * xxP64.getD 0 0 % 2 ^ 64

/-- The merging of a lane into the XXH64 sum. -/
def xx64Merge (h v : Nat) : Nat := ((h ^^^ xx64Round 0 v) * xxP64.getD 0 0 + xxP64.getD 3 0) % 2 ^ 64

/-- XXH64 with seed 0. -/
def xxh64 (bs : List Byte) : Nat :=
  let m := 2 ^ 64
  let p1 := xxP64.getD 0 0
  let p2 := xxP64.getD 1 0
  let p3 := xxP64.getD 2 0
  let p4 := xxP64.getD 3 0
  let p5 := xxP64.getD 4 0
  let n := bs.length
  let k := n / 32
  let h0 := if n < 32 then p5 else
    let v := (List.range k).foldl (fun (v : List Nat) i =>
      (List.range 4).map (fun j => xx64Round (v.getD j 0) (leAt bs (32 * i + 8 * j) 8))) [(p1 + p2) % m, p2, 0, m - p1]
    let s := (rotl 64 1 (v.getD 0 0) + rotl 64 7 (v.getD 1 0) + rotl 64 12 (v.getD 2 0) + rotl 64 18 (v.getD 3 0)) % m
    v.foldl xx64Merge s
  let h1 := (h0 + n) % m
  let rest := bs.drop (32 * k)
  let q := rest.length / 8
  let h2 := (List.range q).foldl (fun h i => (rotl 64 27 (h ^^^ xx64Round 0 (leAt rest (8 * i) 8)) * p1 + p4) % m) h1
  let rest := rest.drop (8 * q)
  let q4 := rest.length / 4
  let h3 := (List.range q4).foldl (fun h i => (rotl 64 23 (h ^^^ (leAt rest (4 * i) 4 * p1 % m)) * p2 + p3) % m) h2
  let h4 := (rest.drop (4 * q4)).foldl (fun h b => rotl 64 11 (h ^^^ (b.toNat * p5 % m)) * p1 % m) h3
  let h := (h4 ^^^ (h4 / 2 ^ 33)) * p2 % m
  let h := (h ^^^ (h / 2 ^ 29)) * p3 % m
  h ^^^ (h / 2 ^ 32)

/-! ### SipHash-2-4 -/

/-- The four words of SipHash. -/
structure SipState where
  v0 : Nat
  v1 : Nat
  v2 : Nat
  v3 : Nat

/-- One SipRound. -/
def sipRound (s : SipState) : SipState :=
  let m := 2 ^ 64
  let v0 := (s.v0 + s.v1) % m
  let v1 := rotl 64 13 s.v1 ^^^ v0
  let v0 := rotl 64 32 v0
  let v2 := (s.v2 + s.v3) % m
  let v3 := rotl 64 16 s.v3 ^^^ v2
  let v0 := (v0 + v3) % m
  let v3 := rotl 64 21 v3 ^^^ v0
  let v2 := (v2 + v1) % m
  let v1 := rotl 64 17 v1 ^^^ v2
  let v2 := rotl 64 32 v2
  ⟨v0, v1, v2, v3⟩

/-- SipHash-2-4 of a byte string under the 128-bit key (k0, k1). -/
def sipHash24 (k0 k1 : Nat) (bs : List Byte) : Nat :=
  let s : SipState := ⟨k0 ^^^ 0x736f6d6570736575, k1 ^^^ 0x646f72616e646f6d, k0 ^^^ 0x6c7967656e657261, k1 ^^^ 0x7465646279746573⟩
  let absorb := fun (s : SipState) (w : Nat) =>
    let t := sipRound (sipRound { s with v3 := s.v3 ^^^ w })
    { t with v0 := t.v0 ^^^ w }
  let n := bs.length
  let s := (List.range (n / 8)).foldl (fun s i => absorb s (leAt bs (8 * i) 8)) s
  let s := absorb s (leNat (bs.drop (8 * (n / 8))) + (n % 256) * 2 ^ 56)
  let s := sipRound (sipRound (sipRound (sipRound { s with v2 := s.v2 ^^^ 0xff })))
  s.v0 ^^^ s.v1 ^^^ s.v2 ^^^ s.v3

/-! ### Philox4x32-10 -/

/-- One round of Philox4x32 with key words (k0, k1). -/
def philoxRound (c : List Nat) (k0 k1 : Nat) : List Nat :=
  let p0 := 0xD2511F53 * c.getD 0 0
  let p1 := 0xCD9E8D57 * c.getD 2 0
  [(p1 / 2 ^ 32) ^^^ c.getD 1 0 ^^^ k0, p1 % 2 ^ 32, (p0 / 2 ^ 32) ^^^ c.getD 3 0 ^^^ k1, p0 % 2 ^ 32]

/-- Philox4x32-10: four 32-bit words from a counter of four words and a key of two. -/
def philox4x32 (ctr : List Nat) (k0 k1 : Nat) : List Nat :=
  (List.range 10).foldl (fun c i =>
    philoxRound c ((k0 + i * 0x9E3779B9) % 2 ^ 32) ((k1 + i * 0xBB67AE85) % 2 ^ 32)) ctr

end Sys2Proof.Machine
end

