-- ==== Sys2Proof/Machine/Crc.lean ====
section
/-!
DEFINITION. Machine/Crc.lean: the checksums of the spec: CRC-32C (R176), the CRC-32 and Adler-32 of gzip, PNG and zlib, and CRC-16 (R590).
-/
namespace Sys2Proof.Machine

/-- One bit of a reflected CRC step. -/
def crcBit (poly c : Nat) : Nat := if c % 2 = 1 then (c / 2) ^^^ poly else c / 2

/-- One byte of a reflected CRC. -/
def crcByte (poly c : Nat) (b : Byte) : Nat := (List.range 8).foldl (fun c _ => crcBit poly c) (c ^^^ b.toNat)

/-- A reflected 32-bit CRC with initial value and final XOR of all ones. -/
def crc32With (poly : Nat) (bs : List Byte) : Nat := (bs.foldl (crcByte poly) 0xFFFFFFFF) ^^^ 0xFFFFFFFF

/-- CRC-32C: polynomial 0x1EDC_6F41, reflected (R176). -/
def crc32c (bs : List Byte) : Nat := crc32With 0x82F63B78 bs

/-- The CRC-32 of RFC 1952 and ISO/IEC 15948, and the FCS of IEEE 802.3. -/
def crc32 (bs : List Byte) : Nat := crc32With 0xEDB88320 bs

/-- The CRC-16 of a gzip header: the low 16 bits of its CRC-32 (RFC 1952). -/
def gzipHeaderCrc (bs : List Byte) : Nat := crc32 bs % 65536

/-- One bit of a CRC taken most significant bit first. -/
def crcMsbBit (width poly c : Nat) : Nat :=
  if c / 2 ^ (width - 1) % 2 = 1 then (c * 2 % 2 ^ width) ^^^ poly else c * 2 % 2 ^ width

/-- A CRC-16 taken most significant bit first. -/
def crc16Msb (poly init : Nat) (bs : List Byte) : Nat :=
  bs.foldl (fun c b => (List.range 8).foldl (fun c _ => crcMsbBit 16 poly c) (c ^^^ (b.toNat * 256))) init

/-- Adler-32 of RFC 1950. -/
def adler32 (bs : List Byte) : Nat :=
  let p := bs.foldl (fun (p : Nat × Nat) b => let a := (p.1 + b.toNat) % 65521; (a, (p.2 + a) % 65521)) (1, 0)
  p.2 * 65536 + p.1

end Sys2Proof.Machine
end

