-- ==== Sys2Proof/Machine/State/Value.lean ====
section
/-!
DEFINITION. Machine/State/Value.lean: what an op hands to the next one: bytes with their sample shape (R262), or a corrupt-sample reason (R288).
-/
namespace Sys2Proof.Machine

/-- ELEM of a sample shape (Table 07-2), with the element types that the Swage and the Anvil add. -/
inductive Elem where
  | u8 | u16 | s16 | s24 | f32 | bytes | bf16 | f16 | s8
  deriving DecidableEq, Repr

/-- LAYOUT of a sample shape (Table 07-2). -/
inductive Layout where
  | hwc | chw | interleaved | flat
  deriving DecidableEq, Repr

/-- COLOUR_SPACE of a sample shape (Table 07-2). -/
inductive Colour where
  | none | grey | greyAlpha | rgb | rgba | ycbcr
  deriving DecidableEq, Repr

/-- A sample shape (Table 07-2). -/
structure Shape where
  elem : Elem
  layout : Layout
  channels : Nat
  colour : Colour
  width : Nat
  height : Nat
  rate : Nat
  deriving DecidableEq, Repr

/-- The shape of `n` bytes without structure. -/
def Shape.flatBytes (n : Nat) : Shape :=
  { elem := .bytes, layout := .flat, channels := 1, colour := .none, width := n, height := 1, rate := 0 }

/-- A token record (Table 13-1), as its 16 bytes, in the place of a sample shape. -/
abbrev TokenRecord := List Byte

/-- The output of an op: its shape, its bytes, and the token record that replaces the shape of a token output. -/
structure Value where
  shape : Shape
  data : List Byte
  token : Option TokenRecord := none
  deriving DecidableEq, Repr

/-- A value of plain bytes. -/
def Value.ofBytes (bs : List Byte) : Value := { shape := Shape.flatBytes bs.length, data := bs }

/-- A corrupt-sample reason (Table 07-8) and the input offset at which it was found (Table 07-9). -/
structure Corrupt where
  reason : Nat
  offset : Nat
  deriving DecidableEq, Repr

/-- What a decoder answers. -/
abbrev Dec (α : Type) := Except Corrupt α

namespace Reason

def brcHeaderBad : Nat := 0x01
def brcLengthContradiction : Nat := 0x02
def brcTooDeep : Nat := 0x03
def brcRecordBad : Nat := 0x04
def brcCrcBad : Nat := 0x05
def brcNoData : Nat := 0x06
def ustarHeaderBad : Nat := 0x08
def ustarChecksumBad : Nat := 0x09
def ustarTruncated : Nat := 0x0A
def ustarNoMember : Nat := 0x0B
def ustarLimit : Nat := 0x0C
def jpegUnsupported : Nat := 0x10
def jpegSyntax : Nat := 0x11
def jpegEntropyBad : Nat := 0x12
def jpegTruncated : Nat := 0x13
def imageLimit : Nat := 0x14
def pngUnsupported : Nat := 0x18
def pngSyntax : Nat := 0x19
def pngCrcBad : Nat := 0x1A
def pngFilterBad : Nat := 0x1B
def pngDataShort : Nat := 0x1C
def illegalCode : Nat := 0x20
def distanceBeyondHistory : Nat := 0x21
def lengthOverrun : Nat := 0x22
def checksumMismatch : Nat := 0x23
def windowUnsupported : Nat := 0x24
def truncated : Nat := 0x25
def headerBad : Nat := 0x26
def dictionaryUnsupported : Nat := 0x27
def codecUnknown : Nat := 0x28
def waveUnsupported : Nat := 0x30
def waveSyntax : Nat := 0x31
def waveLimit : Nat := 0x32
def textLimit : Nat := 0x38
def jsonSyntax : Nat := 0x40
def jsonLimit : Nat := 0x41
def jsonKeyMissing : Nat := 0x42
def jsonType : Nat := 0x43
def outMaxExceeded : Nat := 0xF0
def mediaUnreadable : Nat := 0xF1

end Reason

/-- A corrupt-sample answer. -/
def corrupt {α : Type} (reason offset : Nat) : Dec α := .error ⟨reason, offset⟩

/-- Nothing when `c` holds, the reason at the offset otherwise. -/
def require (c : Bool) (reason offset : Nat) : Dec Unit := if c then .ok () else corrupt reason offset

/-- The bytes of one element of a shape (R262). -/
def Shape.elemBytes (s : Shape) : Nat :=
  match s.elem with
  | .u8 | .bytes | .s8 => 1
  | .u16 | .s16 | .bf16 | .f16 => 2
  | .s24 => 3
  | .f32 => 4

/-- The output length that a shape implies (R262). -/
def Shape.byteLen (s : Shape) : Nat := s.width * s.height * s.channels * s.elemBytes

end Sys2Proof.Machine
end

