-- ==== Sys2Proof/Machine/Inflate.lean ====
section
/-!
DEFINITION. Machine/Inflate.lean: raw DEFLATE, zlib and gzip as the lanes decode them (R296, R297).
-/
namespace Sys2Proof.Machine

/-- A byte of an input array, 0 past its end. -/
def inAt (a : Array Byte) (i : Nat) : Nat := (a.getD i 0).toNat

/-- Bit `p` of an input, least significant bit of each byte first. -/
def inBit (a : Array Byte) (p : Nat) : Nat := inAt a (p / 8) / 2 ^ (p % 8) % 2

/-- `n` bits from bit position `p`, least significant first; TRUNCATED where the input ends before them. -/
def takeBits (a : Array Byte) (p n : Nat) : Dec (Nat × Nat) :=
  if 8 * a.size < p + n then corrupt Reason.truncated a.size
  else .ok ((List.range n).foldr (fun i v => inBit a (p + i) + 2 * v) 0, p + n)

/-- A Huffman code: how many symbols have each length, and the symbols in code order. -/
structure Huff where
  counts : List Nat
  symbols : List Nat

/-- The code of a list of code lengths (RFC 1951, 3.2.2). -/
def Huff.ofLengths (ls : List Nat) : Huff :=
  { counts := (List.range 16).map (fun l => if l = 0 then 0 else ls.countP (fun x => x == l)),
    symbols := ((List.range 15).map (fun l => (List.range ls.length).filter (fun s => ls.getD s 0 == l + 1))).flatten }

/-- What is left of the code space: none for an over-subscribed code, 0 for a complete one. -/
def Huff.left (h : Huff) : Option Nat :=
  (List.range 15).foldl (fun o i => o.bind (fun l => if 2 * l < h.counts.getD (i + 1) 0 then none else some (2 * l - h.counts.getD (i + 1) 0)))
    (some 1)

/-- One symbol of a code from bit position `p` (RFC 1951): `n` lengths are still to try. -/
def huffStep (h : Huff) (a : Array Byte) (start : Nat) (n p code first index : Nat) : Dec (Nat × Nat) :=
  match n with
  | 0 => corrupt Reason.illegalCode (start / 8)
  | k + 1 =>
    if 8 * a.size ≤ p then corrupt Reason.truncated a.size
    else
      let code := code + inBit a p
      let c := h.counts.getD (15 - k) 0
      if code < first + c then .ok (h.symbols.getD (index + (code - first)) 0, p + 1)
      else huffStep h a start k (p + 1) (2 * code) (2 * (first + c)) (index + c)

/-- One symbol of a code from bit position `p`. -/
def Huff.next (h : Huff) (a : Array Byte) (p : Nat) : Dec (Nat × Nat) := huffStep h a p 15 p 0 0 0

/-- Extra bits and base of the length symbols 257 to 285 (RFC 1951, 3.2.5). -/
def lenExtra (s : Nat) : Nat := if s < 265 || s = 285 then 0 else (s - 261) / 4
def lenBase (s : Nat) : Nat :=
  if s = 285 then 258 else if s < 265 then s - 254 else 3 + (4 + (s - 265) % 4) * 2 ^ lenExtra s

/-- Extra bits and base of the distance symbols 0 to 29 (RFC 1951, 3.2.5). -/
def distExtra (s : Nat) : Nat := if s < 4 then 0 else s / 2 - 1
def distBase (s : Nat) : Nat := if s < 4 then s + 1 else 1 + (2 + s % 2) * 2 ^ distExtra s

/-- `n` bytes copied one by one from `d` bytes back. -/
def copyBack (out : Array Byte) (d n : Nat) : Array Byte :=
  (List.range n).foldl (fun o _ => o.push (o.getD (o.size - d) 0)) out

/-- The symbols of one compressed block, up to its end-of-block symbol. `start` is where the stream's output begins, `lim` the output limit. -/
def inflateSyms (fuel : Nat) (a : Array Byte) (lit dist : Huff) (start lim : Nat) (p : Nat) (out : Array Byte) : Dec (Nat × Array Byte) :=
  match fuel with
  | 0 => corrupt Reason.truncated a.size
  | f + 1 => do
    let (s, p1) ← lit.next a p
    if s < 256 then
      if lim < out.size + 1 then corrupt Reason.outMaxExceeded (p / 8)
      else inflateSyms f a lit dist start lim p1 (out.push (byteOf s))
    else if s = 256 then .ok (p1, out)
    else if 286 ≤ s then corrupt Reason.illegalCode (p / 8)
    else do
      let (e, p2) ← takeBits a p1 (lenExtra s)
      let n := lenBase s + e
      let (ds, p3) ← dist.next a p2
      if 30 ≤ ds then corrupt Reason.illegalCode (p2 / 8)
      else do
        let (de, p4) ← takeBits a p3 (distExtra ds)
        let d := distBase ds + de
        if out.size - start < d || 32768 < d then corrupt Reason.distanceBeyondHistory (p2 / 8)
        else if lim < out.size + n then corrupt Reason.outMaxExceeded (p / 8)
        else inflateSyms f a lit dist start lim p4 (copyBack out d n)

/-- The fixed codes of block type 1. -/
def fixedLit : Huff :=
  Huff.ofLengths (List.replicate 144 8 ++ List.replicate 112 9 ++ List.replicate 24 7 ++ List.replicate 8 8)
def fixedDist : Huff := Huff.ofLengths (List.replicate 32 5)

/-- The order of the code-length code lengths (RFC 1951, 3.2.7). -/
def clOrder : List Nat := [16, 17, 18, 0, 8, 7, 9, 6, 10, 5, 11, 4, 12, 3, 13, 2, 14, 1, 15]

/-- The code lengths of a dynamic block, `want` of them; `acc` holds those read, newest first. -/
def readLens (fuel : Nat) (a : Array Byte) (cl : Huff) (want : Nat) (p : Nat) (acc : List Nat) : Dec (List Nat × Nat) :=
  match fuel with
  | 0 => .ok (acc.reverse, p)
  | f + 1 =>
    if want ≤ acc.length then .ok (acc.reverse, p)
    else do
      let (s, p1) ← cl.next a p
      if s < 16 then readLens f a cl want p1 (s :: acc)
      else do
        require (s != 16 || !acc.isEmpty) Reason.illegalCode (p / 8)
        let (x, p2) ← takeBits a p1 (if s = 16 then 2 else if s = 17 then 3 else 7)
        let n := x + (if s = 18 then 11 else 3)
        require (decide (acc.length + n ≤ want)) Reason.lengthOverrun (p / 8)
        readLens f a cl want p2 (List.replicate n (if s = 16 then acc.headD 0 else 0) ++ acc)

/-- Whether a code is complete, or is the one incomplete distance code that R297 allows. -/
def codeOk (isDist : Bool) (ls : List Nat) : Bool :=
  match (Huff.ofLengths ls).left with
  | none => false
  | some l => l == 0 || (isDist && ls.countP (fun x => x != 0) == 1 && ls.contains 1)

/-- The codes of a dynamic block whose header starts at bit `p`. -/
def dynCodes (a : Array Byte) (p : Nat) : Dec (Huff × Huff × Nat) := do
  let (hlit, p1) ← takeBits a p 5
  require (decide (hlit ≤ 29)) Reason.illegalCode (p / 8)
  let (hdist, p2) ← takeBits a p1 5
  require (decide (hdist ≤ 29)) Reason.illegalCode (p1 / 8)
  let (hclen, p3) ← takeBits a p2 4
  let n := hclen + 4
  let (_, p4) ← takeBits a p3 (3 * n)
  let cls := (List.range 19).map (fun s =>
    match clOrder.findIdx? (fun x => x == s) with
    | some i => if i < n then inBit a (p3 + 3 * i) + 2 * inBit a (p3 + 3 * i + 1) + 4 * inBit a (p3 + 3 * i + 2) else 0
    | none => 0)
  require (codeOk false cls) Reason.illegalCode (p3 / 8)
  let (ls, p5) ← readLens 400 a (Huff.ofLengths cls) (hlit + 257 + hdist + 1) p4 []
  let ll := ls.take (hlit + 257)
  let dl := ls.drop (hlit + 257)
  require (codeOk false ll) Reason.illegalCode (p4 / 8)
  require (codeOk true dl) Reason.illegalCode (p4 / 8)
  .ok (Huff.ofLengths ll, Huff.ofLengths dl, p5)

/-- The blocks of one DEFLATE stream from bit `p`: the bit after the final block, and the output. -/
def inflateBlocks (fuel : Nat) (a : Array Byte) (start lim : Nat) (p : Nat) (out : Array Byte) : Dec (Nat × Array Byte) :=
  match fuel with
  | 0 => corrupt Reason.truncated a.size
  | f + 1 => do
    let (fin, p1) ← takeBits a p 1
    let (ty, p2) ← takeBits a p1 2
    let (q, o) ← (
      if ty = 0 then do
        let b := (p2 + 7) / 8
        let (len, _) ← takeBits a (8 * b) 16
        let (nlen, _) ← takeBits a (8 * b + 16) 16
        require (len + nlen == 65535) Reason.lengthOverrun b
        require (decide (b + 4 + len ≤ a.size)) Reason.truncated a.size
        require (decide (out.size + len ≤ lim)) Reason.outMaxExceeded (b + 4 + (lim - out.size))
        .ok (8 * (b + 4 + len), (List.range len).foldl (fun o i => o.push (a.getD (b + 4 + i) 0)) out)
      else if ty = 1 then inflateSyms (8 * a.size + 1) a fixedLit fixedDist start lim p2 out
      else if ty = 2 then do
        let (l, d, p3) ← dynCodes a p2
        inflateSyms (8 * a.size + 1) a l d start lim p3 out
      else corrupt Reason.illegalCode (p1 / 8) : Dec (Nat × Array Byte))
    if fin = 1 then .ok (q, o) else inflateBlocks f a start lim q o

/-- One DEFLATE stream from byte `b`: the byte after it, and the output appended to `out`. -/
def inflateAt (a : Array Byte) (b lim : Nat) (out : Array Byte) : Dec (Nat × Array Byte) := do
  let (p, o) ← inflateBlocks (8 * a.size + 1) a out.size lim (8 * b) out
  .ok ((p + 7) / 8, o)

/-- The bytes of `out` from index `i` on. -/
def outFrom (out : Array Byte) (i : Nat) : List Byte := out.toList.drop i

/-- A zlib stream (RFC 1950) under the checks of Table 08-2. -/
def zlibDecode (a : Array Byte) (lim : Nat) : Dec (Array Byte) := do
  require (decide (2 ≤ a.size)) Reason.truncated a.size
  let cmf := inAt a 0
  let flg := inAt a 1
  require (cmf % 16 == 8 && (256 * cmf + flg) % 31 == 0) Reason.headerBad 0
  require (decide (cmf / 16 ≤ 7)) Reason.windowUnsupported 0
  require (flg / 32 % 2 == 0) Reason.dictionaryUnsupported 1
  let (b, out) ← inflateAt a 2 lim #[]
  require (decide (b + 4 ≤ a.size)) Reason.truncated a.size
  require (beAt a.toList b 4 == adler32 out.toList) Reason.checksumMismatch b
  .ok out

/-- The byte after a NUL-terminated field of at most 65,535 bytes that starts at `b`. -/
def gzipField (fuel : Nat) (a : Array Byte) (start b : Nat) : Dec Nat :=
  match fuel with
  | 0 => corrupt Reason.headerBad start
  | f + 1 =>
    if a.size ≤ b then corrupt Reason.truncated a.size
    else if inAt a b = 0 then .ok (b + 1)
    else gzipField f a start (b + 1)

/-- The byte after a gzip member's header that starts at `b` (RFC 1952). -/
def gzipHeader (a : Array Byte) (b : Nat) : Dec Nat := do
  require (decide (b + 2 ≤ a.size)) Reason.truncated a.size
  require (inAt a b == 0x1F && inAt a (b + 1) == 0x8B) Reason.headerBad b
  require (decide (b + 10 ≤ a.size)) Reason.truncated a.size
  require (inAt a (b + 2) == 8) Reason.headerBad (b + 2)
  let flg := inAt a (b + 3)
  require (decide (flg < 32)) Reason.headerBad (b + 3)
  let p0 := b + 10
  let p1 ← (if bitOf flg 2 then do
      require (decide (p0 + 2 ≤ a.size)) Reason.truncated a.size
      let n := inAt a p0 + 256 * inAt a (p0 + 1)
      require (decide (p0 + 2 + n ≤ a.size)) Reason.truncated a.size
      .ok (p0 + 2 + n)
    else .ok p0 : Dec Nat)
  let p2 ← if bitOf flg 3 then gzipField 65536 a p1 p1 else .ok p1
  let p3 ← if bitOf flg 4 then gzipField 65536 a p2 p2 else .ok p2
  if bitOf flg 1 then do
    require (decide (p3 + 2 ≤ a.size)) Reason.truncated a.size
    require (inAt a p3 + 256 * inAt a (p3 + 1) == gzipHeaderCrc ((a.toList.drop b).take (p3 - b))) Reason.checksumMismatch p3
    .ok (p3 + 2)
  else .ok p3

/-- The members of a gzip input from byte `b` on. -/
def gzipMembers (fuel : Nat) (a : Array Byte) (lim b : Nat) (out : Array Byte) : Dec (Array Byte) :=
  match fuel with
  | 0 => .ok out
  | f + 1 => do
    let h ← gzipHeader a b
    let (e, o) ← inflateAt a h lim out
    require (decide (e + 8 ≤ a.size)) Reason.truncated a.size
    let new := outFrom o out.size
    require (leAt a.toList e 4 == crc32 new) Reason.checksumMismatch e
    require (leAt a.toList (e + 4) 4 == new.length % 2 ^ 32) Reason.lengthOverrun (e + 4)
    if a.size ≤ e + 8 then .ok o
    else if inAt a (e + 8) = 0x1F && (inAt a (e + 9) = 0x8B || a.size = e + 9) then gzipMembers f a lim (e + 8) o
    else corrupt Reason.headerBad (e + 8)

/-- A gzip input: one or more members (R296). -/
def gzipDecode (a : Array Byte) (lim : Nat) : Dec (Array Byte) := gzipMembers (a.size + 1) a lim 0 #[]

/-- Raw DEFLATE; bytes after the stream are ignored (R296). -/
def deflateDecode (a : Array Byte) (lim : Nat) : Dec (Array Byte) := do
  let (_, o) ← inflateAt a 0 lim #[]
  .ok o

end Sys2Proof.Machine
end

