-- ==== Sys2Proof/Machine/Lz4.lean ====
section
/-!
DEFINITION. Machine/Lz4.lean: LZ4 frames, format version 01 (R294, R296, R299).
-/
namespace Sys2Proof.Machine

/-- `n` bytes of an input from byte `b`, as a little-endian number. -/
def inLe (a : Array Byte) (b n : Nat) : Nat := (List.range n).foldr (fun i v => inAt a (b + i) + 256 * v) 0

/-- `n` bytes of an input from byte `b`. -/
def inBytes (a : Array Byte) (b n : Nat) : List Byte := (List.range n).map (fun i => a.getD (b + i) 0)

/-- A length of 15 or more continued in further bytes before `e`. -/
def lz4Len (fuel : Nat) (a : Array Byte) (tok b e n : Nat) : Dec (Nat × Nat) :=
  match fuel with
  | 0 => corrupt Reason.lengthOverrun tok
  | f + 1 =>
    if e ≤ b then corrupt Reason.lengthOverrun tok
    else if inAt a b = 255 then lz4Len f a tok (b + 1) e (n + 255)
    else .ok (n + inAt a b, b + 1)

/-- The sequences of one compressed block in bytes `b` to `e - 1`; matches reach back to output index `h`. -/
def lz4Seqs (fuel : Nat) (a : Array Byte) (b e h blkEnd lim : Nat) (out : Array Byte) : Dec (Array Byte) :=
  match fuel with
  | 0 => corrupt Reason.lengthOverrun b
  | f + 1 => do
    require (decide (b < e)) Reason.lengthOverrun b
    let tok := inAt a b
    let (ll, p) ← if tok / 16 = 15 then lz4Len e a b (b + 1) e 15 else .ok (tok / 16, b + 1)
    require (decide (p + ll ≤ e)) Reason.lengthOverrun b
    require (decide (out.size + ll ≤ lim)) Reason.outMaxExceeded (p + (lim - out.size))
    require (decide (out.size + ll ≤ blkEnd)) Reason.lengthOverrun b
    let out := (List.range ll).foldl (fun o i => o.push (a.getD (p + i) 0)) out
    let q := p + ll
    if q = e then .ok out
    else do
      require (decide (q + 2 ≤ e)) Reason.lengthOverrun b
      let off := inLe a q 2
      require (off != 0) Reason.illegalCode q
      require (decide (off ≤ out.size - h) && decide (off ≤ 65535)) Reason.distanceBeyondHistory q
      let (ml, r) ← if tok % 16 = 15 then lz4Len e a b (q + 2) e 19 else .ok (tok % 16 + 4, q + 2)
      require (decide (out.size + ml ≤ lim)) Reason.outMaxExceeded b
      require (decide (out.size + ml ≤ blkEnd)) Reason.lengthOverrun b
      lz4Seqs f a r e h blkEnd lim (copyBack out off ml)

/-- What a frame descriptor sets. -/
structure Lz4Head where
  indep : Bool
  blockSum : Bool
  contentSum : Bool
  content : Option Nat
  blockMax : Nat
  start : Nat

/-- The data blocks of a frame from byte `b`, up to its EndMark. -/
def lz4Blocks (fuel : Nat) (a : Array Byte) (hd : Lz4Head) (lim b : Nat) (out : Array Byte) : Dec (Nat × Array Byte) :=
  match fuel with
  | 0 => corrupt Reason.truncated a.size
  | f + 1 => do
    require (decide (b + 4 ≤ a.size)) Reason.truncated a.size
    let w := inLe a b 4
    if w = 0 then .ok (b + 4, out)
    else do
      let n := w % 2 ^ 31
      require (decide (n ≤ hd.blockMax)) Reason.lengthOverrun b
      let d := b + 4
      require (decide (d + n + (if hd.blockSum then 4 else 0) ≤ a.size)) Reason.truncated a.size
      require (!hd.blockSum || inLe a (d + n) 4 == xxh32 (inBytes a d n)) Reason.checksumMismatch (d + n)
      let h := if hd.indep then out.size else max hd.start (out.size - 65536)
      let o ← (if 2 ^ 31 ≤ w then do
          require (decide (out.size + n ≤ lim)) Reason.outMaxExceeded (d + (lim - out.size))
          .ok ((List.range n).foldl (fun o i => o.push (a.getD (d + i) 0)) out)
        else lz4Seqs (n + 1) a d (d + n) h (out.size + hd.blockMax) lim out : Dec (Array Byte))
      lz4Blocks f a hd lim (d + n + (if hd.blockSum then 4 else 0)) o

/-- One LZ4 frame at byte `b` whose magic has been matched. -/
def lz4Frame (a : Array Byte) (lim b : Nat) (out : Array Byte) : Dec (Nat × Array Byte) := do
  require (decide (b + 7 ≤ a.size)) Reason.truncated a.size
  let flg := inAt a (b + 4)
  let bd := inAt a (b + 5)
  require (flg / 64 == 1 && flg / 2 % 2 == 0) Reason.headerBad (b + 4)
  require (flg % 2 == 0) Reason.dictionaryUnsupported (b + 4)
  require (bd / 128 == 0 && bd % 16 == 0 && decide (4 ≤ bd / 16)) Reason.headerBad (b + 5)
  let hasC := bitOf flg 3
  let hc := b + 6 + (if hasC then 8 else 0)
  require (decide (hc + 1 ≤ a.size)) Reason.truncated a.size
  let content := if hasC then some (inLe a (b + 6) 8) else none
  require (inAt a hc == xxh32 (inBytes a (b + 4) (hc - b - 4)) / 256 % 256) Reason.checksumMismatch hc
  require (match content with | some c => decide (out.size + c ≤ lim) | none => true) Reason.outMaxExceeded b
  let hd : Lz4Head := { indep := bitOf flg 5, blockSum := bitOf flg 4, contentSum := bitOf flg 2, content := content,
                        blockMax := 2 ^ (8 + 2 * (bd / 16)), start := out.size }
  let (e, o) ← lz4Blocks (a.size + 1) a hd lim (hc + 1) out
  require (match content with | some c => o.size - out.size == c | none => true) Reason.lengthOverrun (b + 6)
  if hd.contentSum then do
    require (decide (e + 4 ≤ a.size)) Reason.truncated a.size
    require (inLe a e 4 == xxh32 (outFrom o out.size)) Reason.checksumMismatch e
    .ok (e + 4, o)
  else .ok (e, o)

/-- Whether a skippable frame's magic stands at byte `b`. -/
def isSkippable (a : Array Byte) (b : Nat) : Bool :=
  decide (b + 4 ≤ a.size) && decide (0x184D2A50 ≤ inLe a b 4) && decide (inLe a b 4 ≤ 0x184D2A5F)

/-- The byte after the skippable frame at byte `b`. -/
def skipFrame (a : Array Byte) (b : Nat) : Dec Nat := do
  require (decide (b + 8 ≤ a.size)) Reason.truncated a.size
  let e := b + 8 + inLe a (b + 4) 4
  require (decide (e ≤ a.size)) Reason.truncated a.size
  .ok e

/-- Frames and skippable frames from byte `b` to the end of the input (R296), each frame decoded by `frame` and known by `magic`. -/
def framesFrom (fuel : Nat) (a : Array Byte) (magic : Nat) (frame : Nat → Array Byte → Dec (Nat × Array Byte)) (b : Nat) (out : Array Byte)
    : Dec (Array Byte) :=
  match fuel with
  | 0 => .ok out
  | f + 1 =>
    if a.size ≤ b then (if b = 0 then corrupt Reason.truncated a.size else .ok out)
    else if isSkippable a b then do
      let e ← skipFrame a b
      framesFrom f a magic frame e out
    else if inLe a b 4 = magic && decide (b + 4 ≤ a.size) then do
      let (e, o) ← frame b out
      framesFrom f a magic frame e o
    else corrupt Reason.headerBad b

/-- An LZ4 input: one or more frames (R296). -/
def lz4Decode (a : Array Byte) (lim : Nat) : Dec (Array Byte) :=
  framesFrom (a.size + 1) a 0x184D2204 (lz4Frame a lim) 0 #[]

end Sys2Proof.Machine
end

