-- ==== Sys2Proof/Machine/Zstd.lean ====
section
/-!
DEFINITION. Machine/Zstd.lean: Zstandard frames (RFC 8878) under the checks of Table 08-3 (R294, R296, R298).
-/
namespace Sys2Proof.Machine

/-- The greatest `k` with `2 ^ k ≤ n`. -/
def log2f (n : Nat) : Nat := Nat.log2 n

/-- A backward bit stream: its bits as a number, how many are left, and the byte it starts at. -/
structure BackBits where
  val : Nat
  left : Nat
  start : Nat

/-- The backward stream in bytes `b` to `b + n - 1`; the highest set bit of the last byte is the padding mark. -/
def backBits (a : Array Byte) (b n : Nat) : Dec BackBits := do
  require (decide (0 < n) && inAt a (b + n - 1) != 0) Reason.illegalCode (b + n - 1)
  let v := inLe a b n
  let k := log2f v
  .ok { val := v % 2 ^ k, left := k, start := b }

/-- The next `n` bits, with 0 bits below the start of the stream, without taking them. -/
def BackBits.peek (s : BackBits) (n : Nat) : Nat :=
  if n ≤ s.left then s.val / 2 ^ (s.left - n) % 2 ^ n else s.val % 2 ^ s.left * 2 ^ (n - s.left)

/-- The byte that holds the next bit. -/
def BackBits.byte (s : BackBits) : Nat := s.start + (s.left - 1) / 8

/-- The next `n` bits; LENGTH_OVERRUN where the stream holds fewer. -/
def BackBits.take (s : BackBits) (n : Nat) : Dec (Nat × BackBits) :=
  if s.left < n then corrupt Reason.lengthOverrun s.start
  else .ok (s.peek n, { s with left := s.left - n })

/-- One entry of an FSE decoding table. -/
structure FseCell where
  sym : Nat
  bits : Nat
  base : Nat

/-- An FSE decoding table: its accuracy log and its entries. -/
structure FseTable where
  log : Nat
  cells : List FseCell

/-- The places that the symbols with positive probability take, in spreading order (RFC 8878, 4.1.1). -/
def fseSpread (fuel size high step pos : Nat) (todo : List Nat) (acc : List (Nat × Nat)) : List (Nat × Nat) :=
  match fuel with
  | 0 => acc
  | f + 1 =>
    match todo with
    | [] => acc
    | s :: r =>
      if high ≤ pos then fseSpread f size high step ((pos + step) % size) (s :: r) acc
      else fseSpread f size high step ((pos + step) % size) r ((pos, s) :: acc)

/-- The decoding table of a distribution; a probability of -1 is held as `none` in the list. -/
def fseBuild (log : Nat) (probs : List (Option Nat)) : FseTable :=
  let size := 2 ^ log
  let lows := (List.range probs.length).filter (fun s => (probs.getD s (some 0)).isNone)
  let high := size - lows.length
  let todo := ((List.range probs.length).map (fun s => List.replicate ((probs.getD s (some 0)).getD 0) s)).flatten
  let placed := fseSpread (4 * size + 4) size high (size / 2 + size / 8 + 3) 0 todo []
  let symAt := fun (p : Nat) =>
    if high ≤ p then lows.getD (size - 1 - p) 0
    else match placed.find? (fun q => q.1 == p) with
      | some q => q.2
      | none => 0
  let cells := ((List.range size).foldl (fun (acc : List FseCell × List Nat) p =>
    let s := symAt p
    let x := acc.2.getD s 0
    let nb := log - log2f x
    ({ sym := s, bits := nb, base := x * 2 ^ nb - size } :: acc.1, acc.2.set s (x + 1)))
    ([], probs.map (fun o => match o with | none => 1 | some n => n))).1
  { log := log, cells := cells.reverse }

/-- The table with one symbol that takes no bits. -/
def fseRle (s : Nat) : FseTable := { log := 0, cells := [{ sym := s, bits := 0, base := 0 }] }

/-- Further zero probabilities announced two bits at a time. -/
def fseZeros (fuel : Nat) (a : Array Byte) (p : Nat) (acc : List (Option Nat)) : Dec (List (Option Nat) × Nat) :=
  match fuel with
  | 0 => .ok (acc, p)
  | f + 1 => do
    let (n, p) ← takeBits a p 2
    let acc := List.replicate n (some 0) ++ acc
    if n = 3 then fseZeros f a p acc else .ok (acc, p)

/-- The probabilities of a distribution from bit `p`; `rem` is what is left to give out, plus 1. -/
def fseProbs (fuel : Nat) (a : Array Byte) (maxSym start rem : Nat) (p : Nat) (acc : List (Option Nat)) : Dec (List (Option Nat) × Nat) :=
  match fuel with
  | 0 => corrupt Reason.illegalCode start
  | f + 1 =>
    if rem ≤ 1 then .ok (acc.reverse, p)
    else if maxSym < acc.length then corrupt Reason.illegalCode start
    else do
      let nb := log2f rem + 1
      let low := 2 ^ nb - 1 - rem
      let half := 2 ^ (nb - 1)
      let (v0, _) ← takeBits a p (nb - 1)
      let (v, p1) ← (if v0 < low then .ok (v0, p + nb - 1)
        else do
          let (w, _) ← takeBits a p nb
          .ok (if w < half then w else w - low, p + nb) : Dec (Nat × Nat))
      if v = 0 then fseProbs f a maxSym start (rem - 1) p1 (none :: acc)
      else do
        let pr := v - 1
        require (decide (pr < rem)) Reason.illegalCode start
        if pr = 0 then do
          let (acc2, p2) ← fseZeros 100 a p1 (some 0 :: acc)
          fseProbs f a maxSym start rem p2 acc2
        else fseProbs f a maxSym start (rem - pr) p1 (some pr :: acc)

/-- An FSE table description at byte `b`: the table, and the byte after the description. -/
def fseRead (a : Array Byte) (b maxLog maxSym : Nat) : Dec (FseTable × Nat) := do
  let (l, p) ← takeBits a (8 * b) 4
  let log := l + 5
  require (decide (log ≤ maxLog)) Reason.illegalCode b
  let (probs, e) ← fseProbs 600 a maxSym b (2 ^ log + 1) p []
  require (decide (probs.length ≤ maxSym + 1)) Reason.illegalCode b
  .ok (fseBuild log probs, (e + 7) / 8)

/-- The cell of a state. -/
def FseTable.cell (t : FseTable) (s : Nat) : FseCell := t.cells.getD s ⟨0, 0, 0⟩

/-- A Huffman decoding table: its depth, and for each prefix the symbol and its length. -/
structure ZHuff where
  depth : Nat
  cells : List (Nat × Nat)

/-- The Huffman table of a list of weights, the last weight deduced (RFC 8878, 4.2.1). -/
def zHuffBuild (b : Nat) (ws : List Nat) : Dec ZHuff := do
  let sum := sumNat (ws.map (fun w => if w = 0 then 0 else 2 ^ (w - 1)))
  require (sum != 0) Reason.illegalCode b
  let depth := log2f sum + 1
  require (decide (depth ≤ 11)) Reason.illegalCode b
  let left := 2 ^ depth - sum
  require (2 ^ log2f left == left) Reason.illegalCode b
  let ws := ws ++ [log2f left + 1]
  let cells := ((List.range depth).map (fun i =>
    ((List.range ws.length).filter (fun s => ws.getD s 0 == i + 1)).map (fun s =>
      List.replicate (2 ^ i) (s, depth - i)))).flatten.flatten
  .ok { depth := depth, cells := cells }

/-- The weights of an FSE-compressed tree description: two interleaved states read until the stream is spent. -/
def zWeights (fuel : Nat) (t : FseTable) (s1 s2 : Nat) (bs : BackBits) (acc : List Nat) : Dec (List Nat) :=
  match fuel with
  | 0 => corrupt Reason.illegalCode bs.start
  | f + 1 =>
    let c := t.cell s1
    if bs.left < c.bits then .ok ((t.cell s2).sym :: c.sym :: acc).reverse
    else do
      let (v, bs) ← bs.take c.bits
      zWeights f t s2 (c.base + v) bs (c.sym :: acc)

/-- A Huffman tree description at byte `b` before byte `e`: the table, and the byte after it. -/
def zHuffRead (a : Array Byte) (b e : Nat) : Dec (ZHuff × Nat) := do
  require (decide (b < e)) Reason.lengthOverrun b
  let h := inAt a b
  if 128 ≤ h then do
    let n := h - 127
    let len := (n + 1) / 2
    require (decide (b + 1 + len ≤ e)) Reason.lengthOverrun b
    let ws := (List.range n).map (fun i => let x := inAt a (b + 1 + i / 2); if i % 2 = 0 then x / 16 else x % 16)
    let t ← zHuffBuild b ws
    .ok (t, b + 1 + len)
  else do
    require (decide (b + 1 + h ≤ e)) Reason.lengthOverrun b
    let (ft, p) ← fseRead a (b + 1) 6 11
    require (decide (p < b + 1 + h)) Reason.illegalCode b
    let bs ← backBits a p (b + 1 + h - p)
    let (s1, bs) ← bs.take ft.log
    let (s2, bs) ← bs.take ft.log
    let ws ← zWeights 300 ft s1 s2 bs []
    require (decide (ws.length ≤ 255)) Reason.illegalCode b
    let t ← zHuffBuild b ws
    .ok (t, b + 1 + h)

/-- `n` literals of one Huffman stream, which they use up exactly. -/
def zHuffStream (n : Nat) (t : ZHuff) (bs : BackBits) (acc : List Byte) : Dec (List Byte) :=
  match n with
  | 0 => if bs.left = 0 then .ok acc.reverse else corrupt Reason.lengthOverrun bs.start
  | k + 1 =>
    let c := t.cells.getD (bs.peek t.depth) (0, 0)
    if bs.left < c.2 then corrupt Reason.lengthOverrun bs.start
    else zHuffStream k t { bs with left := bs.left - c.2 } (byteOf c.1 :: acc)

/-- The literals of `n` bytes in the stream or streams at bytes `b` to `e - 1`. -/
def zHuffLits (a : Array Byte) (t : ZHuff) (four : Bool) (b e n : Nat) : Dec (List Byte) :=
  if !four then do
    let bs ← backBits a b (e - b)
    zHuffStream n t bs []
  else do
    require (decide (b + 6 ≤ e)) Reason.lengthOverrun b
    let n1 := inLe a b 2
    let n2 := inLe a (b + 2) 2
    let n3 := inLe a (b + 4) 2
    let p := b + 6
    require (decide (p + n1 + n2 + n3 < e)) Reason.lengthOverrun b
    let q := (n + 3) / 4
    require (decide (3 * q ≤ n)) Reason.lengthOverrun b
    let b1 ← backBits a p n1
    let l1 ← zHuffStream q t b1 []
    let b2 ← backBits a (p + n1) n2
    let l2 ← zHuffStream q t b2 []
    let b3 ← backBits a (p + n1 + n2) n3
    let l3 ← zHuffStream q t b3 []
    let b4 ← backBits a (p + n1 + n2 + n3) (e - (p + n1 + n2 + n3))
    let l4 ← zHuffStream (n - 3 * q) t b4 []
    .ok (l1 ++ l2 ++ l3 ++ l4)

/-- What one frame's blocks hand on: the Huffman and FSE tables last used, and the three repeat offsets. -/
structure ZCtx where
  huff : Option ZHuff
  ll : Option FseTable
  ofs : Option FseTable
  ml : Option FseTable
  reps : Nat × Nat × Nat

/-- The literals section at byte `b` before byte `e`: literals, Huffman table, byte after it. -/
def zLiterals (a : Array Byte) (cx : ZCtx) (b e : Nat) : Dec (List Byte × Option ZHuff × Nat) := do
  require (decide (b < e)) Reason.lengthOverrun b
  let h := inAt a b
  let ty := h % 4
  let sf := h / 4 % 4
  if ty < 2 then do
    let hl := if sf % 2 = 0 then 1 else if sf = 1 then 2 else 3
    require (decide (b + hl ≤ e)) Reason.lengthOverrun b
    let n := if hl = 1 then h / 8 else inLe a b hl / 16
    require (decide (n ≤ 131072)) Reason.lengthOverrun b
    let len := if ty = 0 then n else 1
    require (decide (b + hl + len ≤ e)) Reason.lengthOverrun b
    .ok (if ty = 0 then inBytes a (b + hl) n else List.replicate n (a.getD (b + hl) 0), cx.huff, b + hl + len)
  else do
    let hl := if sf < 2 then 3 else if sf = 2 then 4 else 5
    let sb := if sf < 2 then 10 else if sf = 2 then 14 else 18
    require (decide (b + hl ≤ e)) Reason.lengthOverrun b
    let v := inLe a b hl / 16
    let n := v % 2 ^ sb
    let cn := v / 2 ^ sb % 2 ^ sb
    require (decide (n ≤ 131072) && decide (b + hl + cn ≤ e)) Reason.lengthOverrun b
    let se := b + hl + cn
    let (t, p) ← (if ty = 2 then zHuffRead a (b + hl) se
      else match cx.huff with
        | some t => .ok (t, b + hl)
        | none => corrupt Reason.illegalCode b : Dec (ZHuff × Nat))
    let lits ← zHuffLits a t (sf != 0) p se n
    .ok (lits, some t, se)

/-- The predefined distributions of literal lengths, match lengths and offsets (RFC 8878, 3.1.1.3.2.2). -/
def zProb (l : List Int) : List (Option Nat) := l.map (fun x => if x < 0 then none else some x.toNat)
def zDefLL : FseTable := fseBuild 6 (zProb
  [4, 3, 2, 2, 2, 2, 2, 2, 2, 2, 2, 2, 2, 1, 1, 1, 2, 2, 2, 2, 2, 2, 2, 2, 2, 3, 2, 1, 1, 1, 1, 1, -1, -1, -1, -1])
def zDefML : FseTable := fseBuild 6 (zProb
  [1, 4, 3, 2, 2, 2, 2, 2, 2, 1, 1, 1, 1, 1, 1, 1, 1, 1, 1, 1, 1, 1, 1, 1, 1, 1, 1, 1, 1, 1, 1, 1, 1, 1, 1, 1, 1, 1, 1, 1, 1, 1, 1, 1, 1, 1,
    -1, -1, -1, -1, -1, -1, -1])
def zDefOF : FseTable := fseBuild 5 (zProb
  [1, 1, 1, 1, 1, 1, 2, 2, 2, 1, 1, 1, 1, 1, 1, 1, 1, 1, 1, 1, 1, 1, 1, 1, -1, -1, -1, -1, -1])

/-- Base and extra bits of the literal length codes. -/
def zLLCode (c : Nat) : Nat × Nat :=
  if c < 16 then (c, 0)
  else [(16, 1), (18, 1), (20, 1), (22, 1), (24, 2), (28, 2), (32, 3), (40, 3), (48, 4), (64, 6), (128, 7), (256, 8), (512, 9),
        (1024, 10), (2048, 11), (4096, 12), (8192, 13), (16384, 14), (32768, 15), (65536, 16)].getD (c - 16) (0, 0)

/-- Base and extra bits of the match length codes. -/
def zMLCode (c : Nat) : Nat × Nat :=
  if c < 32 then (c + 3, 0)
  else [(35, 1), (37, 1), (39, 1), (41, 1), (43, 2), (47, 2), (51, 3), (59, 3), (67, 4), (83, 4), (99, 5), (131, 7), (259, 8), (515, 9),
        (1027, 10), (2051, 11), (4099, 12), (8195, 13), (16387, 14), (32771, 15), (65539, 16)].getD (c - 32) (0, 0)

/-- The table of one symbol type by its mode, at byte `b`. -/
def zTable (a : Array Byte) (mode b e maxLog maxSym : Nat) (dflt : FseTable) (prev : Option FseTable) : Dec (FseTable × Nat) :=
  if mode = 0 then .ok (dflt, b)
  else if mode = 1 then do
    require (decide (b < e)) Reason.lengthOverrun b
    require (decide (inAt a b ≤ maxSym)) Reason.illegalCode b
    .ok (fseRle (inAt a b), b + 1)
  else if mode = 2 then do
    let (t, p) ← fseRead a b maxLog maxSym
    require (decide (p ≤ e)) Reason.lengthOverrun b
    .ok (t, p)
  else match prev with
    | some t => .ok (t, b)
    | none => corrupt Reason.illegalCode b

/-- What a run of sequences carries: states, bits, output, literals left, repeat offsets. -/
structure ZSeq where
  sl : Nat
  so : Nat
  sm : Nat
  bits : BackBits
  out : Array Byte
  lits : List Byte
  reps : Nat × Nat × Nat

/-- The offset that an offset value names, and the repeat offsets after it. -/
def zOffset (reps : Nat × Nat × Nat) (v ll : Nat) : Nat × (Nat × Nat × Nat) :=
  let (r1, r2, r3) := reps
  if 3 < v then (v - 3, (v - 3, r1, r2))
  else
    let i := v + (if ll = 0 then 1 else 0)
    if i = 1 then (r1, reps)
    else if i = 2 then (r2, (r2, r1, r3))
    else if i = 3 then (r3, (r3, r1, r2))
    else (r1 - 1, (r1 - 1, r1, r2))

/-- The sequences of a block; `fs` is where the frame's output begins, `win` its window, `blkEnd` the block's largest output. -/
def zSeqs (n : Nat) (tl to' tm : FseTable) (fs win blkEnd lim : Nat) (q : ZSeq) : Dec ZSeq :=
  match n with
  | 0 => if q.bits.left = 0 then .ok q else corrupt Reason.lengthOverrun q.bits.start
  | k + 1 => do
    let cl := tl.cell q.sl
    let co := to'.cell q.so
    let cm := tm.cell q.sm
    let at' := q.bits.byte
    let (ob, bits) ← q.bits.take co.sym
    let (mb, bits) ← bits.take (zMLCode cm.sym).2
    let (lb, bits) ← bits.take (zLLCode cl.sym).2
    let ml := (zMLCode cm.sym).1 + mb
    let ll := (zLLCode cl.sym).1 + lb
    let (off, reps) := zOffset q.reps (2 ^ co.sym + ob) ll
    let (nl, bits) ← if k = 0 then .ok (0, bits) else bits.take cl.bits
    let (nm, bits) ← if k = 0 then .ok (0, bits) else bits.take cm.bits
    let (no, bits) ← if k = 0 then .ok (0, bits) else bits.take co.bits
    require (decide (ll ≤ q.lits.length)) Reason.lengthOverrun at'
    let out := (q.lits.take ll).foldl (fun o b => o.push b) q.out
    require (off != 0) Reason.illegalCode at'
    require (decide (off ≤ out.size - fs) && decide (off ≤ win)) Reason.distanceBeyondHistory at'
    require (decide (out.size + ml ≤ lim)) Reason.outMaxExceeded at'
    require (decide (out.size + ml ≤ blkEnd)) Reason.lengthOverrun at'
    zSeqs k tl to' tm fs win blkEnd lim
      { sl := cl.base + nl, so := co.base + no, sm := cm.base + nm, bits := bits, out := copyBack out off ml, lits := q.lits.drop ll, reps := reps }

/-- One compressed block in bytes `b` to `e - 1`. -/
def zBlock (a : Array Byte) (cx : ZCtx) (b e fs win blkMax lim : Nat) (out : Array Byte) : Dec (ZCtx × Array Byte) := do
  let (lits, huff, p) ← zLiterals a cx b e
  require (decide (p < e)) Reason.lengthOverrun b
  let b0 := inAt a p
  let hl := if b0 < 128 then 1 else if b0 < 255 then 2 else 3
  require (decide (p + hl ≤ e)) Reason.lengthOverrun p
  let n := if b0 < 128 then b0 else if b0 < 255 then (b0 - 128) * 256 + inAt a (p + 1) else inLe a (p + 1) 2 + 0x7F00
  let blkEnd := out.size + blkMax
  if n = 0 then do
    require (p + hl == e) Reason.lengthOverrun p
    require (decide (out.size + lits.length ≤ lim)) Reason.outMaxExceeded b
    require (decide (lits.length ≤ blkMax)) Reason.lengthOverrun b
    .ok ({ cx with huff := huff }, lits.foldl (fun o b => o.push b) out)
  else do
    require (decide (p + hl < e)) Reason.lengthOverrun p
    let m := inAt a (p + hl)
    require (m % 4 == 0) Reason.illegalCode (p + hl)
    let (tl, p1) ← zTable a (m / 64) (p + hl + 1) e 9 35 zDefLL cx.ll
    let (to', p2) ← zTable a (m / 16 % 4) p1 e 8 31 zDefOF cx.ofs
    let (tm, p3) ← zTable a (m / 4 % 4) p2 e 9 52 zDefML cx.ml
    require (decide (p3 < e)) Reason.lengthOverrun p
    let bs ← backBits a p3 (e - p3)
    let (sl, bs) ← bs.take tl.log
    let (so, bs) ← bs.take to'.log
    let (sm, bs) ← bs.take tm.log
    let q ← zSeqs n tl to' tm fs win blkEnd lim { sl := sl, so := so, sm := sm, bits := bs, out := out, lits := lits, reps := cx.reps }
    require (decide (q.out.size + q.lits.length ≤ lim)) Reason.outMaxExceeded b
    require (decide (q.out.size + q.lits.length ≤ blkEnd)) Reason.lengthOverrun b
    .ok ({ huff := huff, ll := some tl, ofs := some to', ml := some tm, reps := q.reps }, q.lits.foldl (fun o b => o.push b) q.out)

/-- The blocks of a frame from byte `b`. -/
def zBlocks (fuel : Nat) (a : Array Byte) (fs win lim : Nat) (cx : ZCtx) (b : Nat) (out : Array Byte) : Dec (Nat × Array Byte) :=
  match fuel with
  | 0 => corrupt Reason.truncated a.size
  | f + 1 => do
    require (decide (b + 3 ≤ a.size)) Reason.truncated a.size
    let h := inLe a b 3
    let ty := h / 2 % 4
    let n := h / 8
    let blkMax := min win 131072
    require (ty != 3) Reason.illegalCode b
    require (decide (n ≤ blkMax)) Reason.lengthOverrun b
    let d := b + 3
    let len := if ty = 1 then 1 else n
    require (decide (d + len ≤ a.size)) Reason.truncated a.size
    let (cx, o) ← (
      if ty = 2 then zBlock a cx d (d + n) fs win blkMax lim out
      else do
        require (decide (out.size + n ≤ lim)) Reason.outMaxExceeded (d + (if ty = 0 then lim - out.size else 0))
        .ok (cx, (List.range n).foldl (fun o i => o.push (a.getD (if ty = 0 then d + i else d) 0)) out) : Dec (ZCtx × Array Byte))
    if h % 2 = 1 then .ok (d + len, o) else zBlocks f a fs win lim cx (d + len) o

/-- One Zstandard frame at byte `b` whose magic has been matched. -/
def zstdFrame (a : Array Byte) (lim b : Nat) (out : Array Byte) : Dec (Nat × Array Byte) := do
  require (decide (b + 5 ≤ a.size)) Reason.truncated a.size
  let fhd := inAt a (b + 4)
  require (fhd / 8 % 2 == 0) Reason.headerBad (b + 4)
  let single := bitOf fhd 5
  let p := b + 5
  let p1 := p + (if single then 0 else 1)
  let dl := [0, 1, 2, 4].getD (fhd % 4) 0
  let cf := fhd / 64
  let cl := if cf = 0 then (if single then 1 else 0) else 2 ^ cf
  require (decide (p1 + dl + cl ≤ a.size)) Reason.truncated a.size
  let wd := inAt a p
  let wbase := 2 ^ (10 + wd / 8)
  let content := if cl = 0 then none else some (inLe a (p1 + dl) cl + (if cf = 1 then 256 else 0))
  let win := if single then content.getD 0 else wbase + wbase / 8 * (wd % 8)
  require (decide (win ≤ 8388608)) Reason.windowUnsupported (if single then p1 + dl else p)
  require (inLe a p1 dl == 0) Reason.dictionaryUnsupported p1
  require (match content with | some c => decide (out.size + c ≤ lim) | none => true) Reason.outMaxExceeded b
  let (e, o) ← zBlocks (a.size + 1) a out.size win lim { huff := none, ll := none, ofs := none, ml := none, reps := (1, 4, 8) }
    (p1 + dl + cl) out
  require (match content with | some c => o.size - out.size == c | none => true) Reason.lengthOverrun (p1 + dl)
  if bitOf fhd 2 then do
    require (decide (e + 4 ≤ a.size)) Reason.truncated a.size
    require (inLe a e 4 == xxh64 (outFrom o out.size) % 2 ^ 32) Reason.checksumMismatch e
    .ok (e + 4, o)
  else .ok (e, o)

/-- A Zstandard input: one or more frames (R296). -/
def zstdDecode (a : Array Byte) (lim : Nat) : Dec (Array Byte) := framesFrom (a.size + 1) a 0xFD2FB528 (zstdFrame a lim) 0 #[]

end Sys2Proof.Machine
end

