-- ==== Sys2Proof/Machine/Decompress.lean ====
section
/-!
DEFINITION. Machine/Decompress.lean: the compressed block stream (R305 to R307) and the choice of codec of a DECOMPRESS op (R294 to R296).
-/
namespace Sys2Proof.Machine

/-- A frame's failure as the whole input reports it: offsets count from the input's start, and TRUNCATED from its length (R313). -/
def shiftErr {α : Type} (by' size : Nat) (d : Dec α) : Dec α :=
  match d with
  | .ok x => .ok x
  | .error e => .error { e with offset := if e.reason = Reason.truncated then size else e.offset + by' }

/-- The blocks of a BCB stream from byte `b` (R306, R307). -/
def bcbBlocks (fuel : Nat) (a : Array Byte) (blockMax lim b : Nat) (out : Array Byte) : Dec (Array Byte) :=
  match fuel with
  | 0 => corrupt Reason.truncated a.size
  | f + 1 => do
    require (decide (b + 16 ≤ a.size)) Reason.truncated a.size
    let fl := inAt a b
    require (fl % 32 == 0) Reason.headerBad b
    require (inLe a (b + 1) 3 == 0) Reason.headerBad (b + 1)
    let last := bitOf fl 7
    let raw := bitOf fl 6
    let rawLen := inLe a (b + 4) 4
    let stored := inLe a (b + 8) 4
    require (decide (rawLen ≤ blockMax) && (rawLen != 0 || (last && raw))) Reason.lengthOverrun (b + 4)
    require (!raw || stored == rawLen) Reason.lengthOverrun (b + 8)
    require (decide (b + 16 + stored ≤ a.size)) Reason.truncated a.size
    require (decide (out.size + rawLen ≤ lim)) Reason.outMaxExceeded b
    let pay := inBytes a (b + 16) stored
    let data ← (if raw then .ok pay
      else do
        let sub := pay.toArray
        require (inLe sub 0 4 == 0xFD2FB528) Reason.headerBad (b + 16)
        let (e, o) ← shiftErr (b + 16) a.size (zstdFrame sub lim 0 #[])
        require (e == stored) Reason.lengthOverrun (b + 8)
        require (o.size == rawLen) Reason.lengthOverrun (b + 4)
        .ok o.toList : Dec (List Byte))
    require (inLe a (b + 12) 4 == (if rawLen = 0 then 0 else crc32c data)) Reason.checksumMismatch (b + 12)
    let out := data.foldl (fun o x => o.push x) out
    if last then .ok out else bcbBlocks f a blockMax lim (b + 16 + stored) out

/-- A compressed block stream (R305, R307). -/
def bcbDecode (a : Array Byte) (lim : Nat) : Dec (Array Byte) := do
  require (decide (16 ≤ a.size)) Reason.truncated a.size
  require (inAt a 5 == 1) Reason.headerBad 4
  require (decide (12 ≤ inAt a 6) && decide (inAt a 6 ≤ 20)) Reason.headerBad 6
  require (inLe a 7 5 == 0) Reason.headerBad 7
  require (inLe a 12 4 == crc32c (inBytes a 0 12)) Reason.checksumMismatch 12
  bcbBlocks (a.size + 1) a (2 ^ inAt a 6) lim 16 #[]

/-- The codec that CODEC 0 detects at byte `b` (R295); 0 stands for the compressed block stream. -/
def detectCodec (fuel : Nat) (a : Array Byte) (b : Nat) : Dec Nat :=
  match fuel with
  | 0 => corrupt Reason.codecUnknown b
  | f + 1 =>
    let m := if b + 4 ≤ a.size then inLe a b 4 else 0
    if m = 0x31424342 then .ok 0
    else if decide (b + 2 ≤ a.size) && inAt a b = 0x1F && inAt a (b + 1) = 0x8B then .ok 3
    else if m = 0xFD2FB528 then .ok 4
    else if m = 0x184D2204 then .ok 5
    else if isSkippable a b then do
      let e ← skipFrame a b
      detectCodec f a e
    else
      let cmf := inAt a b
      if decide (b + 2 ≤ a.size) && cmf % 16 = 8 && decide (cmf / 16 ≤ 7) && (256 * cmf + inAt a (b + 1)) % 31 = 0 then .ok 2
      else corrupt Reason.codecUnknown b

/-- The byte after the skippable frames that open an input. -/
def skipLead (fuel : Nat) (a : Array Byte) (b : Nat) : Nat :=
  match fuel with
  | 0 => b
  | f + 1 => if isSkippable a b then skipLead f a (b + 8 + inLe a (b + 4) 4) else b

/-- The codec's decoder on an input. -/
def decodeWith (codec : Nat) (a : Array Byte) (lim : Nat) : Dec (Array Byte) :=
  if codec = 0 then bcbDecode a lim
  else if codec = 1 then deflateDecode a lim
  else if codec = 2 then zlibDecode a lim
  else if codec = 3 then gzipDecode a lim
  else if codec = 4 then zstdDecode a lim
  else lz4Decode a lim

/-- DECOMPRESS (R294 to R301): p0 is CODEC. -/
def decompress (codec : Nat) (bs : List Byte) (outMax : Nat) : Dec Value := do
  let a := bs.toArray
  let c ← if codec = 0 then detectCodec (a.size + 1) a 0 else .ok codec
  let b := if codec = 0 && c < 4 then skipLead (a.size + 1) a 0 else 0
  let o ← shiftErr b a.size (decodeWith c (if b = 0 then a else (bs.drop b).toArray) outMax)
  .ok (Value.ofBytes o.toList)

end Sys2Proof.Machine
end

