-- ==== Sys2Proof/Machine/Codes.lean ====
section
/-!
DEFINITION. Machine/Codes.lean: the ids of counters and levels (R171), the event codes (R155), and the scopes of Table 04-24.
-/
namespace Sys2Proof.Machine

/-- The scope of a parameter or counter: which INDEX form of Table 04-24 names its object. -/
inductive Scope where
  | chip | region | block | tenant | reservoir | stream | window
  | tenantOrReservoir
  deriving DecidableEq, Repr

namespace Counter

/-- HELD, tenant scope (Table 01-5). -/
def held : Nat := 0x0100
/-- CARRY, tenant scope (Table 01-5). -/
def carry : Nat := 0x0101
/-- SLIP, tenant and reservoir scope (Table 01-5). -/
def slip : Nat := 0x0102
/-- SUBST, tenant scope (Table 01-5). -/
def subst : Nat := 0x0103
/-- DEFER, tenant scope (Table 01-5). -/
def defer : Nat := 0x0104
/-- REINSERT, tenant scope (Table 01-5). -/
def reinsert : Nat := 0x0105
/-- SKIP_CORRUPT, tenant scope (Table 01-5). -/
def skipCorrupt : Nat := 0x0106
/-- PLAN_LATE, chip scope (Table 01-5). -/
def planLate : Nat := 0x0107
/-- CELL_CE, block scope (Table 02-9). -/
def cellCe : Nat := 0x0200
/-- CELL_RETRY, block scope (Table 02-9). -/
def cellRetry : Nat := 0x0201
/-- CELL_QUARANTINE, block scope (Table 02-9). -/
def cellQuarantine : Nat := 0x0202
/-- REISSUE, tenant scope (Table 02-9). -/
def reissue : Nat := 0x0203
/-- LIMP_DEMOTE, region scope (Table 02-9). -/
def limpDemote : Nat := 0x0204
/-- BLOCK_FENCE, region scope (Table 02-9). -/
def blockFence : Nat := 0x0205
/-- HBM_CE, region scope (Table 02-9). -/
def hbmCe : Nat := 0x0206
/-- HBM_UE_COUNT, region scope (Table 02-9). -/
def hbmUeCount : Nat := 0x0207
/-- REGION_RESET, region scope (Table 02-9). -/
def regionReset : Nat := 0x0208
/-- REGION_FENCE, chip scope (Table 02-9). -/
def regionFence : Nat := 0x0209
/-- DEDUP_LOST, tenant scope (Table 02-9). -/
def dedupLost : Nat := 0x020A
/-- POOL_SPILL, region scope (Table 03-12). -/
def poolSpill : Nat := 0x0300
/-- POOL_WAIT, tenant scope (Table 03-12). -/
def poolWait : Nat := 0x0301
/-- REFCOUNT_SATURATED, chip scope (Table 03-12). -/
def refcountSaturated : Nat := 0x0302
/-- DOUBLE_FREE_COUNT, chip scope (Table 03-12). -/
def doubleFreeCount : Nat := 0x0303
/-- CTX_REHOME, chip scope (Table 03-12). -/
def ctxRehome : Nat := 0x0304
/-- EVENTS_DROPPED, window scope (Table 04-25). -/
def eventsDropped : Nat := 0x0400
/-- COMMANDS_REFUSED, window scope (Table 04-25). -/
def commandsRefused : Nat := 0x0401
/-- MEDIA_PAGE_READ, chip scope (Table 06-14). -/
def mediaPageRead : Nat := 0x0600
/-- SOFT_READ, chip scope (Table 06-14). -/
def softRead : Nat := 0x0601
/-- PARITY_REBUILD, chip scope (Table 06-14). -/
def parityRebuild : Nat := 0x0602
/-- PAGE_UNREADABLE, chip scope (Table 06-14). -/
def pageUnreadable : Nat := 0x0603
/-- PEER_SERVED, tenant scope (Table 06-14). -/
def peerServed : Nat := 0x0604
/-- HEDGE_ISSUED, chip scope (Table 06-14). -/
def hedgeIssued : Nat := 0x0605
/-- HEDGE_WON, chip scope (Table 06-14). -/
def hedgeWon : Nat := 0x0606
/-- BENCH_WEAK, chip scope (Table 06-14). -/
def benchWeak : Nat := 0x0607
/-- PROGRAM_FAIL, chip scope (Table 06-14). -/
def programFail : Nat := 0x0608
/-- BLOCK_RETIRE, chip scope (Table 06-14). -/
def blockRetire : Nat := 0x0609
/-- DIE_DEMOTE, chip scope (Table 06-14). -/
def dieDemote : Nat := 0x060A
/-- SLC_BYPASS, chip scope (Table 06-14). -/
def slcBypass : Nat := 0x060B
/-- WRITE_STALL, chip scope (Table 06-14). -/
def writeStall : Nat := 0x060C
/-- FOLD_PAGE, chip scope (Table 06-14). -/
def foldPage : Nat := 0x060D
/-- GC_PAGE, chip scope (Table 06-14). -/
def gcPage : Nat := 0x060E
/-- CORRUPT_CONTAINER, tenant scope (Table 07-10). -/
def corruptContainer : Nat := 0x0700
/-- CORRUPT_IMAGE, tenant scope (Table 07-10). -/
def corruptImage : Nat := 0x0701
/-- CORRUPT_COMPRESSED, tenant scope (Table 07-10). -/
def corruptCompressed : Nat := 0x0702
/-- CORRUPT_AUDIO, tenant scope (Table 07-10). -/
def corruptAudio : Nat := 0x0703
/-- CORRUPT_TEXT, tenant scope (Table 07-10). -/
def corruptText : Nat := 0x0704
/-- CORRUPT_OTHER, tenant scope (Table 07-10). -/
def corruptOther : Nat := 0x0705
/-- CORRUPT_EVENTS_SUPPRESSED, tenant scope (Table 07-10). -/
def corruptEventsSuppressed : Nat := 0x0706
/-- CMP_BLOCK, chip scope (Table 08-8). -/
def cmpBlock : Nat := 0x0800
/-- RAW_STORE, chip scope (Table 08-8). -/
def rawStore : Nat := 0x0801
/-- CMP_FLUSHED, chip scope (Table 08-8). -/
def cmpFlushed : Nat := 0x0802
/-- CHAIN_LINK, tenant scope (Table 08-8). -/
def chainLink : Nat := 0x0803
/-- COPY_DOWN, tenant scope (Table 08-8). -/
def copyDown : Nat := 0x0804
/-- SWAGE_STAGED, chip scope (Table 09-6). -/
def swageStaged : Nat := 0x0900
/-- IN_PLACE_DECLINED, tenant scope (Table 09-6). -/
def inPlaceDeclined : Nat := 0x0901
/-- ANVIL_SPAN_DROP, tenant scope (Table 10-8). -/
def anvilSpanDrop : Nat := 0x1000
/-- INT8_SATURATE, tenant scope (Table 10-8). -/
def int8Saturate : Nat := 0x1001
/-- ANVIL_NAN_OUT, tenant scope (Table 10-8). -/
def anvilNanOut : Nat := 0x1002
/-- ANVIL_INPUT_MISMATCH, tenant scope (Table 11-8). -/
def anvilInputMismatch : Nat := 0x1100
/-- RING_BOUND_HEAT, chip scope (Table 11-8). -/
def ringBoundHeat : Nat := 0x1101
/-- DROOP_STRETCH, block scope (Table 11-8). -/
def droopStretch : Nat := 0x1102
/-- RULE_DROP, tenant scope (Table 12-8). -/
def ruleDrop : Nat := 0x1200
/-- GATE_DROP, tenant scope (Table 12-8). -/
def gateDrop : Nat := 0x1201
/-- DUP_EXACT, tenant scope (Table 12-8). -/
def dupExact : Nat := 0x1202
/-- DUP_NEAR, tenant scope (Table 12-8). -/
def dupNear : Nat := 0x1203
/-- SCREENED_OUT, tenant scope (Table 12-8). -/
def screenedOut : Nat := 0x1204
/-- DEDUP_FULL, tenant scope (Table 12-8). -/
def dedupFull : Nat := 0x1205
/-- NEAR_CANDIDATE_CAP, tenant scope (Table 12-8). -/
def nearCandidateCap : Nat := 0x1206
/-- BAND_SKIP, tenant scope (Table 12-8). -/
def bandSkip : Nat := 0x1207
/-- WEDGE_TOKENS, tenant scope (Table 13-8). -/
def wedgeTokens : Nat := 0x1300
/-- UTF8_INVALID, tenant scope (Table 13-8). -/
def utf8Invalid : Nat := 0x1301
/-- NORM_CGJ, tenant scope (Table 13-8). -/
def normCgj : Nat := 0x1302
/-- STOP_HIT, tenant scope (Table 13-8). -/
def stopHit : Nat := 0x1303
/-- AUDIT_MISMATCH, tenant scope (Table 13-8). -/
def auditMismatch : Nat := 0x1304
/-- INCOMPLETE_TAIL, tenant scope (Table 13-8). -/
def incompleteTail : Nat := 0x1305
/-- BILLET_CLOSED, tenant scope (Table 14-8). -/
def billetClosed : Nat := 0x1400
/-- BILLET_PARTIAL, tenant scope (Table 14-8). -/
def billetPartial : Nat := 0x1401
/-- BILLET_AGED, tenant scope (Table 14-8). -/
def billetAged : Nat := 0x1402
/-- PACK_TRUNCATED, tenant scope (Table 14-8). -/
def packTruncated : Nat := 0x1403
/-- BILLET_DELIVERED, reservoir scope (Table 15-12). -/
def billetDelivered : Nat := 0x1500
/-- BILLET_LOST, reservoir scope (Table 15-12). -/
def billetLost : Nat := 0x1501
/-- BILLET_DISCARDED, reservoir scope (Table 15-12). -/
def billetDiscarded : Nat := 0x1502
/-- RESERVOIR_FULL_WAIT, reservoir scope (Table 15-12). -/
def reservoirFullWait : Nat := 0x1503
/-- DRY_TICK, reservoir scope (Table 15-12). -/
def dryTick : Nat := 0x1504
/-- HEAD_INVALID, reservoir scope (Table 15-12). -/
def headInvalid : Nat := 0x1505
/-- WRITE_CREDIT_WAIT, chip scope (Table 15-12). -/
def writeCreditWait : Nat := 0x1506
/-- RATE_DECREASE, chip scope (Table 15-12). -/
def rateDecrease : Nat := 0x1507
/-- PEER_REQ_FAILED, chip scope (Table 15-12). -/
def peerReqFailed : Nat := 0x1508
/-- PEER_RELEASE_TIMEOUT, chip scope (Table 15-12). -/
def peerReleaseTimeout : Nat := 0x1509
/-- INGEST_ACCEPTED, tenant scope (Table 15-12). -/
def ingestAccepted : Nat := 0x150A
/-- INGEST_STALE, tenant scope (Table 15-12). -/
def ingestStale : Nat := 0x150B
/-- INGEST_STALE_AT_DRAW, tenant scope (Table 15-12). -/
def ingestStaleAtDraw : Nat := 0x150C
/-- INGEST_OVERRUN, tenant scope (Table 15-12). -/
def ingestOverrun : Nat := 0x150D
/-- INGEST_UNTIMED, tenant scope (Table 15-12). -/
def ingestUntimed : Nat := 0x150E
/-- DROP_DEPTH, chip scope (Table 15-12). -/
def dropDepth : Nat := 0x150F
/-- DROP_LENGTH, chip scope (Table 15-12). -/
def dropLength : Nat := 0x1510
/-- DROP_UNSUPPORTED, chip scope (Table 15-12). -/
def dropUnsupported : Nat := 0x1511
/-- DROP_CHECKSUM, chip scope (Table 15-12). -/
def dropChecksum : Nat := 0x1512
/-- DROP_FRAGMENT, chip scope (Table 15-12). -/
def dropFragment : Nat := 0x1513
/-- DROP_NO_MATCH, chip scope (Table 15-12). -/
def dropNoMatch : Nat := 0x1514
/-- ADMIT_MEDIA_NS, tenant scope (Table 16-9). -/
def admitMediaNs : Nat := 0x1600
/-- ADMIT_LANE_NS, tenant scope (Table 16-9). -/
def admitLaneNs : Nat := 0x1601
/-- ADMIT_CELL_NS, tenant scope (Table 16-9). -/
def admitCellNs : Nat := 0x1602
/-- ADMIT_HAMMER_NS, tenant scope (Table 16-9). -/
def admitHammerNs : Nat := 0x1603
/-- EGRESS_COMMITTED_BYTES, tenant scope (Table 16-9). -/
def egressCommittedBytes : Nat := 0x1604
/-- EGRESS_EXCESS_BYTES, tenant scope (Table 16-9). -/
def egressExcessBytes : Nat := 0x1605
/-- EGRESS_PEAK_HELD, tenant scope (Table 16-9). -/
def egressPeakHeld : Nat := 0x1606
/-- GATE_HELD, tenant scope (Table 16-9). -/
def gateHeld : Nat := 0x1607
/-- POLICE_YELLOW, tenant scope (Table 16-9). -/
def policeYellow : Nat := 0x1608
/-- POLICE_YELLOW_DROP, tenant scope (Table 16-9). -/
def policeYellowDrop : Nat := 0x1609
/-- POLICE_RED, tenant scope (Table 16-9). -/
def policeRed : Nat := 0x160A
/-- DRAIN_RUN, chip scope (Table 16-9). -/
def drainRun : Nat := 0x160B
/-- SYNC_LOSS, chip scope (R602). -/
def syncLoss : Nat := 0x1700
/-- RESYNC_RUN, chip scope (R602). -/
def resyncRun : Nat := 0x1701
/-- TICK_FRAME_BAD, chip scope (R602). -/
def tickFrameBad : Nat := 0x1702
/-- ENERGY_UJ, tenant scope (Table 18-10). -/
def energyUj : Nat := 0x1800
/-- ENERGY_UNATTRIBUTED_UJ, chip scope (Table 18-10). -/
def energyUnattributedUj : Nat := 0x1801
/-- LADDER_DOWN, chip scope (Table 18-10). -/
def ladderDown : Nat := 0x1802
/-- LADDER_UP, chip scope (Table 18-10). -/
def ladderUp : Nat := 0x1803
/-- THROTTLE_TICKS, chip scope (Table 18-10). -/
def throttleTicks : Nat := 0x1804
/-- DROOP_LIMIT, chip scope (Table 18-10). -/
def droopLimit : Nat := 0x1805
/-- PMBUS_FAIL, chip scope (Table 18-10). -/
def pmbusFail : Nat := 0x1806
/-- HOLDUP_TEST_RUN, chip scope (Table 18-10). -/
def holdupTestRun : Nat := 0x1807
/-- HOLDUP_TEST_ABORT, chip scope (Table 18-10). -/
def holdupTestAbort : Nat := 0x1808
/-- NVME_READ_BYTES, chip scope (Table 19-12). -/
def nvmeReadBytes : Nat := 0x1900
/-- NVME_WRITE_BYTES, chip scope (Table 19-12). -/
def nvmeWriteBytes : Nat := 0x1901
/-- APST_TRANSITION, chip scope (Table 19-12). -/
def apstTransition : Nat := 0x1902
/-- SELFTEST_SUSPEND, chip scope (Table 19-12). -/
def selftestSuspend : Nat := 0x1903
/-- MCTP_DROP, chip scope (Table 19-12). -/
def mctpDrop : Nat := 0x1904

end Counter

/-- The scope of each counter of the counter tables (R171, R602), none for an id that is no counter. -/
def counterScope (id : Nat) : Option Scope :=
  if (0x0100 ≤ id && id ≤ 0x0101) || (0x0103 ≤ id && id ≤ 0x0106) || id == 0x0203 || id == 0x020A || id == 0x0301 || id == 0x0604 || (0x0700 ≤ id && id ≤ 0x0706) || (0x0803 ≤ id && id ≤ 0x0804) || id == 0x0901 || (0x1000 ≤ id && id ≤ 0x1002) || id == 0x1100 || (0x1200 ≤ id && id ≤ 0x1207) || (0x1300 ≤ id && id ≤ 0x1305) || (0x1400 ≤ id && id ≤ 0x1403) || (0x150A ≤ id && id ≤ 0x150E) || (0x1600 ≤ id && id ≤ 0x160A) || id == 0x1800 then some .tenant
  else if id == 0x0102 then some .tenantOrReservoir
  else if id == 0x0107 || id == 0x0209 || (0x0302 ≤ id && id ≤ 0x0304) || (0x0600 ≤ id && id ≤ 0x0603) || (0x0605 ≤ id && id ≤ 0x060E) || (0x0800 ≤ id && id ≤ 0x0802) || id == 0x0900 || id == 0x1101 || (0x1506 ≤ id && id ≤ 0x1509) || (0x150F ≤ id && id ≤ 0x1514) || id == 0x160B || (0x1700 ≤ id && id ≤ 0x1702) || (0x1801 ≤ id && id ≤ 0x1808) || (0x1900 ≤ id && id ≤ 0x1904) then some .chip
  else if (0x0200 ≤ id && id ≤ 0x0202) || id == 0x1102 then some .block
  else if (0x0204 ≤ id && id ≤ 0x0208) || id == 0x0300 then some .region
  else if (0x0400 ≤ id && id ≤ 0x0401) then some .window
  else if (0x1500 ≤ id && id ≤ 0x1505) then some .reservoir
  else none

namespace Level

/-- DEFERRED_NOW, tenant scope (R171). -/
def deferredNow : Nat := 0x0180
/-- SLC_LIMIT, chip scope (R257). -/
def slcLimit : Nat := 0x0680
/-- SLC_HELD, chip scope (R257). -/
def slcHeld : Nat := 0x0681
/-- VALID_BYTES, chip scope (R257). -/
def validBytes : Nat := 0x0682
/-- FREE_BYTES, chip scope (R257). -/
def freeBytes : Nat := 0x0683
/-- DIRTY_PERMIT, chip scope (R257). -/
def dirtyPermit : Nat := 0x0684
/-- DIRTY_NOW, chip scope (R257). -/
def dirtyNow : Nat := 0x0685
/-- DIES_IN_SERVICE, chip scope (R257). -/
def diesInService : Nat := 0x0686
/-- DIES_DEMOTED, chip scope (R257). -/
def diesDemoted : Nat := 0x0687
/-- FILL_BYTES, reservoir scope (R536). -/
def fillBytes : Nat := 0x1580
/-- DRAIN_PER_TICK, reservoir scope (R536). -/
def drainPerTick : Nat := 0x1581
/-- QP_RATE_MBPS, reservoir scope (R536). -/
def qpRateMbps : Nat := 0x1582
/-- DEPTH_MEDIA, tenant scope (R569). -/
def depthMedia : Nat := 0x1680
/-- DEPTH_LANE, tenant scope (R569). -/
def depthLane : Nat := 0x1681
/-- DEPTH_CELL, tenant scope (R569). -/
def depthCell : Nat := 0x1682
/-- DEPTH_HAMMER, tenant scope (R569). -/
def depthHammer : Nat := 0x1683
/-- DEPTH_EGRESS, tenant scope (R569). -/
def depthEgress : Nat := 0x1684
/-- DELAY_MEDIA, tenant scope (R569). -/
def delayMedia : Nat := 0x1685
/-- DELAY_LANE, tenant scope (R569). -/
def delayLane : Nat := 0x1686
/-- DELAY_CELL, tenant scope (R569). -/
def delayCell : Nat := 0x1687
/-- DELAY_HAMMER, tenant scope (R569). -/
def delayHammer : Nat := 0x1688
/-- DELAY_EGRESS, tenant scope (R569). -/
def delayEgress : Nat := 0x1689
/-- EGRESS_TC, tenant scope (R569). -/
def egressTc : Nat := 0x168A
/-- EGRESS_TP, tenant scope (R569). -/
def egressTp : Nat := 0x168B
/-- PTP_OFFSET_NS, chip scope (R602). -/
def ptpOffsetNs : Nat := 0x1780
/-- LOG_COUNT, chip scope (R602). -/
def logCount : Nat := 0x1781
/-- POWER_MW, chip scope (R638). -/
def powerMw : Nat := 0x1880
/-- CAP_W, chip scope (R638). -/
def capW : Nat := 0x1881
/-- CAP_EFF_W, chip scope (R638). -/
def capEffW : Nat := 0x1882
/-- P_FLOOR_W, chip scope (R638). -/
def pFloorW : Nat := 0x1883
/-- LADDER_STEP, chip scope (R638). -/
def ladderStep : Nat := 0x1884
/-- POWER_STATE, chip scope (R638). -/
def powerState : Nat := 0x1885
/-- TJ_MAX_MC, chip scope (R638). -/
def tjMaxMc : Nat := 0x1886
/-- THERMAL_CAP_W, chip scope (R638). -/
def thermalCapW : Nat := 0x1887
/-- HOLDUP_C_UF, chip scope (R638). -/
def holdupCUf : Nat := 0x1888
/-- HOLDUP_EU_MJ, chip scope (R638). -/
def holdupEuMj : Nat := 0x1889
/-- HOLDUP_V_FULL_MV, chip scope (R638). -/
def holdupVFullMv : Nat := 0x188A

end Level

/-- The scope of each level, none for an id that is no level. -/
def levelScope (id : Nat) : Option Scope :=
  if id == 0x0180 || (0x1680 ≤ id && id ≤ 0x168B) then some .tenant
  else if (0x0680 ≤ id && id ≤ 0x0687) || (0x1780 ≤ id && id ≤ 0x1781) || (0x1880 ≤ id && id ≤ 0x188A) then some .chip
  else if (0x1580 ≤ id && id ≤ 0x1582) then some .reservoir
  else none

namespace EventCode

/-- The event TICKET_DONE. -/
def ticketDone : Nat := 0x0001
/-- The event EVENTS_LOST. -/
def eventsLost : Nat := 0x0002
/-- The event EPOCH_COMPLETE. -/
def epochComplete : Nat := 0x0010
/-- The event DEFER_STALLED. -/
def deferStalled : Nat := 0x0011
/-- The event STREAM_LOST. -/
def streamLost : Nat := 0x0012
/-- The event PROGRAM_UNLOADED. -/
def programUnloaded : Nat := 0x0013
/-- The event REGION_FENCED. -/
def regionFenced : Nat := 0x0020
/-- The event DEVICE_HALTED. -/
def deviceHalted : Nat := 0x0021
/-- The event TROUBLE. -/
def trouble : Nat := 0x0022
/-- The event DOUBLE_FREE. -/
def doubleFree : Nat := 0x0023
/-- The event TONGS_LEAK. -/
def tongsLeak : Nat := 0x0024
/-- The event DIE_FAILED. -/
def dieFailed : Nat := 0x0030
/-- The event DIE_DEMOTED. -/
def dieDemoted : Nat := 0x0031
/-- The event MEDIA_LOSS. -/
def mediaLoss : Nat := 0x0032
/-- The event HOLDUP_PERMIT. -/
def holdupPermit : Nat := 0x0033
/-- The event SAMPLE_CORRUPT. -/
def sampleCorrupt : Nat := 0x0040
/-- The event DEDUP_TABLE_FULL. -/
def dedupTableFull : Nat := 0x0050
/-- The event RESERVOIR_FAILED. -/
def reservoirFailed : Nat := 0x0060
/-- The event PEER_DOWN. -/
def peerDown : Nat := 0x0061
/-- The event PEER_UP. -/
def peerUp : Nat := 0x0062
/-- The event FUNCTION_DRAINED. -/
def functionDrained : Nat := 0x0070
/-- The event SYNC_LOST. -/
def syncLost : Nat := 0x0080
/-- The event RESYNC_DONE. -/
def resyncDone : Nat := 0x0081
/-- The event REPLAY_LOG_END. -/
def replayLogEnd : Nat := 0x0082
/-- The event THERMAL. -/
def thermal : Nat := 0x0090
/-- The event QUENCH_TRIPPED. -/
def quenchTripped : Nat := 0x0091
/-- The event HOLDUP_TEST_FAIL. -/
def holdupTestFail : Nat := 0x0092
/-- The event MODEL_DRIFT. -/
def modelDrift : Nat := 0x0093
/-- The event POWER_STATE. -/
def powerState : Nat := 0x0094
/-- The event SELFTEST_DONE. -/
def selftestDone : Nat := 0x00A0
/-- The event BOOT_DONE. -/
def bootDone : Nat := 0x00B0
/-- The event TOPOLOGY_MISMATCH. -/
def topologyMismatch : Nat := 0x00B1
/-- The event RAIL_FAULT. -/
def railFault : Nat := 0x00C0

end EventCode

end Sys2Proof.Machine
end

