-- ==== Sys2Proof/Machine/Assoc.lean ====
section
/-!
DEFINITION. Machine/Assoc.lean: sparse tables keyed by a number, in one canonical form.
A table is a list of key and value pairs with keys strictly rising, so that equal tables are equal data.
-/
namespace Sys2Proof.Machine

/-- A sparse table keyed by a number. -/
abbrev AMap (α : Type) := List (Nat × α)

/-- The entry of key `k`, if there is one. -/
def AMap.get? {α : Type} (m : AMap α) (k : Nat) : Option α :=
  match m with
  | [] => none
  | (j, v) :: r => if j = k then some v else AMap.get? r k

/-- The entry of key `k`, or `d` where the table has none. -/
def AMap.getD {α : Type} (m : AMap α) (k : Nat) (d : α) : α := (AMap.get? m k).getD d

/-- Whether the table has an entry of key `k`. -/
def AMap.has {α : Type} (m : AMap α) (k : Nat) : Bool := (AMap.get? m k).isSome

/-- The table with `k` holding `v`; keys stay strictly rising. -/
def AMap.set {α : Type} (m : AMap α) (k : Nat) (v : α) : AMap α :=
  match m with
  | [] => [(k, v)]
  | (j, w) :: r =>
    if k < j then (k, v) :: (j, w) :: r
    else if j = k then (k, v) :: r
    else (j, w) :: AMap.set r k v

/-- The table without key `k`. -/
def AMap.del {α : Type} (m : AMap α) (k : Nat) : AMap α := List.filter (fun p => p.1 != k) m

/-- The table with the entry of `k`, or `d` where it has none, changed by `f`. -/
def AMap.upd {α : Type} (m : AMap α) (k : Nat) (d : α) (f : α → α) : AMap α :=
  AMap.set m k (f (AMap.getD m k d))

/-- The table with the entry of `k` changed by `f` where there is one. -/
def AMap.mod {α : Type} (m : AMap α) (k : Nat) (f : α → α) : AMap α :=
  List.map (fun p => if p.1 = k then (p.1, f p.2) else p) m

/-- The table with every value changed by `f`, which also sees the key. -/
def AMap.mapKV {α β : Type} (f : Nat → α → β) (m : AMap α) : AMap β := List.map (fun p => (p.1, f p.1 p.2)) m

/-- The table with only the entries that satisfy `p`. -/
def AMap.keep {α : Type} (p : Nat → α → Bool) (m : AMap α) : AMap α := List.filter (fun e => p e.1 e.2) m

/-- The least number from `0` to `n - 1` that is no key of the table. -/
def AMap.firstFree {α : Type} (m : AMap α) (n : Nat) : Option Nat :=
  (List.range n).find? (fun k => !AMap.has m k)

end Sys2Proof.Machine
end

