-- ==== Sys2Proof/Machine/State/Bellows.lean ====
section
/-!
DEFINITION. Machine/State/Bellows.lean: power, thermal state and the hold-up bank (file 18 of the spec).
-/
namespace Sys2Proof.Machine

/-- Power states (Table 18-5). -/
inductive PowerState where
  | blaze | glow | banked | ember | slumber
  deriving DecidableEq, Repr

/-- A modelled rail (Table 18-2): its gain and its window of reads (R605). -/
structure Rail where
  gain : Rat
  /-- Measured and modelled energy, in J, of the reads of the running 100 ms, newest first. -/
  window : List (Rat × Rat)
  /-- Modelled energy in J, before the gain, since the last read. -/
  acc : Rat
  /-- Consecutive updates whose m / p lay outside 0.80 to 1.25, and whether MODEL_DRIFT has been posted for the run. -/
  drift : Nat
  deriving DecidableEq, Repr

/-- A hold-up test that runs (Table 18-6). -/
structure HoldTest where
  /-- Window and ticket of HOLDUP_MEASURE. -/
  ticket : Option (Nat × Nat)
  v1 : Nat
  tick : Nat
  deriving DecidableEq, Repr

/-- The Bellows and the Quench. -/
structure Bellows where
  rails : List Rail
  /-- Ladder step in force, and the one chosen for the next tick (R612). -/
  step : Nat
  nextStep : Option Nat
  /-- Droop ceiling and the tick at which it lapses (R614). -/
  droop : Option (Nat × Nat)
  /-- DROOP_STRETCH increments of the tick. -/
  stretches : Nat
  /-- C_th (R625). -/
  cTh : Option Rat
  emergency : Bool
  /-- T_d of the region dies and of the hub, in m°C, as read at the last boundary. -/
  temps : List Int
  /-- Modelled energy of the last tick in µJ, for POWER_MW. -/
  powerMw : Nat
  adminReq : PowerState
  storageReq : PowerState
  /-- The storage request last set by Set Features (R651). -/
  storageSet : PowerState
  inForce : PowerState
  slumber : Bool
  /-- In Slumber, something has made the device not quiet (R621); and LPO_CLK is absent (R714). -/
  wake : Bool
  lpoLost : Bool
  /-- The configuration of a shallower state is being reached (R622): no admission until then. -/
  exiting : Bool
  /-- C_eff at the last freeze (R612), in W. -/
  cEffAtFreeze : Rat
  /-- The die and sensor latched by the Quench in the always-on well (R628). -/
  quench : Option (Nat × Nat)
  /-- THERMTRIP_L asserted, clocks stopped (R627). -/
  tripped : Bool
  bankMv : Nat
  test : Option HoldTest
  /-- The device's clock at the end of the last test, in ns (R631). -/
  testEnd : Option Nat
  /-- A test has fallen due and could not start; the window and ticket of the HOLDUP_MEASURE that asked for it (R630). -/
  testDue : Bool
  dueTicket : Option (Nat × Nat)
  /-- C in F, V_FULL in mV, E_u of the last test and E_u last reported, in J. -/
  cap : Rat
  vFull : Nat
  euTest : Rat
  euReported : Rat
  holdTestPin : Bool
  /-- Dynamic activity charged in the tick: by rail, in J before the gain; and by tenant, in J. -/
  railJ : List Rat
  tenantJ : AMap Rat
  deriving DecidableEq, Repr

/-- A rail after a cold reset. -/
def Rail.init : Rail := { gain := 1, window := [], acc := 0, drift := 0 }

/-- The Bellows at a cold reset: gains 1.0, requests Blaze (R605, R617). -/
def Bellows.init : Bellows :=
  { rails := List.replicate 20 Rail.init, step := 0, nextStep := none, droop := none, stretches := 0, cTh := none, emergency := false,
    temps := List.replicate 9 0, powerMw := 0, adminReq := .blaze, storageReq := .blaze, storageSet := .blaze, inForce := .blaze,
    slumber := false, wake := false, lpoLost := false, exiting := false, cEffAtFreeze := 0, quench := none, tripped := false, bankMv := 0, test := none, testEnd := none,
    testDue := false, dueTicket := none, cap := 0, vFull := 0, euTest := 0, euReported := 0, holdTestPin := false, railJ := List.replicate 20 0, tenantJ := [] }

end Sys2Proof.Machine
end

