-- ==== Sys2Proof/Machine/State/Units.lean ====
section
/-!
DEFINITION. Machine/State/Units.lean: cells, lanes, blocks, regions and their trouble records (file 02 of the spec).
A unit that is not listed is in service, with no history.
-/
namespace Sys2Proof.Machine

/-- The classes of unit that limp detection covers (R65, R246) and that keep service records. -/
inductive UnitClass where
  | cell | lane | swage | screen | wedge | hammer | block | die
  deriving DecidableEq, Repr

/-- Whether a unit is in service (R51, R52). -/
inductive Service where
  | inService | demoted | quarantined | fenced | absent
  deriving DecidableEq, Repr

/-- One completed work item as limp detection sees it (R65): its tick, its measured time and its predicted time. -/
structure LatSample where
  tick : Nat
  measured : Nat
  predicted : Nat
  deriving DecidableEq, Repr

/-- The service record of a unit. -/
structure UnitRec where
  service : Service
  /-- Power-gated by the ladder (R609). -/
  gated : Bool
  /-- Removed by the ladder and restored, but not yet up (R609). -/
  ungating : Bool
  /-- Work items completed in the last 64 ticks, newest first (R65). -/
  lat : List LatSample
  /-- The last probes of a demoted unit, newest first (R66). -/
  probes : List LatSample
  /-- The tick of the last probe given, and whether it has yet to find its work item (R65). -/
  lastProbe : Nat
  probeDue : Bool
  /-- Ticks of the cell store's corrections (R62), newest first. -/
  ceTicks : List Nat
  deriving DecidableEq, Repr

/-- A unit with no history, in service. -/
def UnitRec.init : UnitRec :=
  { service := .inService, gated := false, ungating := false, lat := [], probes := [], lastProbe := 0, probeDue := false, ceTicks := [] }

/-- What a block keeps beside its units. -/
structure BlockRec where
  /-- The tick of the last quarantine of a cell in the block (R69). -/
  lastQuar : Option Nat
  /-- The logical cell that the unused spare takes at the next boundary (R63). -/
  sparePending : Option Nat
  /-- The spare cell has been mapped in (R64). -/
  spareUsed : Bool
  /-- The physical spare cell and the logical cell that it replaced. -/
  cellSpares : List (Nat × Nat)
  /-- The physical block that replaced the one first mapped to the index (R51). -/
  physOverride : Option Nat
  /-- The cells of the block stretch their cycles (R393). -/
  drooped : Bool
  deriving DecidableEq, Repr

/-- A block with no history. -/
def BlockRec.init : BlockRec :=
  { lastQuar := none, sparePending := none, spareUsed := false, cellSpares := [], physOverride := none, drooped := false }

/-- What a region keeps beside its units. -/
structure RegionRec where
  fenced : Bool
  hbmLost : Bool
  /-- A region reset runs (R77). -/
  resetting : Bool
  /-- The region reset has completed and the region resumes at the next boundary (R77). -/
  resumeAtBoundary : Bool
  /-- The tick at which the last region reset completed (R78). -/
  lastResetDone : Option Nat
  /-- Fences to which a spare block is owed, by logical block, in the order of the fences (R70). -/
  owed : List Nat
  /-- Fenced blocks in the order of their fences (R689). -/
  fenceOrder : List Nat
  /-- The region arbiter's rotating pointer (R55): blocks 0 to 15, then 16 for the hub port. -/
  arbPtr : Nat
  deriving DecidableEq, Repr

/-- A region with no history. -/
def RegionRec.init : RegionRec :=
  { fenced := false, hbmLost := false, resetting := false, resumeAtBoundary := false, lastResetDone := none, owed := [], fenceOrder := [],
    arbPtr := 0 }

/-- The four trouble words of a level, in the code of WORD (R174). -/
inductive TroubleWord where
  | cell | block | region | chip
  deriving DecidableEq, Repr

/-- Units, trouble words and their records. -/
structure Units where
  /-- Service records by class and global index. -/
  recs : AMap UnitRec
  blocks : AMap BlockRec
  regions : AMap RegionRec
  /-- CELL_TROUBLE by global block, roll-ups aside (Table 02-4). -/
  cellT : AMap Word32
  /-- BLOCK_TROUBLE by region, roll-ups aside (Table 02-5). -/
  blockT : AMap Word32
  /-- REGION_TROUBLE, roll-ups aside (Table 02-6). -/
  regionT : Word64
  /-- CHIP_TROUBLE, roll-ups aside (Table 02-7). -/
  chipT : Word32
  /-- Sticky bits newly set in the running tick, by word and index, for the TROUBLE events (R87). -/
  fresh : List (TroubleWord × Nat × Nat)
  /-- Priority pointers of the block-store banks, by global block × 32 + bank (R53). No row makes a bank access, so only a reset writes them. -/
  bankPtr : AMap Nat
  /-- Priority pointers of the hub crossbar, by hub unit (R56). No row makes a crossing, so only a reset writes them. -/
  xbarPtr : AMap Nat
  /-- Physical units that the last BIST or training found bad (R687). -/
  bistBad : List PhysRef
  deriving DecidableEq, Repr

/-- All units at reset: no history, every trouble word 0 (R89). -/
def Units.init : Units :=
  { recs := [], blocks := [], regions := [], cellT := [], blockT := [], regionT := 0, chipT := 0, fresh := [], bankPtr := [], xbarPtr := [],
    bistBad := [] }

end Sys2Proof.Machine
end

