-- ==== Sys2Proof/Machine/State/Boot.lean ====
section
/-!
DEFINITION. Machine/State/Boot.lean: fuses, SPI NOR, retention SRAM, the boot log and the pins (files 20 and 21 of the spec).
-/
namespace Sys2Proof.Machine

/-- A fused state of a physical block or cell (Table 20-6). -/
inductive FuseState where
  | disabled | enabled | spare | never
  deriving DecidableEq, Repr

/-- The fuses of a region die (Table 20-6). -/
structure DieFuses where
  blocks : List FuseState
  /-- Cell states by physical block: 17 each. -/
  cells : List (List FuseState)
  lambda : Nat
  hbmGib : Nat
  checkOk : Bool
  deriving DecidableEq, Repr

/-- The fuses of the package (Tables 20-6 and 20-7). -/
structure Fuses where
  dies : List DieFuses
  /-- SHA-384 of the public keys. -/
  keyHash : List (List Byte)
  svnFloor : Nat
  keyRevoke : Nat
  stepping : Nat
  hubLambda : Nat
  nandChEn : Nat
  portEn : Nat
  variant : Nat
  checkOk : Bool
  /-- MAC addresses fused for the ports (R490). -/
  macs : List Nat
  deriving DecidableEq, Repr

/-- Hub retention SRAM (R672): whether its check word holds, the digest of the image, the boot slot and MAPS_SEQ. The quarantine, fence and spare
records are those of the units, the records of dies those of the Face and the gains those of the rails, which a warm reset keeps; the training results
are no values that anything reads. -/
structure Retention where
  valid : Bool
  imageDigest : List Byte
  slot : Nat
  mapsSeq : Nat
  deriving DecidableEq, Repr

/-- A boot log entry (R681). -/
structure BootEntry where
  kind : Nat
  step : Nat
  result : Nat
  ms : Nat
  digest : List Byte
  deriving DecidableEq, Repr

/-- Levels of pins: THERMTRIP_L and the straps; PFAIL_L stands in the Face, HOLD_TEST in the Bellows. -/
structure Pins where
  thermtripL : Bool
  /-- TICK_EN and TICK_POS straps (R690). -/
  tickEn : Bool
  tickPos : Nat
  deriving DecidableEq, Repr

/-- Bring-up state. -/
structure Boot where
  fuses : Fuses
  /-- SPI NOR (R678); an unlisted byte reads as erased, 0xFF. -/
  nor : Mem
  retention : Retention
  log : List BootEntry
  measure : List Byte
  /-- The slot running, and the one that failed and its status (R680). -/
  slot : Nat
  fallback : Bool
  failedStatus : Nat
  /-- The digest of the running image and its SVN, for COMMIT_SVN. -/
  imageDigest : List Byte
  /-- The slot staged since the last reset, with its FW_VERSION and SVN (R682). -/
  staged : Option (Nat × Nat × Nat)
  /-- The activation accepted and not yet written: slot, COMMIT_SVN (R683). -/
  activation : Option (Nat × Bool)
  forced : Bool
  /-- MISMATCH of the last topology check (R690). -/
  mismatch : Nat
  /-- The maps were rebuilt or kept (Table 20-8b). -/
  mapsOk : Bool
  /-- Whether READY or HOLD has been reached since the last cold reset (R670). -/
  reached : Bool
  /-- Clocks stopped and the device held in reset, with the cause: 1 a flush, 3 a rail fault; 0 while it is not (R251, R711). -/
  held : Nat
  pins : Pins
  /-- Rail fault records in the always-on well (R711). -/
  railFaults : List Nat
  /-- Pool sizes pending in the always-on well (R114), by pool, in MiB. -/
  pendPools : List (Option Nat)
  /-- Channels trained and dies accepted at the last cold bring-up (R210). -/
  channelsTrained : Nat
  diesAccepted : Nat
  deriving DecidableEq, Repr

/-- A region die of the full part: 16 enabled blocks of 16 enabled cells. -/
def DieFuses.full : DieFuses :=
  { blocks := List.replicate 16 .enabled ++ List.replicate 2 .spare, cells := List.replicate 18 (List.replicate 16 .enabled ++ [.spare]),
    lambda := 60, hbmGib := 48, checkOk := true }

/-- The fuses of an ADF1-P16 (Table 20-8a). -/
def Fuses.p16 : Fuses :=
  { dies := List.replicate 8 DieFuses.full, keyHash := List.replicate 4 (List.replicate 48 0), svnFloor := 0, keyRevoke := 0, stepping := 1,
    hubLambda := 60, nandChEn := 2 ^ 64 - 1, portEn := 15, variant := 1, checkOk := true, macs := [0, 1, 2, 3] }

/-- Bring-up state at a first power-on: NOR erased, retention invalid. -/
def Boot.init : Boot :=
  { fuses := Fuses.p16, nor := [], retention := { valid := false, imageDigest := [], slot := 0, mapsSeq := 0 },
    log := [], measure := List.replicate 48 0, slot := 0, fallback := false, failedStatus := 0, imageDigest := [],
    staged := none, activation := none, forced := false, mismatch := 0, mapsOk := false, reached := false, held := 0,
    pins := { thermtripL := true, tickEn := false, tickPos := 0 },
    railFaults := [], pendPools := [none, none, none, none], channelsTrained := 0, diesAccepted := 0 }

end Sys2Proof.Machine
end

