-- ==== Sys2Proof/Machine/State/Face.lean ====
section
/-!
DEFINITION. Machine/State/Face.lean: dies, benches, maps, datasets and the flash write buffer (file 06 of the spec).
-/
namespace Sys2Proof.Machine

/-- Die states (Table 06-3). -/
inductive DieState where
  | absent | inService | demoted | readOnly | failed
  deriving DecidableEq, Repr

/-- Die block states (Table 06-2). -/
inductive BlockState where
  | spare | erased | opened | closed | verified | stale | retired
  deriving DecidableEq, Repr

/-- A NAND die: its state, and its die blocks that are not ERASED or SPARE as at manufacture. -/
structure Die where
  state : DieState
  blocks : AMap BlockState
  deriving DecidableEq, Repr

/-- STATE of a bench record (Table 06-6). -/
inductive BenchState where
  | opened | closed | verified | weak | reclaiming
  deriving DecidableEq, Repr

/-- KIND of a bench record (Table 06-6), in the order of its values. -/
inductive BenchKind where
  | nativeData | nativeScratch | slcData | slcParity | slcFlush | slcJournal
  deriving DecidableEq, Repr

/-- A bench record (Table 06-6); an unlisted bench is FREE. -/
structure Bench where
  state : BenchState
  kind : BenchKind
  /-- Members in order: die and die block address. -/
  members : List (Nat × Nat)
  endPos : Nat
  validPages : Nat
  parityBench : Option Nat
  closedTick : Nat
  /-- Positions of pages that failed to program (R218). -/
  failed : List Nat
  deriving DecidableEq, Repr

/-- STATE of an extent (Table 06-4); an unlisted extent is FREE. -/
inductive ExtState where
  | filling | live | discarded
  deriving DecidableEq, Repr

/-- Where an extent's data lie (Table 06-4). -/
inductive ExtLoc where
  | buffer (chunk : Nat)
  | slc (logPos : Nat)
  | native (benchA : Nat) (benchB : Option Nat) (start : Nat)
  deriving DecidableEq, Repr

/-- An extent: its map entry (Table 06-4), the bytes it holds, and what the write path still owes it. -/
structure Extent where
  dataset : Nat
  state : ExtState
  loc : ExtLoc
  damaged : Bool
  length : Nat
  offset : Nat
  journalSeq : Nat
  data : List Byte
  digest : List Byte
  /-- Pages recorded unreadable (R245). -/
  unreadable : List Nat
  /-- Its place in the order in which extents are programmed. -/
  order : Nat
  /-- 64 KiB chunks not yet programmed. -/
  dirty : Nat
  /-- Its chunks have a place in the flash write buffer (R238). -/
  buffered : Bool
  /-- A flushed copy of its chunks stands in SLC_FLUSH benches, so that they are not dirty (R253). -/
  flushed : Bool
  /-- It is durable (R238), and the tick at which it became so. -/
  durable : Bool
  durTick : Nat
  /-- Its pages go to a native bench, not to the SLC log (R239). -/
  nativeDest : Bool
  /-- The set it is placed in (R239). -/
  set_ : Nat
  /-- The window and ticket of the append that awaits its durability. -/
  append : Option (Nat × Nat)
  deriving DecidableEq, Repr

/-- A scratch granule that is mapped, or recorded unreadable (R224, R245). -/
structure Granule where
  data : List Byte
  unreadable : Bool
  buffered : Bool
  /-- A flushed copy of it stands (R253). -/
  flushed : Bool
  /-- Scratch page number, once programmed. -/
  spn : Nat
  deriving DecidableEq, Repr

/-- A replica entry of a placement (R237). -/
structure Replica where
  peer : Nat
  dataset : Nat
  usable : Bool
  deriving DecidableEq, Repr

/-- A dataset (R229 to R237). -/
structure Dataset where
  tenant : Nat
  sealed_ : Bool
  extents : List Nat
  length : Nat
  manifest : List Byte
  dirOffset : Nat
  count : Nat
  /-- Pages recorded unreadable: byte offsets in the dataset. -/
  damage : List Nat
  placement : List Replica
  placementNext : Option (List Replica)
  /-- An HCP seal outstanding: window, ticket, DIR_OFFSET, SAMPLE_COUNT. -/
  sealing : Option (Nat × Nat × Nat × Nat)
  keyMode : Nat
  key : List Byte
  /-- The NVMe open extent (R645). -/
  openExtent : Option Nat
  deriving DecidableEq, Repr

/-- A record of the journal (R226): the map and the entry it changes. -/
structure JournalRec where
  seq : Nat
  /-- 0 extent entry, 1 granule entry, 2 bench record, 3 SLC log table, 4 scratch slot table, 5 dataset, 6 key. -/
  map : Nat
  key : Nat
  deriving DecidableEq, Repr

/-- The Face. -/
structure Face where
  /-- PPB and b of the geometry, and blocks per plane (R210). -/
  ppb : Nat
  bits : Nat
  blocksPerPlane : Nat
  /-- Dies found, by number. -/
  dies : AMap Die
  benches : AMap Bench
  extents : AMap Extent
  granules : AMap Granule
  /-- Scratch slots: slot to bench (R224). -/
  scratchSlots : AMap Nat
  /-- The SLC log table: log sequence to bench (R223), and the next sequence. -/
  slcLog : AMap Nat
  nextLog : Nat
  datasets : AMap Dataset
  journalTail : List JournalRec
  journalSeq : Nat
  /-- Sequence of the last journal record written to flash, and of the last checkpoint. -/
  flashedSeq : Nat
  checkpointSeq : Nat
  dirtyPermit : Nat
  slcLimit : Nat
  /-- The next set in rotation (R239). -/
  nextSet : Nat
  /-- Key mode and key of the scratch namespace (R659). -/
  scratchKeyMode : Nat
  scratchKey : List Byte
  /-- The order of the next extent. -/
  nextOrder : Nat
  /-- Hedges issued in the running tick, and READ_SAMPLE items admitted in it (R248). -/
  hedgesThisTick : Nat
  readsThisTick : Nat
  /-- Draws of each RUNNING stream's epoch at its last 65 boundaries, newest first (R246). -/
  drawRates : AMap (List Nat)
  /-- A flush record stands in flash, and whether a warm reset wrote it (R251, R253, R671). -/
  flushRecord : Option Bool
  pfailLow : Bool
  flushing : Bool
  /-- DIES_IN_SERVICE changed since SLC_LIMIT was recomputed (R242). -/
  recompute : Bool
  /-- READ_ONLY dies recorded in flash (R221). -/
  readOnlyFlash : List Nat
  deriving DecidableEq, Repr

/-- The Face at reset: the geometry and the dies are found at bring-up; DIRTY_PERMIT is 256 MiB (R250). -/
def Face.init : Face :=
  { ppb := 1536, bits := 4, blocksPerPlane := 8192, dies := [], benches := [], extents := [], granules := [], scratchSlots := [], slcLog := [],
    nextLog := 0, datasets := [], journalTail := [], journalSeq := 0, flashedSeq := 0, checkpointSeq := 0,
    dirtyPermit := 268435456, slcLimit := 0, nextSet := 0, scratchKeyMode := 0, scratchKey := [], nextOrder := 0, hedgesThisTick := 0, readsThisTick := 0,
    drawRates := [], flushRecord := none, pfailLow := false, flushing := false, recompute := false, readOnlyFlash := [] }

end Sys2Proof.Machine
end

