-- ==== Sys2Proof/Machine/State/Tongs.lean ====
section
/-!
DEFINITION. Machine/State/Tongs.lean: Stockpile pages, the Tongs' buffers, and the context directory (file 03 of the spec).
-/
namespace Sys2Proof.Machine

/-- The state record of a buffer (Table 03-9), of a buffer allocated since the last reset. -/
structure BufRec where
  allocTick : Nat
  refcount : Nat
  freed : Bool
  ownerClass : Nat
  ownerTenant : Nat
  length : Nat
  deriving DecidableEq, Repr

/-- The free list of a pool of a region: buffers never given out from `fresh` up, then those freed, oldest first (R116, R120). -/
structure Pool where
  fresh : Nat
  freed : List Nat
  deriving DecidableEq, Repr

/-- A request that waits for a buffer (R118). -/
structure BufWaiter where
  region : Nat
  pool : Nat
  len : Nat
  tenant : Nat
  cls : Nat
  /-- The work item that waits, 0 for a request that no item makes. -/
  item : Nat
  /-- Which link of the item's chain it is. -/
  link : Nat
  deriving DecidableEq, Repr

/-- An outstanding buffer as an audit's snapshot holds it (R127). -/
structure AuditEntry where
  tenant : Nat
  cls : Nat
  pool : Nat
  allocTick : Nat
  deriving DecidableEq, Repr

/-- A leak audit in progress: of a TONGS_AUDIT command, or of a drain (R131). -/
structure Audit where
  /-- The tenant audited, none for the whole chip. -/
  scope : Option Nat
  /-- Window and ticket of the command, none for the audit of a drain. -/
  ticket : Option (Nat × Nat)
  snapTick : Option Nat
  entries : List AuditEntry
  deriving DecidableEq, Repr

/-- The directory's state of a context line (R104). -/
inductive DirState where
  | uncached
  | shared (blocks : List Nat)
  | owned (block : Nat) (modified : Bool)
  deriving DecidableEq, Repr

/-- A context line that is cached (R103, R104): its directory state, and the bytes that the stack holds. -/
structure DirLine where
  state : DirState
  stack : List Byte
  deriving DecidableEq, Repr

/-- What pooled Stockpile pages hold, for counting them per region (R93). -/
structure PageUse where
  /-- The owner: kind and number. -/
  kind : Nat
  owner : Nat
  region : Nat
  pages : Nat
  deriving DecidableEq, Repr

/-- An open compressor context (R308, R309): its block size, its owner, the data of the current block, and the stream written so far. -/
structure CmpCtx where
  log : Nat
  cls : Nat
  tenant : Nat
  held : List Byte
  out : List Byte
  deriving DecidableEq, Repr

/-- Memory and buffers. -/
structure Tongs where
  /-- Records of buffers allocated since the last reset, by handle (Table 03-8). -/
  bufs : AMap BufRec
  /-- Free lists by region × 4 + pool. -/
  pools : AMap Pool
  /-- Pool sizes in MiB carved at the last reset, by pool (R114). -/
  poolMiB : List Nat
  waiting : List BufWaiter
  /-- Buffers given to waiters and not yet taken up: item, link, handle. -/
  grants : List (Nat × Nat × Nat)
  audits : List Audit
  /-- Pages of the pooled area in use. -/
  pages : List PageUse
  /-- Context lines that a block cache holds, by region × 163,840 + slot. -/
  lines : AMap DirLine
  /-- Open compressor contexts, 256 for each of the two engines (R308). -/
  cmp : AMap CmpCtx
  deriving DecidableEq, Repr

/-- Memory and buffers at reset: every buffer and page free (R116, R99). -/
def Tongs.init : Tongs :=
  { bufs := [], pools := [], poolMiB := [1024, 4096, 8192, 4096], waiting := [], grants := [], audits := [], pages := [], lines := [], cmp := [] }

end Sys2Proof.Machine
end

