-- ==== Sys2Proof/Machine/State/Group.lean ====
section
/-!
DEFINITION. Machine/State/Group.lean: barrier groups, PTP and replay logs (file 17 of the spec).
-/
namespace Sys2Proof.Machine

/-- Membership of a barrier group (Table 17-6). -/
structure Membership where
  role : Nat
  position : Nat
  ptpEn : Bool
  groupId : Nat
  groupSize : Nat
  rank : Nat
  ptpPort : Nat
  ptpDomain : Nat
  deriving DecidableEq, Repr

/-- A pending tick epoch (R592): AT in ns of PTP time. -/
structure TickEpoch where
  atNs : Nat
  period : Nat
  tickAt : Nat
  deriving DecidableEq, Repr

/-- A record of a replay log (R582). -/
structure LogRec where
  kind : Nat
  tick : Nat
  body : List Byte
  deriving DecidableEq, Repr

/-- A replay log (R578 to R581). -/
structure Log where
  tenant : Nat
  stream : Nat
  records : List LogRec
  /-- Records written to the stream so far. -/
  fed : Nat
  /-- The BCB stream (R581). -/
  ctx : CmpCtx
  recording : Bool
  armed : Bool
  ended : Bool
  /-- The replay that runs it: window and ticket. -/
  run : Option (Nat × Nat)
  /-- An EXPORT or a DELETE outstanding: window and ticket. -/
  export_ : Option (Nat × Nat)
  delete : Option (Nat × Nat)
  /-- A stop has been accepted. -/
  stopAsked : Bool
  deriving DecidableEq, Repr

/-- A replay that runs (R584, R586). -/
structure Replay where
  log : Nat
  stream : Nat
  startTick : Nat
  matched : Nat
  diverged : Option (Nat × Nat × Nat)
  missing : Bool
  aborted : Bool
  done : Bool
  deriving DecidableEq, Repr

/-- Barrier groups and replay. -/
structure Group where
  member : Option Membership
  /-- Window and ticket of the outstanding BARRIER_JOIN, with the membership asked for. -/
  joining : Option (Nat × Nat × Membership)
  ptpLocked : Bool
  /-- Consecutive Syncs within ±45 ns, and consecutive ones beyond ±500 ns (R591, R595). -/
  syncGood : Nat
  syncBad : Nat
  ptpOffset : Int
  epoch : Option TickEpoch
  /-- AT and TICK_AT of the tick epoch in force, from which the PTP time of a boundary follows (R593). -/
  base : Option (Nat × Nat)
  /-- The PTP time of a boundary as the last Sync showed it, with the device's clock there: both in ns (R591). -/
  ptpRef : Option (Nat × Nat)
  aligned : Bool
  /-- No boundary is made until the reference boundary (R597). -/
  awaiting : Bool
  /-- What RESYNC_DONE will report: reference less count, and e (R601). -/
  resyncInfo : Option (Int × Nat)
  logs : AMap Log
  replays : List Replay
  deriving DecidableEq, Repr

/-- No group, no log. -/
def Group.init : Group :=
  { member := none, joining := none, ptpLocked := false, syncGood := 0, syncBad := 0, ptpOffset := 0, epoch := none, base := none, ptpRef := none,
    aligned := false, awaiting := false, resyncInfo := none, logs := [], replays := [] }

end Sys2Proof.Machine
end

