-- ==== Sys2Proof/Machine/State/Haul.lean ====
section
/-!
DEFINITION. Machine/State/Haul.lean: ports, reservoirs and peers (file 15 of the spec).
-/
namespace Sys2Proof.Machine

/-- An Ethernet port (R490). -/
structure Port where
  inService : Bool
  demoted : Bool
  deriving DecidableEq, Repr

/-- The states of a reservoir (Table 15-2). -/
inductive ResState where
  | attaching | active | failed | detaching
  deriving DecidableEq, Repr

/-- A billet handed to a reservoir, by its BILLET_SEQ. -/
structure Emission where
  seq : Nat
  stream : Nat
  num : Nat
  len : Nat
  /-- The billet's bytes, in the reservoir's format. -/
  data : List Byte
  bufs : List Nat
  /-- The boundary at which it was handed over: its batch (R504). -/
  batch : Nat
  /-- The tail after it, once its writes are posted. -/
  tailAfter : Option Nat
  /-- It has counted in RESERVOIR_FULL_WAIT. -/
  counted : Bool
  /-- Its EMIT item has been admitted (R504). -/
  admitted : Bool
  /-- Its fence has answered (R507). -/
  fenced : Bool
  deriving DecidableEq, Repr

/-- A WRITE of a QP, posted or waiting for credit (R494). -/
structure Write where
  batch : Nat
  addr : Nat
  data : List Byte
  /-- Its place in the order of posting on the QP, none while it waits. -/
  posted : Option Nat
  /-- It has counted in WRITE_CREDIT_WAIT. -/
  counted : Bool
  deriving DecidableEq, Repr

/-- A tail publication awaiting its ACK: the tail it publishes. -/
structure Publication where
  batch : Nat
  tail : Nat
  /-- Its place in the order of posting on the QP. -/
  order : Nat
  deriving DecidableEq, Repr

/-- A reservoir that is attached (R495, R497). -/
structure Reservoir where
  state : ResState
  /-- Window and ticket of the outstanding attach. -/
  attach : Option (Nat × Nat)
  /-- Window and ticket of each outstanding detach. -/
  detach : List (Nat × Nat)
  port : Nat
  fmt : Nat
  flush : Bool
  vlanEn : Bool
  gaugeRead : Bool
  dscp : Nat
  pcp : Nat
  vlanId : Nat
  remoteQpn : Nat
  remotePsn : Nat
  rkey : Nat
  mac : List Byte
  localGid : List Byte
  remoteGid : List Byte
  ringAddr : Nat
  ringBytes : Nat
  tailAddr : Nat
  headAddr : Nat
  /-- Bytes 0–7 of the gauge page, none before the first write; or the last response of a gauge read (R502). -/
  gauge : Option Nat
  gaugeNext : Option Nat
  /-- The last valid head, none before the first. -/
  head : Option Nat
  /-- Tail of the bytes whose writes are posted, the last published tail, and the last acknowledged one. -/
  tail : Nat
  published : Nat
  acked : Nat
  /-- The tail that would stand once every billet handed over is published (R514). -/
  virtualTail : Nat
  /-- Head at the previous boundary, drain estimate, integral, slot credit and mean billet length (R514, R515), in binary64. -/
  hPrev : Nat
  d : Rat
  i : Rat
  a : Rat
  lbar : Rat
  lMax : Nat
  nextSeq : Nat
  /-- Slots due and not handed over, by BILLET_SEQ (R29, R39). -/
  due : List Nat
  /-- Billets handed over and not yet delivered, oldest first. -/
  billets : List Emission
  writes : List Write
  /-- Fences outstanding: batch, and place in the order of posting. -/
  fences : List (Nat × Nat)
  /-- Batches fenced, and the place of the next operation posted. -/
  fencedTo : Nat
  nextOp : Nat
  tails : List Publication
  /-- Rate in bytes per µs and congestion estimate (R511). -/
  rate : Rat
  alpha : Rat
  /-- ns since the last decrease at the last CNP, none before the first decrease. -/
  lastDecrease : Option Nat
  cnpInPeriod : Bool
  retries : Nat
  /-- Boundaries since it became ACTIVE. -/
  ticksActive : Nat
  /-- f and R as they stood at the last boundary (R536). -/
  fill : Nat
  rateSeen : Rat
  deriving DecidableEq, Repr

/-- A request of this device to a peer (R523). -/
structure PeerReq where
  tag : Nat
  peer : Nat
  stream : Nat
  pos : Nat
  /-- Places in the replica list already tried. -/
  tried : List Nat
  /-- It has been answered with READ_READY: links and length. -/
  links : List Nat
  length : Nat
  rkey : Nat
  /-- It waits a tick to be repeated, or for room (R523, R524). -/
  waiting : Bool
  /-- It is a hedge of a media read (R248). -/
  hedge : Bool
  sentTick : Nat
  deriving DecidableEq, Repr

/-- A peer (R519). -/
structure Peer where
  port : Nat
  remoteQpn : Nat
  mac : List Byte
  vlan : Nat
  localGid : List Byte
  remoteGid : List Byte
  up : Bool
  timeouts : Nat
  /-- The tick at which it went DOWN, or of its last probe. -/
  downTick : Nat
  retries : Nat
  rate : Rat
  alpha : Rat
  lastDecrease : Option Nat
  cnpInPeriod : Bool
  qpError : Bool
  deriving DecidableEq, Repr

/-- A request that this device serves for a peer (R522). -/
structure Served where
  peer : Nat
  tag : Nat
  dataset : Nat
  index : Nat
  bufs : List Nat
  data : List Byte
  ready : Bool
  deriving DecidableEq, Repr

/-- The Haul. -/
structure Haul where
  ports : List Port
  reservoirs : AMap Reservoir
  peers : AMap Peer
  reqs : List PeerReq
  nextTag : Nat
  served : List Served
  deriving DecidableEq, Repr

/-- The Haul at reset: ports in service, no reservoir, no peer. -/
def Haul.init : Haul :=
  { ports := List.replicate 4 { inService := true, demoted := false }, reservoirs := [], peers := [], reqs := [], nextTag := 1, served := [] }

end Sys2Proof.Machine
end

