-- ==== Sys2Proof/Status.lean ====
section
/-!
DEFINITION. Status.lean: the status codes of HCP (R9, R163, R724).
Each code is the 16-bit number of the spec: its class in the high byte, its number within the class in the low byte.
-/
namespace Sys2Proof

/-- A status code, 16 bits wide (R9). -/
abbrev Status := Nat

namespace Status

/-- SUCCESS (Table 22-3). -/
def success : Status := 0x0000
/-- ACCEPTED (Table 22-3). -/
def accepted : Status := 0x0001
/-- OPCODE_UNKNOWN (Table 22-3). -/
def opcodeUnknown : Status := 0x0101
/-- NOT_NEGOTIATED (Table 22-3). -/
def notNegotiated : Status := 0x0102
/-- VERSION_UNSUPPORTED (Table 22-3). -/
def versionUnsupported : Status := 0x0103
/-- BAD_LENGTH (Table 22-3). -/
def badLength : Status := 0x0104
/-- RESERVED_NONZERO (Table 22-3). -/
def reservedNonzero : Status := 0x0105
/-- ADMIN_ONLY (Table 22-3). -/
def adminOnly : Status := 0x0106
/-- BAD_SGL (Table 22-3). -/
def badSgl : Status := 0x0107
/-- TICKETS_EXHAUSTED (Table 22-3). -/
def ticketsExhausted : Status := 0x0108
/-- NO_EVENT_RING (Table 22-3). -/
def noEventRing : Status := 0x0109
/-- PARAM_UNKNOWN (Table 22-3). -/
def paramUnknown : Status := 0x010A
/-- FIELD_INVALID (Table 22-3). -/
def fieldInvalid : Status := 0x010B
/-- TICKETS_OUTSTANDING (Table 22-3). -/
def ticketsOutstanding : Status := 0x010C
/-- SGL_SHORT (Table 22-3). -/
def sglShort : Status := 0x010D
/-- NO_STOCKPILE (Table 22-3). -/
def noStockpile : Status := 0x0201
/-- NO_CONTEXT_SLOT (Table 22-3). -/
def noContextSlot : Status := 0x0202
/-- NO_RESERVOIR (Table 22-3). -/
def noReservoir : Status := 0x0203
/-- NO_PROGRAM_SLOT (Table 22-3). -/
def noProgramSlot : Status := 0x0204
/-- DEVICE_HOLD (Table 22-3). -/
def deviceHold : Status := 0x0301
/-- HALTED (Table 22-3). -/
def halted : Status := 0x0302
/-- TENANT_DISABLED (Table 22-3). -/
def tenantDisabled : Status := 0x0303
/-- STREAM_STATE (Table 22-3). -/
def streamState : Status := 0x0304
/-- OPERATION_BUSY (Table 22-3). -/
def operationBusy : Status := 0x0305
/-- NO_SUCH_TENANT (Table 22-3). -/
def noSuchTenant : Status := 0x0401
/-- NO_SUCH_STREAM (Table 22-3). -/
def noSuchStream : Status := 0x0402
/-- NO_SUCH_DATASET (Table 22-3). -/
def noSuchDataset : Status := 0x0403
/-- NO_SUCH_PROGRAM (Table 22-3). -/
def noSuchProgram : Status := 0x0404
/-- NO_SUCH_RESERVOIR (Table 22-3). -/
def noSuchReservoir : Status := 0x0405
/-- NOT_OWNER (Table 22-3). -/
def notOwner : Status := 0x0406
/-- NO_SUCH_TICKET (Table 22-3). -/
def noSuchTicket : Status := 0x0407
/-- PROG_MAGIC_BAD (Table 22-3). -/
def progMagicBad : Status := 0x0501
/-- PROG_FORMAT_UNSUPPORTED (Table 22-3). -/
def progFormatUnsupported : Status := 0x0502
/-- PROG_LAYOUT_BAD (Table 22-3). -/
def progLayoutBad : Status := 0x0503
/-- PROG_DIGEST_BAD (Table 22-3). -/
def progDigestBad : Status := 0x0504
/-- VARIANT_MISMATCH (Table 22-3). -/
def variantMismatch : Status := 0x0505
/-- FW_MISMATCH (Table 22-3). -/
def fwMismatch : Status := 0x0506
/-- PERIOD_TOO_SHORT (Table 22-3). -/
def periodTooShort : Status := 0x0507
/-- OP_UNKNOWN (Table 22-3). -/
def opUnknown : Status := 0x0508
/-- OP_FIELD_INVALID (Table 22-3). -/
def opFieldInvalid : Status := 0x0509
/-- GRAPH_INVALID (Table 22-3). -/
def graphInvalid : Status := 0x050A
/-- STATE_OVERFLOW (Table 22-3). -/
def stateOverflow : Status := 0x050B
/-- MODEL_INVALID (Table 22-3). -/
def modelInvalid : Status := 0x050C
/-- VOCAB_MISSING (Table 22-3). -/
def vocabMissing : Status := 0x050D
/-- TABLE_MISSING (Table 22-3). -/
def tableMissing : Status := 0x050E
/-- VARY_NO_EXACT (Table 22-3). -/
def varyNoExact : Status := 0x050F
/-- ACTIVATION_OVERFLOW (Table 22-3). -/
def activationOverflow : Status := 0x0510
/-- RING_OVERSUBSCRIBED (Table 22-3). -/
def ringOversubscribed : Status := 0x0511
/-- PROG_LENGTH_BAD (Table 22-3). -/
def progLengthBad : Status := 0x0512
/-- PROGRAM_LIMIT (Table 22-3). -/
def programLimit : Status := 0x0513
/-- PROGRAM_BUSY (Table 22-3). -/
def programBusy : Status := 0x0514
/-- PROGRAM_IN_USE (Table 22-3). -/
def programInUse : Status := 0x0515
/-- NOT_EXACT_CAPABLE (Table 22-3). -/
def notExactCapable : Status := 0x0516
/-- LOAD_INTERRUPTED (Table 22-3). -/
def loadInterrupted : Status := 0x0517
/-- RESERVOIR_EXISTS (Table 22-3). -/
def reservoirExists : Status := 0x0601
/-- PORT_UNAVAILABLE (Table 22-3). -/
def portUnavailable : Status := 0x0602
/-- RESERVOIR_BOUND (Table 22-3). -/
def reservoirBound : Status := 0x0603
/-- BILLET_TOO_LARGE (Table 22-3). -/
def billetTooLarge : Status := 0x0604
/-- ATTACH_TIMEOUT (Table 22-3). -/
def attachTimeout : Status := 0x0605
/-- PEER_EXISTS (Table 22-3). -/
def peerExists : Status := 0x0606
/-- PEER_IN_PLACEMENT (Table 22-3). -/
def peerInPlacement : Status := 0x0607
/-- NO_SUCH_PEER (Table 22-3). -/
def noSuchPeer : Status := 0x0608
/-- INGEST_KEY_IN_USE (Table 22-3). -/
def ingestKeyInUse : Status := 0x0609
/-- INGEST_LIMIT (Table 22-3). -/
def ingestLimit : Status := 0x060A
/-- INGEST_PROGRAM_REQUIRED (Table 22-3). -/
def ingestProgramRequired : Status := 0x060B
/-- NOT_INGEST (Table 22-3). -/
def notIngest : Status := 0x060C
/-- DATASET_EXISTS (Table 22-3). -/
def datasetExists : Status := 0x0701
/-- DATASET_SEALED (Table 22-3). -/
def datasetSealed : Status := 0x0702
/-- DATASET_NOT_SEALED (Table 22-3). -/
def datasetNotSealed : Status := 0x0703
/-- DATASET_IN_USE (Table 22-3). -/
def datasetInUse : Status := 0x0704
/-- DATASET_BUSY (Table 22-3). -/
def datasetBusy : Status := 0x0705
/-- NO_SPACE (Table 22-3). -/
def noSpace : Status := 0x0706
/-- EXTENT_LIMIT (Table 22-3). -/
def extentLimit : Status := 0x0707
/-- APPEND_LENGTH_BAD (Table 22-3). -/
def appendLengthBad : Status := 0x0708
/-- DIRECTORY_BAD (Table 22-3). -/
def directoryBad : Status := 0x0709
/-- PLACEMENT_PEER_UNKNOWN (Table 22-3). -/
def placementPeerUnknown : Status := 0x070A
/-- MEDIA_WRITE_FAILED (Table 22-3). -/
def mediaWriteFailed : Status := 0x070B
/-- CFG_WRITE_FAILED (Table 22-3). -/
def cfgWriteFailed : Status := 0x0801
/-- FW_SIGNATURE_BAD (Table 22-3). -/
def fwSignatureBad : Status := 0x0802
/-- FW_IMAGE_BAD (Table 22-3). -/
def fwImageBad : Status := 0x0803
/-- GROUP_MEMBER (Table 22-3). -/
def groupMember : Status := 0x0901
/-- NOT_IN_GROUP (Table 22-3). -/
def notInGroup : Status := 0x0902
/-- TICK_POSITION_MISMATCH (Table 22-3). -/
def tickPositionMismatch : Status := 0x0903
/-- SYNC_TIMEOUT (Table 22-3). -/
def syncTimeout : Status := 0x0904
/-- TICK_BACKWARDS (Table 22-3). -/
def tickBackwards : Status := 0x0905
/-- PTP_NOT_ENABLED (Table 22-3). -/
def ptpNotEnabled : Status := 0x0906
/-- NO_PTP_TIME (Table 22-3). -/
def noPtpTime : Status := 0x0907
/-- EPOCH_TIME_PAST (Table 22-3). -/
def epochTimePast : Status := 0x0908
/-- GROUP_PERIOD_TOO_SHORT (Table 22-3). -/
def groupPeriodTooShort : Status := 0x0909
/-- RECORD_NOT_CAPABLE (Table 22-3). -/
def recordNotCapable : Status := 0x090A
/-- NOT_RECORDING (Table 22-3). -/
def notRecording : Status := 0x090B
/-- LOG_LIMIT (Table 22-3). -/
def logLimit : Status := 0x090C
/-- NO_SUCH_LOG (Table 22-3). -/
def noSuchLog : Status := 0x090D
/-- LOG_IN_USE (Table 22-3). -/
def logInUse : Status := 0x090E
/-- LOG_MISMATCH (Table 22-3). -/
def logMismatch : Status := 0x090F
/-- REPLAY_DIVERGED (Table 22-3). -/
def replayDiverged : Status := 0x0910
/-- REPLAY_INPUT_MISSING (Table 22-3). -/
def replayInputMissing : Status := 0x0911
/-- REPLAY_ABORTED (Table 22-3). -/
def replayAborted : Status := 0x0912
/-- HOLDUP_BUSY (Table 22-3). -/
def holdupBusy : Status := 0x0A01
/-- HOLDUP_NO_BANK (Table 22-3). -/
def holdupNoBank : Status := 0x0A02
/-- HOLDUP_TEST_FAILED (Table 22-3). -/
def holdupTestFailed : Status := 0x0A03
/-- HOLDUP_ABORTED (Table 22-3). -/
def holdupAborted : Status := 0x0A04
/-- TABLE_KIND_MISMATCH (Table 22-3). -/
def tableKindMismatch : Status := 0x0B01
/-- TABLE_HELD (Table 22-3). -/
def tableHeld : Status := 0x0B02
/-- TABLE_IMAGE_BAD (Table 22-3). -/
def tableImageBad : Status := 0x0B03
/-- TABLE_FULL (Table 22-3). -/
def tableFull : Status := 0x0B04
/-- TABLE_LIMIT (Table 22-3). -/
def tableLimit : Status := 0x0B05
/-- GENERATION_LIMIT (Table 22-3). -/
def generationLimit : Status := 0x0B06
/-- TABLE_EXACT_IN_USE (Table 22-3). -/
def tableExactInUse : Status := 0x0B07
/-- DEDUP_NO_ROOM (Table 22-3). -/
def dedupNoRoom : Status := 0x0B08
/-- NO_SUCH_TABLE (Table 22-3). -/
def noSuchTable : Status := 0x0B09
/-- BUILD_INTERRUPTED (Table 22-3). -/
def buildInterrupted : Status := 0x0B0A
/-- VOCAB_SLOT_OWNED (Table 22-3). -/
def vocabSlotOwned : Status := 0x0C01
/-- VOCAB_HELD (Table 22-3). -/
def vocabHeld : Status := 0x0C02
/-- VOCAB_SPACE (Table 22-3). -/
def vocabSpace : Status := 0x0C03
/-- VOCAB_IMAGE_BAD (Table 22-3). -/
def vocabImageBad : Status := 0x0C04
/-- VOCAB_EMPTY (Table 22-3). -/
def vocabEmpty : Status := 0x0C05
/-- VOCAB_INTERRUPTED (Table 22-3). -/
def vocabInterrupted : Status := 0x0C06
/-- STREAM_EXISTS (Table 22-3). -/
def streamExists : Status := 0x0D01
/-- WINDOW_FULL (Table 22-3). -/
def windowFull : Status := 0x0D02
/-- EPOCH_SIZE_BAD (Table 22-3). -/
def epochSizeBad : Status := 0x0D03
/-- PROGRAM_KIND_MISMATCH (Table 22-3). -/
def programKindMismatch : Status := 0x0D04
/-- TENANT_EXISTS (Table 22-3). -/
def tenantExists : Status := 0x0E01
/-- FUNCTION_ABSENT (Table 22-3). -/
def functionAbsent : Status := 0x0E02
/-- TENANT_DRAINING (Table 22-3). -/
def tenantDraining : Status := 0x0E03
/-- TENANT_ENABLED (Table 22-3). -/
def tenantEnabled : Status := 0x0E04
/-- TENANT_NOT_ENABLED (Table 22-3). -/
def tenantNotEnabled : Status := 0x0E05
/-- DRAIN_ABORTED (Table 22-3). -/
def drainAborted : Status := 0x0E06
/-- KEY_NOT_EMPTY (Table 22-3). -/
def keyNotEmpty : Status := 0x0F01
/-- SIDEBAND_OPCODE (Table 22-3). -/
def sidebandOpcode : Status := 0x0F02
/-- SIDEBAND_UNAVAILABLE (Table 22-3). -/
def sidebandUnavailable : Status := 0x0F03
/-- SIDEBAND_BUSY (Table 22-3). -/
def sidebandBusy : Status := 0x0F04
/-- FW_SVN_LOW (Table 22-3). -/
def fwSvnLow : Status := 0x1001
/-- FW_WRITE_FAILED (Table 22-3). -/
def fwWriteFailed : Status := 0x1002
/-- FW_NOT_STAGED (Table 22-3). -/
def fwNotStaged : Status := 0x1003
/-- FW_BUSY (Table 22-3). -/
def fwBusy : Status := 0x1004
/-- NOT_IN_HOLD (Table 22-3). -/
def notInHold : Status := 0x1005
/-- TOPOLOGY_ACK_STALE (Table 22-3). -/
def topologyAckStale : Status := 0x1006

end Status

end Sys2Proof
end

