-- ==== Sys2Proof/Machine/State/Hearth.lean ====
section
/-!
DEFINITION. Machine/State/Hearth.lean: the state of the mailbox windows, tickets, events, parameters and configuration (file 04 of the spec).
-/
namespace Sys2Proof.Machine

/-- STATE of MBX_STATUS (Table 04-9). -/
inductive MbxState where
  | idle | busy | done
  deriving DecidableEq, Repr

/-- An event before it is written into a ring (Table 04-17): `detail` holds bytes 20 to 62. -/
structure Event where
  code : Nat
  status : Nat
  ticket : Nat
  tick : Nat
  subject : Nat
  detail : List Byte
  deriving DecidableEq, Repr

/-- A ticket outstanding in a window (R147), with what its command owns until it completes (R145). -/
structure Ticket where
  num : Nat
  opcode : Nat
  /-- The object the command names, for OPERATION_BUSY (Table 04-21). -/
  object : Nat
  issueTick : Nat
  sgl : List SglEntry
  data : List Byte
  req : List Byte
  deriving DecidableEq, Repr

/-- One mailbox window (Table 04-6). -/
structure Win where
  tag : Nat
  ignored : Bool
  state : MbxState
  eventPending : Bool
  donePending : Bool
  eventEn : Bool
  doneEn : Bool
  head : Nat
  tail : Nat
  phase : Bool
  /-- The request area, offsets 0x040 to 0x7FF; an unlisted byte reads as 0. -/
  reqArea : Mem
  /-- The response area, offsets 0x800 to 0xFFF. -/
  resp : List Byte
  /-- BASE of the event ring (R151), none before SET_EVENT_RING. -/
  ring : Option Nat
  /-- Events staged under R154, oldest first. -/
  staged : List Event
  /-- Events dropped since the last EVENTS_LOST. -/
  dropped : Nat
  /-- The number of the next ticket (R147). -/
  nextTicket : Nat
  /-- Whether the ticket count has passed 2³² − 1, after which every non-zero number has been issued. -/
  ticketsWrapped : Bool
  tickets : List Ticket
  deriving DecidableEq, Repr

/-- A window at reset (Tables 04-7 to 04-12). -/
def Win.init : Win :=
  { tag := 0, ignored := false, state := .idle, eventPending := false, donePending := false, eventEn := false, doneEn := false,
    head := 0, tail := 0, phase := true, reqArea := [], resp := [], ring := none, staged := [], dropped := 0, nextTicket := 1,
    ticketsWrapped := false, tickets := [] }

/-- A parameter value accepted and not yet in force (R164, R168). -/
structure PendingParam where
  id : Nat
  index : Nat
  value : Nat
  /-- EFFECTIVE_TICK as the response reports it. -/
  eff : Nat
  deriving DecidableEq, Repr

/-- A record of the configuration copy in use (Table 04-26). -/
structure CfgRecord where
  id : Nat
  rsv : Nat
  index : Nat
  value : Nat
  deriving DecidableEq, Repr

/-- STATE of DEVICE_STATE (Table 04-5). -/
inductive DevState where
  | boot | recovery | hold | ready | halted
  deriving DecidableEq, Repr

/-- What the block does to the world outside it, in the order it does it.
The outputs are kept in the state so that statements can name them. -/
inductive Output where
  /-- A DMA write of the function of window `fn` (a tenant id, or 1,024 for PF1's administrative window) to host memory. -/
  | hostWrite (fn : Nat) (addr : Nat) (data : List Byte)
  /-- An MSI-X message of the window (R140). -/
  | msix (win : Nat)
  /-- An RDMA WRITE of a queue pair. -/
  | rdmaWrite (qpn : Nat) (addr : Nat) (rkey : Nat) (data : List Byte)
  /-- An RDMA READ request of a queue pair: address, key and length. -/
  | rdmaRead (qpn : Nat) (addr : Nat) (rkey : Nat) (len : Nat)
  /-- An RDMA FLUSH of a queue pair (R505). -/
  | rdmaFlush (qpn : Nat) (addr : Nat) (rkey : Nat) (len : Nat)
  /-- A peer-read message sent as an RDMA SEND of a queue pair. -/
  | rdmaSend (qpn : Nat) (data : List Byte)
  /-- An RDMA READ response of a queue pair. -/
  | rdmaReadResponse (qpn : Nat) (data : List Byte)
  /-- A retransmission of a queue pair's unacknowledged packets (R492). -/
  | rdmaRetry (qpn : Nat)
  /-- A frame sent on an Ethernet port. -/
  | ethFrame (port : Nat) (data : List Byte)
  /-- A frame driven on the TICK bus (R590). -/
  | tickFrame (data : List Byte)
  /-- A pulse on TICKOUT. -/
  | tickPulse
  /-- An NVMe completion: submission queue, command id, status type and code, result dword. -/
  | nvmeCompletion (sq cid sct sc result : Nat)
  /-- NVMe data written to the host for a command. -/
  | nvmeData (sq cid : Nat) (data : List Byte)
  /-- An MCTP message sent to an endpoint of the sideband, with the tag of the request. -/
  | mctp (dest tag : Nat) (data : List Byte)
  /-- Bytes returned by a read of a register. -/
  | readData (data : List Byte)
  /-- A Tongs buffer given out. -/
  | buffer (handle : Nat)
  /-- The array that a move of a Swage leaves (R327), with the block. -/
  | moved (block : Nat) (data : List Byte)
  /-- A compressed stream that its context has ended (R309). -/
  | compressed (ctx : Nat) (data : List Byte)
  /-- Bits shifted out on TDO, the first first. -/
  | tdo (bits : List Bool)
  deriving DecidableEq, Repr

/-- The state of the Hearth's command protocol. -/
structure Hearth where
  /-- STATE of DEVICE_STATE. -/
  state : DevState
  /-- BOOT_STEP of DEVICE_STATE. -/
  bootStep : Nat
  /-- FW_VERSION (Table 04-3). -/
  fwVersion : Nat
  /-- The windows that differ from a window at reset, by window number. -/
  wins : AMap Win
  /-- Parameter values in force that were set, keyed by id and INDEX. -/
  params : AMap Nat
  pend : List PendingParam
  /-- PERIOD_AT_TICK as stored since the previous period change (R170). -/
  periodAt : Option Nat
  /-- Counters, keyed by id and INDEX; an unlisted counter reads 0. -/
  counters : AMap Nat
  /-- The configuration copy in use: A is 0, B is 1, none for factory defaults (R178). -/
  cfgInUse : Option Nat
  /-- Records of tenant, reservoir and stream scope kept for objects to come (R179). -/
  cfgRecords : List CfgRecord
  /-- HOST_TAG values recorded in the Hearth log (Table 04-19a), newest first. -/
  log : List (Nat × Nat)
  /-- Hearth application cores in service (R82). -/
  cores : List Nat
  /-- Functions whose Bus Master Enable is 1, by window number (R541). -/
  busMaster : List Nat
  /-- VFs enabled by the SR-IOV control (R539). -/
  vfs : List Nat
  /-- The device halts: it drains every function, and DEVICE_HALTED follows (R81, R82). -/
  halting : Bool
  deriving DecidableEq, Repr

/-- The Hearth at reset. -/
def Hearth.init : Hearth :=
  { state := .boot, bootStep := 1, fwVersion := 0, wins := [], params := [], pend := [], periodAt := none, counters := [], cfgInUse := none,
    cfgRecords := [], log := [], cores := [0, 1, 2, 3, 4, 5, 6, 7], busMaster := [], vfs := [], halting := false }

end Sys2Proof.Machine
end

