-- ==== Sys2Proof/Machine/State/Host.lean ====
section
/-!
DEFINITION. Machine/State/Host.lean: PF0 (NVMe), the MCTP endpoint, the recovery port and JTAG (files 19 and 21 of the spec).
-/
namespace Sys2Proof.Machine

/-- An I/O submission queue: size and completion queue. -/
structure SubQ where
  size : Nat
  cq : Nat
  deriving DecidableEq, Repr

/-- An NVMe command that is outstanding: a Write that awaits room under DIRTY_PERMIT, or a Read that awaits media. -/
structure NvmeCmd where
  id : Nat
  sq : Nat
  cid : Nat
  /-- 1 Write, 2 Read. -/
  kind : Nat
  nsid : Nat
  lba : Nat
  blocks : Nat
  /-- Chunks that a Write of a dataset namespace still owes, by extent. -/
  owes : List (Nat × Nat)
  /-- The data of a Write of the scratch namespace. -/
  data : List Byte
  deriving DecidableEq, Repr

/-- A self-test that runs (R652). -/
structure SelfTest where
  code : Nat
  segment : Nat
  suspended : Bool
  deriving DecidableEq, Repr

/-- A Device Self-test log result (R655). -/
structure SelfTestLog where
  code : Nat
  result : Nat
  segment : Nat
  /-- The failing die, with the namespace field 0xFFFF_FFFF. -/
  die : Option Nat
  deriving DecidableEq, Repr

/-- PF0. -/
structure Nvme where
  ccEn : Bool
  cqs : AMap Nat
  sqs : AMap SubQ
  cmds : List NvmeCmd
  nextCmd : Nat
  /-- Asynchronous event requests outstanding: command ids. -/
  aers : List Nat
  /-- Events awaiting a request: type, information, log page. -/
  events : List (Nat × Nat × Nat)
  aec : Nat
  apste : Bool
  /-- The 32 entries of the APST table. -/
  apst : List Nat
  numQueues : Nat
  test : Option SelfTest
  tests : List SelfTestLog
  /-- Attached dataset namespaces, by dataset id. -/
  attached : List Nat
  /-- Errors so far, and the last: submission queue, command id, status. -/
  errorCount : Nat
  lastError : Option (Nat × Nat × Nat)
  /-- A sanitize that runs: Block Erase or not. -/
  sanitize : Option Bool
  deriving DecidableEq, Repr

/-- PF0 at reset. -/
def Nvme.init : Nvme :=
  { ccEn := false, cqs := [], sqs := [], cmds := [], nextCmd := 1, aers := [], events := [], aec := 0, apste := false,
    apst := List.replicate 32 0, numQueues := 64, test := none, tests := [], attached := [], errorCount := 0, lastError := none, sanitize := none }

/-- An MCTP message that is being assembled: its source and tag, the next sequence number, and the bytes so far (R661). -/
structure MctpAssembly where
  source : Nat
  tagOwner : Bool
  tag : Nat
  seq : Nat
  bytes : List Byte
  deriving DecidableEq, Repr

/-- The I3C target and its MCTP endpoint (R661 to R663). -/
structure Mctp where
  eid : Nat
  /-- Dynamic I3C address, none while the static address 0x3A serves. -/
  dynAddr : Option Nat
  assembly : Option MctpAssembly
  deriving DecidableEq, Repr

/-- The recovery port (R664 to R666). -/
structure Recovery where
  result : Nat
  ignored : Bool
  dataReady : Bool
  busy : Bool
  args : List Nat
  progress : Nat
  count : Nat
  /-- REC_DATA; an unlisted byte reads as 0. -/
  data : Mem
  index : Nat
  deriving DecidableEq, Repr

/-- The instructions of the JTAG port (R702). -/
inductive JtagIr where
  | bypass | idcode | samplePreload | extest
  deriving DecidableEq, Repr

/-- The JTAG port (R702): its instruction, its boundary register, and whether EXTEST drives the pins. -/
structure Jtag where
  ir : JtagIr
  boundary : List Bool
  extest : Bool
  deriving DecidableEq, Repr

/-- The sideband paths and JTAG at power-on. -/
structure Side where
  mctp : Mctp
  recov : Recovery
  jtag : Jtag
  deriving DecidableEq, Repr

/-- The sideband paths at reset. -/
def Side.init : Side :=
  { mctp := { eid := 0, dynAddr := none, assembly := none },
    recov := { result := 0, ignored := false, dataReady := false, busy := false, args := [0, 0, 0, 0], progress := 0, count := 0, data := [],
               index := 0 },
    jtag := { ir := .idcode, boundary := [], extest := false } }

end Sys2Proof.Machine
end

