-- ==== Sys2Proof/Machine/State/Program.lean ====
section
/-!
DEFINITION. Machine/State/Program.lean: loaded stage programs (file 05 of the spec).
-/
namespace Sys2Proof.Machine

/-- An op record (Table 05-2). -/
structure OpRec where
  opcode : Nat
  vary : Bool
  exactAlt : Bool
  grain : Nat
  cls : Nat
  inA : Nat
  inB : Nat
  costK : Nat
  exactK : Nat
  outMax : Nat
  placeGroup : Nat
  stateOff : Nat
  stateLen : Nat
  params : List Byte
  deriving DecidableEq, Repr

/-- The states of a program slot (Table 05-5); an unlisted slot is EMPTY. -/
inductive SlotState where
  | loading | loaded | unloading
  deriving DecidableEq, Repr

/-- A program slot that is not EMPTY (R191 to R199). -/
structure Prog where
  state : SlotState
  tenant : Nat
  requireExact : Bool
  /-- Window and ticket of the outstanding load or unload. -/
  ticket : Option (Nat × Nat)
  format : Nat
  ops : List OpRec
  consts : List Byte
  models : List (List Byte)
  placement : List Byte
  digest : List Byte
  tag : Nat
  minPeriod : Nat
  /-- Step 7 of the validation has passed, so MIN_PERIOD_US bounds the period (R197). -/
  bounding : Bool
  exactCapable : Bool
  pages : Nat
  loadTick : Nat
  /-- BINARY_LEN and the binary, while the slot is LOADING. -/
  binary : List Byte
  /-- Its place in the order of acceptance of loads (R142, R380). -/
  loadSeq : Nat
  /-- The outcome of the validation, once it has run: status and FAILED_OP. -/
  verdict : Option (Nat × Nat)
  deriving DecidableEq, Repr

/-- A slot that a PROGRAM_LOAD has just taken. -/
def Prog.loadingFor (tenant : Nat) (requireExact : Bool) : Prog :=
  { state := .loading, tenant := tenant, requireExact := requireExact, ticket := none, format := 0, ops := [], consts := [], models := [],
    placement := [], digest := [], tag := 0, minPeriod := 0, bounding := false, exactCapable := false, pages := 0, loadTick := 0,
    binary := [], loadSeq := 0, verdict := none }

end Sys2Proof.Machine
end

