-- ==== Sys2Proof/Machine/State/Screen.lean ====
section
/-!
DEFINITION. Machine/State/Screen.lean: Screen tables (file 12 of the spec) and vocabulary slots (file 13).
-/
namespace Sys2Proof.Machine

/-- Who wrote an entry of a dedup generation (Table 12-2): a BASE entry has neither stream, epoch nor position. -/
structure EntryOwner where
  base : Bool
  stream : Nat
  epoch : Nat
  pos : Nat
  /-- Its epoch is over: it matches nothing new, and a sweep frees it (R413). -/
  dead : Bool
  deriving DecidableEq, Repr

/-- A VALID entry of an EXACT_DEDUP generation, with its bucket (Table 12-2). -/
structure ExactEntry where
  bucket : Nat
  key : List Byte
  owner : EntryOwner
  deriving DecidableEq, Repr

/-- A VALID record of a NEAR_DEDUP generation, with its index (Table 12-3). -/
structure NearRec where
  index : Nat
  sig : List Byte
  owner : EntryOwner
  deriving DecidableEq, Repr

/-- A VALID band entry of a NEAR_DEDUP generation (R414). -/
structure BandEntry where
  bucket : Nat
  band : Nat
  value : Nat
  record : Nat
  deriving DecidableEq, Repr

/-- A generation of a Screen table (R397, R401, R407, R414), or the private partition of an epoch (R412). -/
structure Gen where
  num : Nat
  capacity : Nat
  dfltAction : Nat
  bandLog : Nat
  maxHamming : Nat
  /-- Rule entries that are not EMPTY, by index, as their 64 bytes. -/
  rules : AMap (List Byte)
  /-- In the order of their insertion. -/
  exact : List ExactEntry
  near : List NearRec
  bands : List BandEntry
  /-- The record free list: those never taken from `fresh` up, then those freed, oldest first. -/
  fresh : Nat
  freed : List Nat
  deriving DecidableEq, Repr

/-- A build in progress (R417 to R421). -/
structure Build where
  gen : Gen
  ticket : Nat × Nat
  /-- The build has completed; the swap is at the next boundary. -/
  built : Bool
  /-- A deletion: nothing is built. -/
  delete : Bool
  /-- Updates that took effect since the acceptance, in order, for the new generation. -/
  updates : List (Nat × List Byte)
  deriving DecidableEq, Repr

/-- A Screen table (R396): none current before the first swap. -/
structure ScrTable where
  kind : Nat
  current : Option Gen
  build : Option Build
  retired : List Gen
  /-- Updates accepted for the next boundary: operation (0 add, 1 remove) and entry, in request order (R424). -/
  updates : List (Nat × List Byte)
  /-- DEDUP_TABLE_FULL has been posted in the running tick (R411). -/
  fullPosted : Bool
  deriving DecidableEq, Repr

/-- A sweep that is due (R413): the generation, and whose run entries it frees. -/
structure Sweep where
  table : Nat
  gen : Nat
  stream : Nat
  epoch : Nat
  deriving DecidableEq, Repr

/-- The tables, by tenant × 1,024 + TABLE; the partitions of Exact-mode epochs, by stream × 1,024 + TABLE; and the sweeps due. -/
structure Screen where
  tables : AMap ScrTable
  parts : AMap Gen
  sweeps : List Sweep
  deriving DecidableEq, Repr

/-- A vocabulary slot that is not EMPTY (R432): the resident image, if there is one, and the load that runs. -/
structure Vocab where
  tenant : Nat
  image : Option (List Byte)
  /-- Window and ticket of the outstanding VOCAB_LOAD, its image (none for a DELETE), and the slot's owner before it. -/
  load : Option (Nat × Nat × Option (List Byte))
  deriving DecidableEq, Repr

/-- No table and no sweep. -/
def Screen.init : Screen := { tables := [], parts := [], sweeps := [] }

end Sys2Proof.Machine
end

