-- ==== Sys2Proof/Machine/State/Stream.lean ====
section
/-!
DEFINITION. Machine/State/Stream.lean: streams, their samples and their billets (files 03, 14 and 15 of the spec).
-/
namespace Sys2Proof.Machine

/-- STATE of a stream context (Table 03-4); FREE is the absence of the stream. -/
inductive StreamState where
  | idle | running | paused | draining | rehoming | lost
  deriving DecidableEq, Repr

/-- The output of a completed op with the Tongs buffers that hold it. -/
structure OpOut where
  op : Nat
  value : Value
  bufs : List Nat
  deriving DecidableEq, Repr

/-- How far a sample has come (R461, R463). -/
inductive SampleState where
  /-- Its ops before WINDOW_PUT are not complete. -/
  | flight
  /-- Resident in the window. -/
  | resident
  /-- Skipped as corrupt, with the reason. -/
  | corrupt (reason : Nat)
  /-- Screened out, or passed over as stale. -/
  | screened
  /-- Taken by assembly. -/
  | taken
  deriving DecidableEq, Repr

/-- A sample of a stream's epoch, keyed by its position in the global permutation, or by its ingest sequence. -/
structure Sample where
  index : Nat
  state : SampleState
  outs : List OpOut
  /-- Screen marks: bit 0 exact repeat, bit 1 near repeat (R406). -/
  marks : Nat
  /-- Capture time of an ingest frame in ns (R529). -/
  capture : Nat
  /-- Ops that have completed. -/
  done : List Nat
  /-- The tick at which it is expected (R246). -/
  due : Nat
  /-- A buffer held its directory page when its read was made (R233). -/
  dirHeld : Bool
  deriving DecidableEq, Repr

/-- A sample placed in a billet (R471, R472). -/
structure Placed where
  pos : Nat
  index : Nat
  flags : Nat
  value : Value
  bufs : List Nat
  /-- Tokens placed. -/
  tokens : Nat
  deriving DecidableEq, Repr

/-- A segment of a SEQUENCE billet (R478). -/
structure Segment where
  row : Nat
  start : Nat
  length : Nat
  sample : Nat
  piece : Nat
  deriving DecidableEq, Repr

/-- A billet, open or closed (R466, R469). -/
structure Billet where
  /-- STREAM_BILLET, once closed. -/
  num : Nat
  bucket : Nat
  samples : List Placed
  segments : List Segment
  /-- Free tokens of each row, of a SEQUENCE billet. -/
  rows : List Nat
  hammer : Nat
  /-- Tick boundaries since the placement of its oldest sample, and the draws decided or taken at that placement (R470). -/
  ageTicks : Nat
  oldDraws : Nat
  aged : Bool
  isPartial : Bool
  isLast : Bool
  /-- PACK work items not complete. -/
  packLeft : Nat
  /-- The DIGEST state after this billet (R575). -/
  digest : List Byte
  closeTick : Nat
  /-- The reservoir that it is dealt to (R474). -/
  res : Option Nat
  deriving DecidableEq, Repr

/-- A deferred sample (R32, R35). -/
structure Deferred where
  pos : Nat
  epoch : Nat
  tick : Nat
  /-- DEFER_STALLED events posted. -/
  stalls : Nat
  /-- The draw index, for the replay log. -/
  draw : Nat
  deriving DecidableEq, Repr

/-- A command accepted and not yet in effect on a stream (R483, R484). -/
inductive StreamCmd where
  | epochStart (tick epoch size permKey winKey : Nat) (exact : Bool) (dealing : List Nat)
  | pause (tick : Nat)
  | resume (tick : Nat)
  deriving DecidableEq, Repr

/-- A digest record (R576). -/
structure DigestRec where
  tick : Nat
  billets : Nat
  digest : List Byte
  deriving DecidableEq, Repr

/-- The match key of a live-ingest stream (Table 15-7). -/
structure IngestKey where
  udpPort : Nat
  vniMatch : Bool
  portMask : Nat
  vni : Nat
  deriving DecidableEq, Repr

/-- What a live-ingest stream keeps. -/
structure Ingest where
  key : IngestKey
  matching : Bool
  nextSeq : Nat
  /-- Window and ticket of each INGEST_CLOSE, and the tick of its acceptance. -/
  closing : List (Nat × Nat × Nat)
  deriving DecidableEq, Repr

/-- A stream: its context (Table 03-3), and what the units keep for it. -/
structure Stream where
  tenant : Nat
  dataset : Nat
  state : StreamState
  mode : Bool
  modeNext : Bool
  slot : Nat
  epoch : Nat
  cursor : Nat
  size : Nat
  permKey : Nat
  winKey : Nat
  winCtr : Nat
  resMap : Nat
  emitted : Nat
  eSubst : Nat
  eDefer : Nat
  eReinsert : Nat
  eSkip : Nat
  startTick : Nat
  digest : List Byte
  staleness : Nat
  lastWrite : Nat
  stageState : List Byte
  writeCount : Nat
  /-- Home region and slot (Table 03-2). -/
  home : Nat
  homeSlot : Nat
  depth : Nat
  ingest : Option Ingest
  /-- Commands accepted and not yet in effect, in order of acceptance. -/
  cmds : List StreamCmd
  /-- The dealing set of the epoch (R474). -/
  dealing : List Nat
  /-- The logical window: positions in slot order (R459). -/
  window : List Nat
  /-- Draws decided or taken. -/
  draws : Nat
  /-- Samples taken in the epoch. -/
  taken : Nat
  samples : AMap Sample
  /-- The next position the Face reads (R246). -/
  readPos : Nat
  /-- Directory pages that the epoch has read, and which a buffer holds: extent, page (R233). -/
  dirPages : List (Nat × Nat)
  open_ : List Billet
  /-- Closed billets not yet handed to the Haul or dropped, by STREAM_BILLET. -/
  closed : List Billet
  nextBillet : Nat
  /-- The epoch has closed its last billets (R467). -/
  ended : Bool
  deferred : List Deferred
  records : List DigestRec
  /-- SAMPLE_CORRUPT events raised in the tick (R292). -/
  corruptThisTick : Nat
  /-- Window and ticket of a STREAM_DELETE, and the tick of its acceptance. -/
  deleting : Option (Nat × Nat × Nat)
  /-- The state to return to after re-homing (R112). -/
  resumeState : StreamState
  /-- The log that the stream is armed for or records into (R579), and whether it records. -/
  log : Option (Nat × Bool)
  /-- The log that a replay stream runs (R584), the substitutes that its running trial still owes, and the billets that trial is to close (R585). -/
  replayOf : Option Nat
  owed : Nat
  want : Nat
  /-- Screen generations pinned by the epoch: table, generation (R398). -/
  pins : List (Nat × Nat)
  deriving DecidableEq, Repr

/-- A stream just created (R97, R482). -/
def Stream.created (tenant dataset slot depth home homeSlot : Nat) (modeNext : Bool) (tick : Nat) : Stream :=
  { tenant := tenant, dataset := dataset, state := .idle, mode := false, modeNext := modeNext, slot := slot, epoch := 0, cursor := 0, size := 0,
    permKey := 0, winKey := 0, winCtr := 0, resMap := 0, emitted := 0, eSubst := 0, eDefer := 0, eReinsert := 0, eSkip := 0, startTick := 0,
    digest := List.replicate 32 0, staleness := 0, lastWrite := tick, stageState := List.replicate 40 0, writeCount := 1, home := home,
    homeSlot := homeSlot, depth := depth, ingest := none, cmds := [], dealing := [], window := [], draws := 0, taken := 0,
    samples := [], readPos := 0, dirPages := [], open_ := [], closed := [], nextBillet := 0, ended := false, deferred := [], records := [], corruptThisTick := 0,
    deleting := none, resumeState := .idle, log := none, replayOf := none, owed := 0, want := 0, pins := [] }

end Sys2Proof.Machine
end

