-- ==== Sys2Proof/Machine/State/Tenant.lean ====
section
/-!
DEFINITION. Machine/State/Tenant.lean: tenants, their shapers, policers, gates and drains (file 16 of the spec).
-/
namespace Sys2Proof.Machine

/-- Tenant states (Table 16-1); ABSENT is the absence of the tenant. -/
inductive TenantState where
  | enabled | draining | disabled | deleting
  deriving DecidableEq, Repr

/-- The two-rate three-colour marker of a tenant's live ingest (R552); the buckets are exact in 2⁻¹⁶ bytes. -/
structure Policer where
  cir : Nat
  pir : Nat
  cbsKib : Nat
  pbsKib : Nat
  tc : Nat
  tp : Nat
  /-- Arrival time in ns of the last frame metered. -/
  last : Option Nat
  deriving DecidableEq, Repr

/-- A gate list (Table 16-5): entries of a duration and the classes open. -/
structure GateList where
  start : Nat
  cycle : Bool
  entries : List (Nat × Nat)
  deriving DecidableEq, Repr

/-- A drain in progress (R560). -/
structure Drain where
  /-- The trigger that started it (R567). -/
  trigger : Nat
  /-- Tickets to complete with it: window, ticket, opcode. -/
  tickets : List (Nat × Nat × Nat)
  b0 : Option Nat
  reservoirs : Nat
  /-- TOTAL of its audit, once complete. -/
  total : Option Nat
  /-- The drain is over and removal runs (R565). -/
  removing : Bool
  deriving DecidableEq, Repr

/-- A tenant that is not ABSENT. -/
structure Tenant where
  state : TenantState
  policer : Option Policer
  /-- Committed and peak bucket in bytes (R549). -/
  tc : Int
  tp : Int
  gates : Option GateList
  gatesPending : Option GateList
  drain : Option Drain
  /-- Queue samples of the last boundary: depth and delay by class (R557). -/
  depth : List Nat
  delay : List Nat
  /-- The window area: region and pages (R729). -/
  window : Option (Nat × Nat)
  deriving DecidableEq, Repr

/-- A tenant just created, with its buckets full (R538, R549). -/
def Tenant.created (policer : Option Policer) (cbs pbs : Int) : Tenant :=
  { state := .enabled, policer := policer, tc := cbs, tp := pbs, gates := none, gatesPending := none, drain := none,
    depth := [0, 0, 0, 0, 0], delay := [0, 0, 0, 0, 0], window := none }

end Sys2Proof.Machine
end

