-- ==== Sys2Proof/Machine/State/Tick.lean ====
section
/-!
DEFINITION. Machine/State/Tick.lean: the tick generator, the plan and the work items (files 01 and 16 of the spec).
-/
namespace Sys2Proof.Machine

/-- How far a work item has come (R22, R27). -/
inductive Phase where
  /-- Eligible, or held for a later plan. -/
  | held
  /-- In a plan frozen and not yet released, or released and not yet started. -/
  | admitted
  /-- Running on its unit. -/
  | running
  /-- Not started when its tick ended, because an item before it overran (R27). -/
  | pending
  /-- Returned to the scheduler by a fault, for the head of the next plan (R61). -/
  | reissue
  deriving DecidableEq, Repr

/-- A pair of tags in one fairness domain, with the item's cost there (R543). -/
structure Tag where
  domain : Nat
  cost : Nat
  start : Nat
  finish : Nat
  deriving DecidableEq, Repr

/-- What a work item does. -/
inductive Job where
  /-- Op `op` of the sample at `pos` of a stream. -/
  | sample (stream pos op : Nat)
  /-- The pack op for one sample of billet `num` of a stream. -/
  | pack (stream num pos : Nat)
  /-- The EMIT of billet `seq` of reservoir `res`. -/
  | emit (res seq : Nat)
  /-- A media operation of the host storage function. -/
  | storage (cmd : Nat)
  /-- A media read for a peer's request (R522). -/
  | peerServe (peer tag : Nat)
  deriving DecidableEq, Repr

/-- An output that waits for its buffers (R118): the value, the links given so far by number, how many are to come, and, for an output that grows as
it is written, the number of the buffer that it waits for (R302). -/
structure OutWait where
  value : Value
  got : List (Nat × Nat)
  left : Nat
  grow : Option Nat
  deriving DecidableEq, Repr

/-- A work item (R22). -/
structure Item where
  id : Nat
  /-- The queue: a tenant, 1,024 for the storage queue, 1,025 for maintenance, 1,026 for peer service. -/
  queue : Nat
  job : Job
  /-- COST_CLASS (Table 05-3). -/
  cls : Nat
  /-- The work-item kind whose coefficient predicts the cost (R25, R204), 0 for an item of no program. -/
  kind : Nat
  /-- The measure in the op's unit of cost, as numerator and denominator (R186). -/
  measure : Nat × Nat
  /-- Predicted cost: ns, or bytes for egress. -/
  cost : Nat
  /-- Dies charged and the cost on each, for a media item (R233). -/
  dies : List (Nat × Nat)
  due : Nat
  /-- Program order: the op's index, then the order of creation. -/
  op : Nat
  order : Nat
  /-- The tick for whose plan the item was first eligible. -/
  since : Nat
  tags : List Tag
  phase : Phase
  /-- Units held: global indices within the class; the cells of a group for a CELL item. -/
  units : List Nat
  /-- Predicted start and finish, in ns from the boundary of planTick. -/
  planStart : Nat
  planEnd : Nat
  planTick : Nat
  /-- The heat of the plan that a CELL item joins, and whether the ring sets its length (R383, R384). -/
  heat : Nat
  ringBound : Bool
  /-- ns it had run when the tick began, and ns after that boundary at which it started. -/
  ran : Nat
  startAt : Nat
  /-- The retry of a failed op runs (R59). -/
  retry : Bool
  /-- It is the probe of a demoted unit (R65). -/
  probe : Bool
  /-- The charge received at the last freeze, for R544. -/
  charged : Nat
  /-- Class of an EMIT: 0 not classed, 1 committed, 2 excess. -/
  shape : Nat
  /-- Its results are to be discarded (R485, R560). -/
  discard : Bool
  out : Option OutWait
  deriving DecidableEq, Repr

/-- The virtual time and the last finish tags of a fairness domain (R543). -/
structure Domain where
  v : Nat
  last : AMap Nat
  deriving DecidableEq, Repr

/-- The frozen plan of the next tick (R28): the items to release, the launch list (R389), and the ladder step (R612). -/
structure Plan where
  tick : Nat
  items : List Nat
  launch : List Nat
  deriving DecidableEq, Repr

/-- The tick generator and the scheduler. -/
structure Tick where
  count : Nat
  /-- The device's own clock at the last boundary, in ns: the sum of the periods since the generator started (a field of the model). -/
  clockNs : Nat
  periodUs : Nat
  /-- A scheduled period change: the period and the tick (R45). -/
  change : Option (Nat × Nat)
  hiLatch : Option Nat
  running : Bool
  resync : Bool
  source : Nat
  plan : Option Plan
  items : List Item
  nextItem : Nat
  nextOrder : Nat
  /-- Coefficients in force by work-item kind, in µs per unit (R25). -/
  coefs : AMap Rat
  /-- Measured costs per unit of the items of the tick, by kind: sum and count (R25). -/
  measured : AMap (Rat × Nat)
  domains : AMap Domain
  /-- Ticks that still run on an empty plan after a resync (R597). -/
  emptyTicks : Nat
  /-- Cells of the launch list that are yet to be released, and those that run the pre-charge workload (R390, R391). -/
  launch : List Nat
  precharge : List Nat
  deriving DecidableEq, Repr

/-- The generator at reset (R16, R18). -/
def Tick.init : Tick :=
  { count := 0, clockNs := 0, periodUs := 400, change := none, hiLatch := none, running := false, resync := false, source := 0, plan := none, items := [],
    nextItem := 1, nextOrder := 0, coefs := [], measured := [], domains := [], emptyTicks := 0, launch := [], precharge := [] }

end Sys2Proof.Machine
end

