-- ==== Sys2Proof/Machine/State/Dev.lean ====
section
/-!
DEFINITION. Machine/State/Dev.lean: everything the device holds, but for the queue of waiting commands and the negotiated versions.
-/
namespace Sys2Proof.Machine

/-- The device, one part for each chapter of the manual that gives it state. -/
structure Dev where
  hearth : Hearth
  units : Units
  tongs : Tongs
  tick : Tick
  /-- Program slots that are not EMPTY. -/
  progs : AMap Prog
  screen : Screen
  /-- Vocabulary slots that are not EMPTY. -/
  vocabs : AMap Vocab
  /-- Streams that exist, by stream id. -/
  streams : AMap Stream
  /-- Tenants that are not ABSENT. -/
  tenants : AMap Tenant
  haul : Haul
  group : Group
  face : Face
  bellows : Bellows
  nvme : Nvme
  side : Side
  boot : Boot
  /-- Free values taken so far: the argument of the next one (a field of the model, not of the spec). -/
  draws : Nat
  /-- What the block has done to the world outside it, newest first. -/
  out : List Output
  deriving DecidableEq, Repr

/-- The device at reset. -/
def Dev.init : Dev :=
  { hearth := Hearth.init, units := Units.init, tongs := Tongs.init, tick := Tick.init, progs := [], screen := Screen.init, vocabs := [], streams := [], tenants := [],
    haul := Haul.init, group := Group.init, face := Face.init, bellows := Bellows.init, nvme := Nvme.init, side := Side.init, boot := Boot.init,
    draws := 0, out := [] }

end Sys2Proof.Machine
end

