-- ==== Sys2Proof/Machine/Ops.lean ====
section
/-!
DEFINITION. Machine/Ops.lean: the operations that every command shares: counters, outputs, mailbox windows, event rings and tickets.
-/
namespace Sys2Proof.Machine

/-! ### Counters (R171) -/

/-- The greatest value of a counter. -/
def counterMax : Nat := 2 ^ 64 - 1

/-- The key of counter or parameter `id` of object `idx`. -/
def objKey (id idx : Nat) : Nat := id * 2 ^ 32 + idx

/-- The value of counter `id` of object `idx`. -/
def Dev.counter (d : Dev) (id idx : Nat) : Nat := AMap.getD d.hearth.counters (objKey id idx) 0

/-- Counter `id` of object `idx` raised by `n`; it saturates at 2⁶⁴ − 1. -/
def Dev.count (d : Dev) (id idx n : Nat) : Dev :=
  if n = 0 then d
  else { d with hearth := { d.hearth with counters := AMap.set d.hearth.counters (objKey id idx) (min counterMax (d.counter id idx + n)) } }

/-- The counters of the objects for which `p` holds set to 0. -/
def Dev.clearCounters (d : Dev) (p : Nat → Nat → Bool) : Dev :=
  { d with hearth := { d.hearth with counters := AMap.keep (fun k _ => !p (k / 2 ^ 32) (k % 2 ^ 32)) d.hearth.counters } }

/-- The internal object number of the reservoir SLIP counter, which shares its id with the tenant's (R42). -/
def slipResIndex (res : Nat) : Nat := 2 ^ 24 + res

/-! ### Outputs -/

/-- One more output. -/
def Dev.emit (d : Dev) (o : Output) : Dev := { d with out := o :: d.out }

/-! ### Windows (Table 04-6) -/

/-- Window `w`: a tenant id, or 1,024 for the administrative window. -/
def Dev.win (d : Dev) (w : Nat) : Win := AMap.getD d.hearth.wins w Win.init

/-- The device with window `w` replaced. -/
def Dev.setWin (d : Dev) (w : Nat) (x : Win) : Dev := { d with hearth := { d.hearth with wins := AMap.set d.hearth.wins w x } }

/-- The device with window `w` changed by `f`. -/
def Dev.modWin (d : Dev) (w : Nat) (f : Win → Win) : Dev := d.setWin w (f (d.win w))

/-- The function behind window `w`: PF1 is 1,024 and serves tenant 0 as well (R134). -/
def fnOf (w : Nat) : Nat := if w = 0 then 1024 else w

/-- Whether the function of window `w` may master the bus (R541). -/
def Dev.busMaster (d : Dev) (w : Nat) : Bool := d.hearth.busMaster.contains (fnOf w)

/-- EVENT_PENDING of window `w` set, with its message (R140). -/
def Dev.eventPending (d : Dev) (w : Nat) : Dev :=
  let x := d.win w
  let d' := d.setWin w { x with eventPending := true }
  if x.eventEn && !x.eventPending then d'.emit (.msix w) else d'

/-- DONE_PENDING of window `w` set, with its message (R140). -/
def Dev.donePending (d : Dev) (w : Nat) : Dev :=
  let x := d.win w
  let d' := d.setWin w { x with donePending := true }
  if x.doneEn && !x.donePending then d'.emit (.msix w) else d'

/-! ### Event rings (R152 to R154) -/

/-- Entries of a ring. -/
def ringEntries : Nat := 4096

/-- Whether a ring has room: at most 4,095 entries are unconsumed (R153). -/
def Win.hasRoom (x : Win) : Bool := decide ((x.tail + ringEntries - x.head) % ringEntries < ringEntries - 1)

/-- Bytes 0 to 62 of an event entry (Table 04-17). -/
def Event.bytes (e : Event) : List Byte :=
  leBytes 2 e.code ++ leBytes 2 e.status ++ leBytes 4 e.ticket ++ leBytes 8 e.tick ++ leBytes 4 e.subject ++ padTo e.detail 43

/-- One entry written at TAIL of window `w`, whose ring starts at `base` (R152, R153). -/
def Dev.writeEntry (d : Dev) (w base : Nat) (e : Event) : Dev :=
  let x := d.win w
  let a := base + 64 * x.tail
  let d := (d.emit (.hostWrite (fnOf w) a e.bytes)).emit (.hostWrite (fnOf w) (a + 63) [byteOf (bitNat x.phase)])
  let t := (x.tail + 1) % ringEntries
  let d := d.setWin w { x with tail := t, phase := if t = 0 then !x.phase else x.phase }
  d.eventPending w

/-- Staged events posted while entries are free; a count of dropped events goes first (R154). -/
def Dev.postStaged (fuel : Nat) (w : Nat) (d : Dev) : Dev :=
  match fuel with
  | 0 => d
  | f + 1 =>
    let x := d.win w
    match x.ring with
    | none => d
    | some base =>
      if !x.hasRoom || !d.busMaster w then d
      else if 0 < x.dropped then
        let e : Event := { code := EventCode.eventsLost, status := 0, ticket := 0, tick := d.tick.count, subject := 0, detail := leBytes 8 x.dropped }
        Dev.postStaged f w ((d.setWin w { x with dropped := 0 }).writeEntry w base e)
      else
        match x.staged with
        | [] => d
        | e :: r => Dev.postStaged f w ((d.setWin w { x with staged := r }).writeEntry w base e)

/-- Every staged event of window `w` that finds a free entry, posted. -/
def Dev.flushStaged (d : Dev) (w : Nat) : Dev := Dev.postStaged ((d.win w).staged.length + 1) w d

/-- Events other than TICKET_DONE that a window stages at most (R154). -/
def stagedMax : Nat := 16384

/-- An event raised for window `w`: posted, staged or dropped (R153 to R155). -/
def Dev.post (d : Dev) (w : Nat) (e : Event) : Dev :=
  let x := d.win w
  let isTicket := e.code == EventCode.ticketDone
  if !isTicket && decide (stagedMax ≤ x.staged.countP (fun s => s.code != EventCode.ticketDone)) then
    (d.setWin w { x with dropped := x.dropped + 1 }).count Counter.eventsDropped w 1
  else (d.setWin w { x with staged := x.staged ++ [e] }).flushStaged w

/-- The DETAIL of an event, bytes 20 to 62, from fields given by byte offset in the entry, width and value. -/
def detailOf (fs : List (Nat × Nat × Nat)) : List Byte :=
  fs.foldl (fun b (o, w, v) => overlay b (o - 20) (leBytes w v)) (zeros 43)

/-- An event with code, subject and DETAIL fields raised for window `w`. -/
def Dev.event (d : Dev) (w code subject : Nat) (fs : List (Nat × Nat × Nat)) : Dev :=
  d.post w { code := code, status := 0, ticket := 0, tick := d.tick.count, subject := subject, detail := detailOf fs }

/-- The number of the administrative window. -/
def adminWin : Nat := 1024

/-! ### Tickets (R147 to R150) -/

/-- Tickets that may be outstanding in a window (R148). -/
def ticketsMax : Nat := 64

/-- The number after ticket `n`: 0 is skipped (R147). -/
def nextTicketAfter (n : Nat) : Nat := if (n + 1) % 2 ^ 32 = 0 then 1 else n + 1

/-- A ticket issued in window `w` for a request, with the object it names. -/
def Dev.issueTicket (d : Dev) (w opcode object : Nat) (r : Request) : Dev × Nat :=
  let x := d.win w
  let n := x.nextTicket
  let t : Ticket := { num := n, opcode := opcode, object := object, issueTick := d.tick.count, sgl := r.sgl, data := r.data, req := r.payload }
  (d.setWin w { x with nextTicket := nextTicketAfter n, ticketsWrapped := x.ticketsWrapped || nextTicketAfter n == 1, tickets := x.tickets ++ [t] }, n)

/-- Ticket `n` of window `w`, while it is outstanding. -/
def Dev.ticket? (d : Dev) (w n : Nat) : Option Ticket := (d.win w).tickets.find? (fun t => t.num == n)

/-- The bytes a scatter list can hold. -/
def sglBytes (l : List SglEntry) : Nat := sumNat (l.map SglEntry.len)

/-- The bytes `bs` written over the segments of a list from byte `o` of it, as host writes of function `fn`. -/
def Dev.writeSgl (d : Dev) (fn : Nat) (l : List SglEntry) (o : Nat) (bs : List Byte) : Dev :=
  match l with
  | [] => d
  | e :: r =>
    if bs.isEmpty then d
    else if e.len ≤ o then Dev.writeSgl d fn r (o - e.len) bs
    else
      let part := bs.take (e.len - o)
      Dev.writeSgl (d.emit (.hostWrite fn (e.addr + o) part)) fn r 0 (bs.drop (e.len - o))

/-- Ticket `n` of window `w` completes with `status`; `len` is the result length (R149, R155). -/
def Dev.completeTicket (d : Dev) (w n status len : Nat) : Dev :=
  match d.ticket? w n with
  | none => d
  | some t =>
    let d := d.modWin w (fun x => { x with tickets := x.tickets.filter (fun u => u.num != n) })
    d.post w { code := EventCode.ticketDone, status := status, ticket := n, tick := d.tick.count, subject := 0,
               detail := detailOf [(20, 2, t.opcode), (24, 8, len)] }

/-- Ticket `n` of window `w` completes with a result written to its scatter list, up to the list's end (R150). -/
def Dev.completeWith (d : Dev) (w n : Nat) (result : List Byte) : Dev :=
  match d.ticket? w n with
  | none => d
  | some t =>
    let room := sglBytes t.sgl
    let d := d.writeSgl (fnOf w) t.sgl 0 (result.take room)
    d.completeTicket w n (if room < result.length then Status.sglShort else Status.success) result.length

/-- Ticket `n` of window `w` completes with `status`, and a report of `report` bytes at the end of its scatter list. -/
def Dev.completeReport (d : Dev) (w n status : Nat) (report : List Byte) : Dev :=
  match d.ticket? w n with
  | none => d
  | some t =>
    let d := d.writeSgl (fnOf w) t.sgl (sglBytes t.sgl - report.length) report
    d.completeTicket w n status report.length

/-- Whether a ticket of the same opcode on the same object is outstanding in any window (OPERATION_BUSY, Table 04-21). -/
def Dev.operationBusy (d : Dev) (opcode object : Nat) : Bool :=
  d.hearth.wins.any (fun p => p.2.tickets.any (fun t => t.opcode == opcode && t.object == object))

/-! ### Variants and units (R1, R50) -/

/-- Blocks per region of the fused variant, B (Table 00-1). -/
def variantB (v : Nat) : Nat := if v = 1 then 16 else if v = 2 then 12 else 8

/-- B of the device. -/
def Dev.B (d : Dev) : Nat := variantB d.boot.fuses.variant

/-- Enabled Ethernet ports of a variant (Table 00-1). -/
def variantPorts (v : Nat) : Nat := if v = 1 then 4 else if v = 2 then 3 else 2

/-- Stockpile capacity of a variant in GiB (Table 00-1). -/
def variantHbm (v : Nat) : Nat := if v = 1 then 384 else if v = 2 then 288 else 192

/-- NAND channels of a variant (Table 00-1). -/
def variantChannels (v : Nat) : Nat := if v = 3 then 32 else 64

/-- A fresh free value's place in the sequence of free values, and the device that has taken it. -/
def Dev.draw (d : Dev) : Nat × Dev := (d.draws, { d with draws := d.draws + 1 })

end Sys2Proof.Machine
end

