-- ==== Sys2Proof/Machine/Flags.lean ====
section
/-!
DEFINITION. Machine/Flags.lean: the sticky trouble words, their roll-ups and the TROUBLE events (R84 to R89, R173, R174).
-/
namespace Sys2Proof.Machine

/-- Bits of CELL_TROUBLE (Table 02-4). -/
def CellBit.spareUsed : Nat := 31
def CellBit.ceStorm : Nat := 30
def CellBit.storeUe : Nat := 29
def CellBit.residue : Nat := 28
def CellBit.retryOk : Nat := 27
def CellBit.limp : Nat := 26
def CellBit.storeCe : Nat := 25

/-- Bits of BLOCK_TROUBLE (Table 02-5). -/
def BlockBit.sparePending : Nat := 31
def BlockBit.spareUsed : Nat := 30
def BlockBit.noSpare : Nat := 29
def BlockBit.storeUe : Nat := 28
def BlockBit.storeCe : Nat := 27
def BlockBit.limp : Nat := 26
def BlockBit.laneQuarantine : Nat := 25
def BlockBit.swageFault : Nat := 24
def BlockBit.screenFault : Nat := 23
def BlockBit.cellRollup : Nat := 22
def BlockBit.wedgeLimp : Nat := 21
def BlockBit.hammerLimp : Nat := 20

/-- Bits of a region's byte of REGION_TROUBLE (Table 02-6). -/
def RegionBit.fenced : Nat := 7
def RegionBit.hbmLost : Nat := 6
def RegionBit.reset : Nat := 5
def RegionBit.ringFault : Nat := 4
def RegionBit.dirFault : Nat := 3
def RegionBit.wedgeFault : Nat := 2
def RegionBit.hbmUe : Nat := 1
def RegionBit.blockRollup : Nat := 0

/-- Bits of CHIP_TROUBLE (Table 02-7). -/
def ChipBit.cfgDefaulted : Nat := 31
def ChipBit.capAtFloor : Nat := 30
def ChipBit.tickPlanLate : Nat := 29
def ChipBit.topologyHold : Nat := 28
def ChipBit.lockstepMismatch : Nat := 27
def ChipBit.coreFault : Nat := 26
def ChipBit.hubSramUe : Nat := 25
def ChipBit.retentionInvalid : Nat := 24
def ChipBit.thermalThrottle : Nat := 23
def ChipBit.pfailFlush : Nat := 22
def ChipBit.holdupDegraded : Nat := 21
def ChipBit.syncLost : Nat := 20
def ChipBit.resync : Nat := 19
def ChipBit.faceFault : Nat := 18
def ChipBit.haulFault : Nat := 17
def ChipBit.tongsLeak : Nat := 16
def ChipBit.permuteFault : Nat := 15
def ChipBit.regionRollup : Nat := 0

/-- Sticky bits of a word that are defined: fields that are neither reserved nor roll-ups (Tables 02-4 to 02-7). -/
def stickyMask : TroubleWord → Nat
  | .cell => 0xFE00FFFF
  | .block => 0xFFB0FFFF
  | .region => 0xFEFEFEFEFEFEFEFE
  | .chip => 0xFFFF8000

/-- Roll-up bits of a word (R86). -/
def rollupMask : TroubleWord → Nat
  | .cell => 0
  | .block => 0x00400000
  | .region => 0x0101010101010101
  | .chip => 1

/-- The sticky bits of word `w` at index `i`, roll-ups aside. -/
def Dev.sticky (d : Dev) (w : TroubleWord) (i : Nat) : Nat :=
  match w with
  | .cell => (AMap.getD d.units.cellT i 0).toNat
  | .block => (AMap.getD d.units.blockT i 0).toNat
  | .region => d.units.regionT.toNat
  | .chip => d.units.chipT.toNat

/-- The device with the sticky bits of word `w` at index `i` set to `x`. -/
def Dev.setSticky (d : Dev) (w : TroubleWord) (i x : Nat) : Dev :=
  match w with
  | .cell => { d with units := { d.units with cellT := AMap.set d.units.cellT i (BitVec.ofNat 32 x) } }
  | .block => { d with units := { d.units with blockT := AMap.set d.units.blockT i (BitVec.ofNat 32 x) } }
  | .region => { d with units := { d.units with regionT := BitVec.ofNat 64 x } }
  | .chip => { d with units := { d.units with chipT := BitVec.ofNat 32 x } }

/-- Bits `m` of word `w` at index `i` set; those that read 0 before are noted for the TROUBLE event of the tick (R84, R87). -/
def Dev.trouble (d : Dev) (w : TroubleWord) (i m : Nat) : Dev :=
  let x := d.sticky w i
  let new := (x ||| m) ^^^ x
  if new = 0 then d
  else
    let d := d.setSticky w i (x ||| m)
    { d with units := { d.units with fresh := d.units.fresh ++ [(w, i, new)] } }

/-- One bit of CELL_TROUBLE of global block `g` set. -/
def Dev.cellTrouble (d : Dev) (g bit : Nat) : Dev := d.trouble .cell g (2 ^ bit)

/-- One bit of BLOCK_TROUBLE of region `r` set. -/
def Dev.blockTrouble (d : Dev) (r bit : Nat) : Dev := d.trouble .block r (2 ^ bit)

/-- One bit of region `r`'s byte of REGION_TROUBLE set. -/
def Dev.regionTrouble (d : Dev) (r bit : Nat) : Dev := d.trouble .region 0 (2 ^ (8 * r + bit))

/-- One bit of CHIP_TROUBLE set. -/
def Dev.chipTrouble (d : Dev) (bit : Nat) : Dev := d.trouble .chip 0 (2 ^ bit)

/-- CELL_TROUBLE of global block `g` as it reads (Table 02-4). -/
def Dev.cellWord (d : Dev) (g : Nat) : Nat := d.sticky .cell g

/-- BLOCK_TROUBLE of region `r` as it reads, with its roll-up (Table 02-5). -/
def Dev.blockWord (d : Dev) (r : Nat) : Nat :=
  let roll := (List.range d.B).any (fun b => d.cellWord (r * d.B + b) != 0)
  d.sticky .block r ||| (if roll then 2 ^ BlockBit.cellRollup else 0)

/-- REGION_TROUBLE as it reads, with its roll-ups (Table 02-6). -/
def Dev.regionWord (d : Dev) : Nat :=
  (List.range 8).foldl (fun x r => x ||| (if d.blockWord r != 0 then 2 ^ (8 * r) else 0)) (d.sticky .region 0)

/-- CHIP_TROUBLE as it reads, with its roll-up (Table 02-7). -/
def Dev.chipWord (d : Dev) : Nat := d.sticky .chip 0 ||| (if d.regionWord != 0 then 1 else 0)

/-- TROUBLE_SUMMARY (Table 02-8). -/
def Dev.troubleSummary (d : Dev) : Nat :=
  let regions := (List.range 8).foldl (fun x r => x ||| (if bitField d.regionWord (8 * r) 8 != 0 then 2 ^ (8 + r) else 0)) 0
  let chip := if d.sticky .chip 0 != 0 then 2 else 0
  let any := if d.chipWord != 0 then 1 else 0
  regions ||| chip ||| any

/-- The 560 bytes of READ_TROUBLE (R173). -/
def Dev.troubleBytes (d : Dev) : List Byte :=
  leBytes 4 d.troubleSummary ++ leBytes 4 d.chipWord ++ leBytes 8 d.regionWord ++
  (List.range 8).flatMap (fun r => leBytes 4 (d.blockWord r)) ++
  (List.range 128).flatMap (fun g => leBytes 4 (d.cellWord g))

/-- A trouble word by its code in WORD (R174). -/
def TroubleWord.ofCode (c : Nat) : TroubleWord := if c = 0 then .cell else if c = 1 then .block else if c = 2 then .region else .chip

/-- The code of a trouble word in WORD (R174). -/
def TroubleWord.code : TroubleWord → Nat
  | .cell => 0
  | .block => 1
  | .region => 2
  | .chip => 3

/-- Sticky bits `m` of word `w` at index `i` cleared (R85): the device, and the bits that read 1 before. -/
def Dev.clearBits (d : Dev) (w : TroubleWord) (i m : Nat) : Dev × Nat :=
  let x := d.sticky w i
  let c := x &&& (m &&& stickyMask w)
  (if c = 0 then d else d.setSticky w i (x ^^^ c), c)

/-- The bits noted for one word, gathered. -/
def gatherBits (l : List (TroubleWord × Nat × Nat)) (w : TroubleWord) (i : Nat) : Nat :=
  l.foldl (fun x e => if e.1 = w && e.2.1 == i then x ||| e.2.2 else x) 0

/-- The TROUBLE events of the tick that ends: one for each word with bits newly set (R87). -/
def Dev.postTrouble (d : Dev) : Dev :=
  let l := d.units.fresh
  let words := (l.map (fun e => (e.1, e.2.1))).foldl (fun acc p => if acc.contains p then acc else acc ++ [p]) []
  let d := { d with units := { d.units with fresh := [] } }
  words.foldl (fun d p => d.event adminWin EventCode.trouble 0 [(20, 1, p.1.code), (22, 2, p.2), (24, 8, gatherBits l p.1 p.2)]) d

end Sys2Proof.Machine
end

