-- ==== Sys2Proof/Machine/Units.lean ====
section
/-!
DEFINITION. Machine/Units.lean: the numbering of units and which of them are in service (R50, R51, R56, R608, R609).
-/
namespace Sys2Proof.Machine

/-- The number of a class of unit in the keys of service records. -/
def UnitClass.code : UnitClass → Nat
  | .cell => 0
  | .lane => 1
  | .swage => 2
  | .screen => 3
  | .wedge => 4
  | .hammer => 5
  | .block => 6
  | .die => 7

/-- Every class of unit. -/
def UnitClass.all : List UnitClass := [.cell, .lane, .swage, .screen, .wedge, .hammer, .block, .die]

/-- The class of a code. -/
def UnitClass.ofCode (c : Nat) : UnitClass :=
  if c = 0 then .cell else if c = 1 then .lane else if c = 2 then .swage else if c = 3 then .screen else if c = 4 then .wedge
  else if c = 5 then .hammer else if c = 6 then .block else .die

/-- The key of unit `i` of a class. -/
def unitKey (c : UnitClass) (i : Nat) : Nat := c.code * 65536 + i

/-- The record of unit `i` of a class. -/
def Dev.unit (d : Dev) (c : UnitClass) (i : Nat) : UnitRec := AMap.getD d.units.recs (unitKey c i) UnitRec.init

/-- The device with the record of a unit changed. -/
def Dev.modUnit (d : Dev) (c : UnitClass) (i : Nat) (f : UnitRec → UnitRec) : Dev :=
  { d with units := { d.units with recs := AMap.set d.units.recs (unitKey c i) (f (d.unit c i)) } }

/-- The record of global block `g`. -/
def Dev.block (d : Dev) (g : Nat) : BlockRec := AMap.getD d.units.blocks g BlockRec.init

/-- The device with the record of block `g` changed. -/
def Dev.modBlock (d : Dev) (g : Nat) (f : BlockRec → BlockRec) : Dev :=
  { d with units := { d.units with blocks := AMap.set d.units.blocks g (f (d.block g)) } }

/-- The record of region `r`. -/
def Dev.region (d : Dev) (r : Nat) : RegionRec := AMap.getD d.units.regions r RegionRec.init

/-- The device with the record of region `r` changed. -/
def Dev.modRegion (d : Dev) (r : Nat) (f : RegionRec → RegionRec) : Dev :=
  { d with units := { d.units with regions := AMap.set d.units.regions r (f (d.region r)) } }

/-- The global index of a block of the variant, none beyond B (R50). -/
def Dev.blockOf (d : Dev) (b : BlockRef) : Option Nat := if b.block.val < d.B then some (b.region.val * d.B + b.block.val) else none

/-- The global index of a cell of the variant, none beyond B (R50). -/
def Dev.cellOf (d : Dev) (c : CellRef) : Option Nat :=
  if c.block.val < d.B then some ((c.region.val * d.B + c.block.val) * 16 + c.cell.val) else none

/-- Blocks of the variant. -/
def Dev.numBlocks (d : Dev) : Nat := 8 * d.B

/-- The region of global block `g`. -/
def Dev.regionOfBlock (d : Dev) (g : Nat) : Nat := g / d.B

/-- Units of a class in the variant. -/
def Dev.unitCount (d : Dev) : UnitClass → Nat
  | .cell => 128 * d.B
  | .lane => 32 * d.B
  | .swage | .screen | .block => 8 * d.B
  | .wedge => 64
  | .hammer => 8
  | .die => 16 * variantChannels d.boot.fuses.variant

/-- The block of unit `i` of a class that sits in blocks. -/
def blockOfUnit (c : UnitClass) (i : Nat) : Nat :=
  match c with
  | .cell => i / 16
  | .lane => i / 4
  | _ => i

/-- The region of unit `i` of a class. -/
def Dev.regionOfUnit (d : Dev) (c : UnitClass) (i : Nat) : Nat :=
  match c with
  | .wedge => i / 8
  | .hammer => i
  | _ => d.regionOfBlock (blockOfUnit c i)

/-- Whether a service state counts as in service: demotion is not a failure (R66). -/
def Service.isIn : Service → Bool
  | .inService | .demoted => true
  | _ => false

/-- Whether region `r` is in service. -/
def Dev.regionIn (d : Dev) (r : Nat) : Bool := !(d.region r).fenced

/-- Whether region `r` takes work: in service and not in a region reset (R77). -/
def Dev.regionUp (d : Dev) (r : Nat) : Bool := d.regionIn r && !(d.region r).resetting && !(d.region r).resumeAtBoundary

/-- Whether global block `g` is in service in its region. -/
def Dev.blockIn (d : Dev) (g : Nat) : Bool := decide (g < d.numBlocks) && (d.unit .block g).service.isIn

/-- Whether unit `i` of a class is in service, a unit gated by the ladder counted (R609). -/
def Dev.unitIn (d : Dev) (c : UnitClass) (i : Nat) : Bool :=
  decide (i < d.unitCount c) && (d.unit c i).service.isIn && (c == .die || d.regionIn (d.regionOfUnit c i)) &&
  (match c with
   | .cell | .lane | .swage | .screen => d.blockIn (blockOfUnit c i)
   | _ => true)

/-- Cells of block `g` in service. -/
def Dev.cellsIn (d : Dev) (g : Nat) : List Nat := (List.range 16).filter (fun c => d.unitIn .cell (g * 16 + c))

/-- Blocks of region `r` in service, by logical index. -/
def Dev.blocksIn (d : Dev) (r : Nat) : List Nat := (List.range d.B).filter (fun b => d.blockIn (r * d.B + b))

/-- Regions in service. -/
def Dev.regionsIn (d : Dev) : List Nat := (List.range 8).filter d.regionIn

/-! ### The ladder's units (Table 18-4, R608) -/

/-- The last step, F. -/
def Dev.stepF (d : Dev) : Nat := 14 + d.B

/-- Cells per block that a step keeps. -/
def stepCells (s : Nat) : Nat := if s ≤ 10 then 16 else if s ≤ 14 then 16 - 2 * (s - 10) else 8

/-- Blocks per region that a step keeps. -/
def Dev.stepBlocks (d : Dev) (s : Nat) : Nat := if s ≤ 14 then d.B else if s = d.stepF then 1 else d.B - (s - 14)

/-- Blocks of region `r` that step `s` keeps: from the lowest logical index of those in service. -/
def Dev.keptBlocks (d : Dev) (s r : Nat) : List Nat := if d.regionIn r then (d.blocksIn r).take (d.stepBlocks s) else []

/-- Cells of block `g` that step `s` keeps: from logical cell 0 upward, of those in service. -/
def Dev.keptCells (d : Dev) (s g : Nat) : List Nat := (d.cellsIn g).take (stepCells s)

/-- Whether unit `i` of a class takes new work: in service, not demoted, not gated, its region up, its block not gated (R56, R609). -/
def Dev.placeable (d : Dev) (c : UnitClass) (i : Nat) : Bool :=
  let u := d.unit c i
  let inBlock := match c with
    | .cell | .lane | .swage | .screen =>
      let b := d.unit .block (blockOfUnit c i)
      b.service == .inService && !b.gated && !b.ungating
    | _ => true
  d.unitIn c i && u.service == .inService && !u.gated && !u.ungating && inBlock && d.regionUp (d.regionOfUnit c i)

/-- Units of a class that take new work. -/
def Dev.placeables (d : Dev) (c : UnitClass) : List Nat := (List.range (d.unitCount c)).filter (d.placeable c)

end Sys2Proof.Machine
end

