-- ==== Sys2Proof/Machine/Bellows.lean ====
section
/-!
DEFINITION. Machine/Bellows.lean: the energy model, the ladder's prediction, the floor and the caps (R603 to R616).
Powers are exact rationals in watts; the power of two in the leakage terms is held to within 2⁻⁶⁰.
-/
namespace Sys2Proof.Machine

/-- Rail indices in the order of Table 18-2. -/
def railCell (r : Nat) : Nat := r
def railRegion (r : Nat) : Nat := 8 + r
def railHub : Nat := 16
def railHbm : Nat := 17
def railNand : Nat := 18
def railSerdes : Nat := 19

/-- A rational cut to multiples of 2⁻⁷⁰. -/
def cutRat (q : Rat) : Rat := (Rat.floor (q * (2 ^ 70 : Nat)) : Rat) / (2 ^ 70 : Nat)

/-- ln 2, cut after 40 decimal digits. -/
def ln2 : Rat := 6931471805599453094172321214581765680755 / 10 ^ 40

/-- Terms of the exponential series of `x` from the `n`th on, `t` being the `n`th. -/
def expTerms (x : Rat) (n fuel : Nat) (t : Rat) : Rat :=
  match fuel with
  | 0 => 0
  | f + 1 => t + expTerms x (n + 1) f (cutRat (t * x / (n + 1)))

/-- 2^(m/20000) for an integer `m`: the leakage factor of a temperature `m` m°C above 85 °C (R603). -/
def pow2Frac (m : Int) : Rat :=
  let k := m / 20000
  let f : Rat := (m % 20000 : Int) / 20000
  let b := expTerms (cutRat (f * ln2)) 0 30 1
  if 0 ≤ k then b * (2 ^ k.toNat : Nat) else b / (2 ^ (-k).toNat : Nat)

/-- λ_d from its fused code (Table 20-6). -/
def lambdaOf (code : Nat) : Rat := (code + 140 : Nat) / 200

/-- T_d of a die in m°C: region dies 0 to 7, hub 8 (R624). -/
def Dev.temp (d : Dev) (die : Nat) : Int := d.bellows.temps.getD die 0

/-- The leakage factor of a die: λ_d × 2^((T_d − 85)/20) (R603). -/
def Dev.leak (d : Dev) (die : Nat) : Rat :=
  let code := if die = 8 then d.boot.fuses.hubLambda else ((d.boot.fuses.dies[die]?).map DieFuses.lambda).getD 60
  lambdaOf code * pow2Frac (d.temp die - 85000)

/-- The gain of a rail (R605). -/
def Dev.gain (d : Dev) (rail : Nat) : Rat := ((d.bellows.rails[rail]?).map Rail.gain).getD 1

/-- The operating point of a step (Table 18-4). -/
def stepPoint (s : Nat) : Nat := min s 10

/-- The cell clock of a point in GHz (Table 18-3). -/
def pointGhz (k : Nat) : Rat := 18 / 10 * (20 - k : Nat) / 20

/-- VDD_CELL of a point in volts (Table 18-3). -/
def pointVolt (k : Nat) : Rat := if k ≤ 6 then 80 / 100 else 78 / 100

/-- (V / 0.80 V)² of a point. -/
def pointScale (k : Nat) : Rat := (pointVolt k / (80 / 100)) ^ 2

/-- NAND channels enabled by the fuses. -/
def popCount (n w : Nat) : Nat := (List.range w).countP (fun i => bitOf n i)

/-- Ports in service. -/
def Dev.portsIn (d : Dev) : Nat := (d.haul.ports.take (variantPorts d.boot.fuses.variant)).countP Port.inService

/-- Stacks in service: those of regions whose stack is not lost. -/
def Dev.stacksIn (d : Dev) : Nat := (List.range 8).countP (fun r => !(d.region r).hbmLost)

/-- The static power of a rail with `nb` blocks powered in its region, in watts, before its gain: leakage and fixed terms. -/
def Dev.railStatic (d : Dev) (nb : Nat → Nat) (rail : Nat) : Rat :=
  if rail < 8 then nb rail * (6 / 10) * d.leak rail
  else if rail < 16 then 14 / 10 * d.leak (rail - 8)
  else if rail = railHub then 7 * d.leak 8 + 40 + 15
  else if rail = railHbm then 6 * d.stacksIn
  else if rail = railSerdes then (175 : Rat) / 10 * d.portsIn
  else 0

/-- The dynamic power of a rail at step `s` with every unit that it keeps busy, in watts, before its gain; cells count when `cells` holds. -/
def Dev.railBusy (d : Dev) (s : Nat) (cells : Bool) (rail : Nat) : Rat :=
  if rail < 8 then
    let n := sumNat ((d.keptBlocks s rail).map (fun b => (d.keptCells s (rail * d.B + b)).length))
    if cells then n * (27125 / 100000) * pointGhz (stepPoint s) * pointScale (stepPoint s) else 0
  else if rail < 16 then
    let r := rail - 8
    let blocks := (d.keptBlocks s r).map (fun b => r * d.B + b)
    let lanes := sumNat (blocks.map (fun g => (List.range 4).countP (fun l => d.unitIn .lane (g * 4 + l))))
    let swages := blocks.countP (fun g => d.unitIn .swage g)
    let screens := blocks.countP (fun g => d.unitIn .screen g)
    let wedges := (List.range 8).countP (fun u => d.unitIn .wedge (r * 8 + u))
    let hammers := if d.unitIn .hammer r then 1 else 0
    (lanes * (12 / 100) + swages * (15 / 100) + screens * (12 / 100) + wedges * (30 / 100) + hammers * (60 / 100) : Rat)
  else if rail = railHbm then (d.stacksIn * (if s = d.stepF then 500 else 2000) : Nat) * (11 / 1000)
  else if rail = railNand then
    (popCount d.boot.fuses.nandChEn 64 : Nat) * (if s = d.stepF then 18 / 10 else 36 / 10) * (1302 / 10000)
  else 0

/-- P_pred of step `s` (R612); at a target of Banked or deeper it counts no cell cycles (R619). -/
def Dev.pPredWith (d : Dev) (cells : Bool) (s : Nat) : Rat :=
  let nb := fun r => (d.keptBlocks s r).length
  (List.range 20).foldl (fun acc rail => acc + d.gain rail * (d.railStatic nb rail + d.railBusy s cells rail)) 0

/-- The place of a power state in the order from the shallowest to the deepest (Table 18-5). -/
def PowerState.code : PowerState → Nat
  | .blaze => 0
  | .glow => 1
  | .banked => 2
  | .ember => 3
  | .slumber => 4

/-- The power state of a code. -/
def PowerState.ofCode (c : Nat) : PowerState :=
  if c = 0 then .blaze else if c = 1 then .glow else if c = 2 then .banked else if c = 3 then .ember else .slumber

/-- The target: the shallower of the two requests (R617). -/
def Dev.powerTarget (d : Dev) : PowerState :=
  if d.bellows.adminReq.code ≤ d.bellows.storageReq.code then d.bellows.adminReq else d.bellows.storageReq

/-- Whether the target is Banked or deeper (R619). -/
def Dev.banked (d : Dev) : Bool := decide (2 ≤ d.powerTarget.code)

/-- P_pred of step `s` at the present target (R612, R619). -/
def Dev.pPred (d : Dev) (s : Nat) : Rat := d.pPredWith (!d.banked) s

/-- P_FLOOR: P_pred(F) rounded up to a whole watt, at least 300 (R615). -/
def Dev.pFloor (d : Dev) : Nat := max 300 (Rat.ceil (d.pPred d.stepF)).toNat

end Sys2Proof.Machine
end

