-- ==== Sys2Proof/Machine/Params.lean ====
section
/-!
DEFINITION. Machine/Params.lean: parameters, the clamping rule and the times of effect (R164 to R170, Table 04-23).
-/
namespace Sys2Proof.Machine

/-- When a parameter value takes effect (Table 04-23). -/
inductive Takes where
  | period | withPeriod | plan | boundary | reset | quiet
  deriving DecidableEq, Repr

/-- A row of Table 04-23; bounds and defaults that depend on the device are worked out beside it. -/
structure ParamDef where
  id : Nat
  scope : Scope
  lo : Nat
  hi : Nat
  step : Nat
  dflt : Nat
  takes : Takes
  admin : Bool
  deriving DecidableEq, Repr

def ParamId.tickPeriodUs : Nat := 0x0001
def ParamId.admitCeilingPct : Nat := 0x0002
def ParamId.periodAtTick : Nat := 0x0003
def ParamId.powerCapW : Nat := 0x0010
def ParamId.tongsPool4k : Nat := 0x0020
def ParamId.deferLimit : Nat := 0x0100
def ParamId.tenantWeight : Nat := 0x0101
def ParamId.egressCir : Nat := 0x0102
def ParamId.egressPir : Nat := 0x0103
def ParamId.egressCbs : Nat := 0x0104
def ParamId.egressPbs : Nat := 0x0105
def ParamId.windowSamples : Nat := 0x0106
def ParamId.reservoirTargetPct : Nat := 0x0200
def ParamId.stalenessUs : Nat := 0x0300

/-- Table 04-23, for the ADF1-P16. -/
def paramTable : List ParamDef :=
  [⟨0x0001, .chip, 100, 1600, 1, 400, .period, true⟩, ⟨0x0002, .chip, 50, 100, 1, 90, .plan, true⟩,
   ⟨0x0003, .chip, 4, 2 ^ 32, 1, 4, .withPeriod, true⟩, ⟨0x0010, .chip, 300, 1600, 1, 1200, .boundary, true⟩,
   ⟨0x0020, .chip, 256, 4096, 2, 1024, .reset, true⟩, ⟨0x0021, .chip, 512, 8192, 2, 4096, .reset, true⟩,
   ⟨0x0022, .chip, 1024, 16384, 2, 8192, .reset, true⟩, ⟨0x0023, .chip, 512, 8192, 16, 4096, .reset, true⟩,
   ⟨0x0100, .tenant, 16, 65535, 1, 2500, .boundary, false⟩, ⟨0x0101, .tenant, 1, 65535, 1, 1, .plan, true⟩,
   ⟨0x0102, .tenant, 0, 400000, 1, 0, .plan, true⟩, ⟨0x0103, .tenant, 0, 400000, 1, 400000, .plan, true⟩,
   ⟨0x0104, .tenant, 64, 1048576, 64, 1024, .plan, true⟩, ⟨0x0105, .tenant, 64, 1048576, 64, 4096, .plan, true⟩,
   ⟨0x0106, .tenant, 1024, 4194304, 1024, 262144, .quiet, false⟩, ⟨0x0200, .reservoir, 10, 90, 1, 50, .boundary, false⟩,
   ⟨0x0300, .stream, 0, 10000000, 1, 0, .boundary, false⟩]

/-- The row of a parameter id. -/
def paramDef (id : Nat) : Option ParamDef := paramTable.find? (fun p => p.id == id)

/-- Whether INDEX has the form of a scope (Table 04-24). -/
def Scope.indexOk (s : Scope) (i : Nat) : Bool :=
  match s with
  | .chip => i == 0
  | .region => decide (i < 8)
  | .block => decide (i < 128)
  | .tenant => decide (i < 1024)
  | .reservoir => decide (i < 2 ^ 18)
  | .stream => decide (i < 2 ^ 20)
  | .window => decide (i ≤ 1024)
  | .tenantOrReservoir => decide (i < 2 ^ 18)

/-- R164: the nearest end of the range, or the nearest value on the step, the lower on a tie. -/
def clampParam (v lo hi step : Nat) : Nat :=
  if v ≤ lo then lo
  else if hi ≤ v then hi
  else
    let k := (v - lo) / step
    let r := (v - lo) % step
    let c := lo + k * step
    if 2 * r ≤ step then c else min hi (c + step)

/-- Enabled egress in MB/s: 400,000 scaled by the enabled ports (R3, R169). -/
def Dev.egressMbps (d : Dev) : Nat := 100000 * variantPorts d.boot.fuses.variant

/-- Default of a parameter, scaled to the variant (Tables 03-7 and 04-23). -/
def Dev.paramDefault (d : Dev) (p : ParamDef) : Nat :=
  if p.id = ParamId.egressPir then d.egressMbps
  else if p.takes = .reset then p.dflt * variantHbm d.boot.fuses.variant / 384
  else if p.id = ParamId.periodAtTick then d.tick.count + 4
  else p.dflt

/-- The pool of a pool-size parameter. -/
def poolOfParam (id : Nat) : Nat := id - ParamId.tongsPool4k

/-- C_set: POWER_CAP_W as applied (R611). -/
def Dev.capSet (d : Dev) : Nat := AMap.getD d.hearth.params (objKey ParamId.powerCapW 0) 1200

/-- C, the cap in force (R611). -/
def Dev.capInForce (d : Dev) : Nat := max d.capSet d.pFloor

/-- C_eff, the effective cap (R611, R626). -/
def Dev.capEff (d : Dev) : Rat :=
  let c : Rat := d.capInForce
  let floor : Rat := d.pFloor
  if d.bellows.emergency then floor
  else
    match d.bellows.cTh with
    | none => max floor c
    | some t => max floor (min c t)

/-- The value of a parameter in force (R168). -/
def Dev.param (d : Dev) (id idx : Nat) : Nat :=
  if id = ParamId.tickPeriodUs then d.tick.periodUs
  else if id = ParamId.periodAtTick then d.hearth.periodAt.getD 0
  else if id = ParamId.powerCapW then d.capInForce
  else
    match paramDef id with
    | none => 0
    | some p =>
      if p.takes = .reset then d.tongs.poolMiB.getD (poolOfParam id) 0
      else AMap.getD d.hearth.params (objKey id idx) (d.paramDefault p)

/-- The last accepted value of a parameter that is still to take effect. -/
def Dev.pending? (d : Dev) (id idx : Nat) : Option PendingParam :=
  d.hearth.pend.reverse.find? (fun p => p.id == id && p.index == idx)

/-- The value that the plan of tick `t` uses: a pending one that takes effect with it, or the value in force. -/
def Dev.planParam1 (d : Dev) (t id idx : Nat) : Nat :=
  match d.hearth.pend.reverse.find? (fun p => p.id == id && p.index == idx && decide (p.eff ≤ t)) with
  | some p => p.value
  | none => d.param id idx

/-- As `planParam1`; EGRESS_PIR_MBPS takes the CIR's value where that is greater (R164). -/
def Dev.planParam (d : Dev) (t id idx : Nat) : Nat :=
  if id = ParamId.egressPir then max (d.planParam1 t ParamId.egressPir idx) (d.planParam1 t ParamId.egressCir idx)
  else d.planParam1 t id idx

/-- The first tick whose plan is not frozen (R169). -/
def Dev.nextPlanTick (d : Dev) : Nat :=
  match d.tick.plan with
  | some p => max (d.tick.count + 1) (p.tick + 1)
  | none => d.tick.count + 1

/-- Streams of tenant `t`. -/
def Dev.streamsOf (d : Dev) (t : Nat) : List (Nat × Stream) := d.streams.filter (fun p => p.2.tenant == t)

/-- Whether no stream of tenant `t` is RUNNING or PAUSED (R729). -/
def Dev.tenantQuiet (d : Dev) (t : Nat) : Bool :=
  (d.streamsOf t).all (fun p => p.2.state != .running && p.2.state != .paused)

/-- The sum of WINDOW_DEPTH over the streams of tenant `t` (R729). -/
def Dev.depthSum (d : Dev) (t : Nat) : Nat := sumNat ((d.streamsOf t).map (fun p => p.2.depth))

/-- The largest fitted minimum period of the programs that bound it (R44, R197). -/
def Dev.fittedMin (d : Dev) : Nat := maxNat (d.progs.map (fun p => if p.2.bounding then p.2.minPeriod else 0))

/-- The legal range of a parameter at acceptance: lower and upper end (R164, R594, R729). -/
def Dev.paramRange (d : Dev) (p : ParamDef) (idx : Nat) : Nat × Nat :=
  if p.id = ParamId.tickPeriodUs then
    if d.tick.source != 0 then (d.tick.periodUs, d.tick.periodUs) else (max 100 d.fittedMin, 1600)
  else if p.id = ParamId.periodAtTick then
    if d.tick.source != 0 then (d.hearth.periodAt.getD 0, d.hearth.periodAt.getD 0) else (d.tick.count + 4, d.tick.count + 2 ^ 32)
  else if p.id = ParamId.egressCir then (0, d.egressMbps)
  else if p.id = ParamId.egressPir then
    (((d.pending? ParamId.egressCir idx).map PendingParam.value).getD (d.param ParamId.egressCir idx), d.egressMbps)
  else if p.id = ParamId.windowSamples then (max 1024 (roundUp (d.depthSum idx) 1024), p.hi)
  else (p.lo, p.hi)

/-- The applied value of a parameter under R164, before the floor of R616. -/
def Dev.clampedParam (d : Dev) (p : ParamDef) (idx v : Nat) : Nat :=
  let (lo, hi) := d.paramRange p idx
  clampParam v lo (max lo hi) p.step

/-- A value pending, in place of one of the same parameter and object for the same time (R168). -/
def Dev.pend (d : Dev) (x : PendingParam) : Dev :=
  { d with hearth := { d.hearth with pend := d.hearth.pend.filter (fun p => !(p.id == x.id && p.index == x.index && p.eff == x.eff)) ++ [x] } }

/-- EFFECTIVE_TICK of the next reset, and of a condition whose tick is not known (Table 04-22). -/
def effReset : Nat := 2 ^ 64 - 1
def effUnknown : Nat := 2 ^ 64 - 2

/-- What SET_PARAM does with a value: the device, APPLIED, PENDING and EFFECTIVE_TICK (R164 to R170, R616, R729). -/
def Dev.setParam (d : Dev) (p : ParamDef) (idx v : Nat) : Dev × Nat × Nat × Nat :=
  let a := d.clampedParam p idx v
  match p.takes with
  | .withPeriod => ({ d with hearth := { d.hearth with periodAt := if d.tick.source != 0 then d.hearth.periodAt else some a } }, a, a, 0)
  | .period =>
    if d.tick.source != 0 then (d, a, a, 0)
    else
      let at_ := match d.hearth.periodAt with
        | none => d.tick.count + 4
        | some t => clampParam t (d.tick.count + 4) (d.tick.count + 2 ^ 32) 1
      ({ d with tick := { d.tick with change := some (a, at_) } }, a, a, at_)
  | .plan => (d.pend ⟨p.id, idx, a, d.nextPlanTick⟩, a, a, d.nextPlanTick)
  | .boundary =>
    if p.id = ParamId.powerCapW then
      let f := d.pFloor
      let b := max a f
      let d := if a < f then d.chipTrouble ChipBit.capAtFloor else d
      (d.pend ⟨p.id, idx, b, d.tick.count + 1⟩, b, b, d.tick.count + 1)
    else (d.pend ⟨p.id, idx, a, d.tick.count + 1⟩, a, a, d.tick.count + 1)
  | .reset => ({ d with boot := { d.boot with pendPools := modifyAt d.boot.pendPools (poolOfParam p.id) (fun _ => some a) } }, a, a, effReset)
  | .quiet =>
    let e := if d.tenantQuiet idx then d.tick.count + 1 else effUnknown
    let d := { d with hearth := { d.hearth with pend := d.hearth.pend.filter (fun q => !(q.id == p.id && q.index == idx)) } }
    (d.pend ⟨p.id, idx, a, e⟩, a, a, e)

/-- What GET_PARAM reports: the value in force, PENDING and EFFECTIVE_TICK (Table 04-22, R170). -/
def Dev.getParam (d : Dev) (p : ParamDef) (idx : Nat) : Nat × Nat × Nat :=
  let v := d.param p.id idx
  match p.takes with
  | .withPeriod => (v, v, 0)
  | .period => match d.tick.change with
    | none => (v, v, 0)
    | some (x, at_) => (v, x, at_)
  | .reset => match d.boot.pendPools.getD (poolOfParam p.id) none with
    | none => (v, v, 0)
    | some x => (v, x, effReset)
  | _ => match d.pending? p.id idx with
    | none => (v, v, 0)
    | some q => (v, q.value, q.eff)

/-- A parameter of an object set at once, as a record or a default gives it. -/
def Dev.putParam (d : Dev) (id idx v : Nat) : Dev := { d with hearth := { d.hearth with params := AMap.set d.hearth.params (objKey id idx) v } }

/-- Every value and pending value of one object's parameter forgotten: it reads its default again. -/
def Dev.dropParam (d : Dev) (id idx : Nat) : Dev :=
  { d with hearth := { d.hearth with
      params := AMap.del d.hearth.params (objKey id idx)
      pend := d.hearth.pend.filter (fun p => !(p.id == id && p.index == idx)) } }

/-- The parameters of a scope. -/
def paramsOf (s : Scope) : List ParamDef := paramTable.filter (fun p => p.scope == s)

/-- An object's parameters at their defaults, then at the configuration's records for it (R179, Table 16-2). -/
def Dev.initParams (d : Dev) (s : Scope) (idx : Nat) : Dev :=
  let d := (paramsOf s).foldl (fun d p => d.dropParam p.id idx) d
  d.hearth.cfgRecords.foldl (fun d r =>
    match paramDef r.id with
    | none => d
    | some p => if p.scope == s && r.index == idx && r.rsv == 0 then d.putParam p.id idx (d.clampedParam p idx r.value) else d) d

/-- Pending values whose boundary `t` has come put in force (R169); WINDOW_SAMPLES waits for its own condition (R729). -/
def Dev.applyPending (d : Dev) (t : Nat) : Dev :=
  let due := d.hearth.pend.filter (fun p => p.id != ParamId.windowSamples && decide (p.eff ≤ t))
  let d := { d with hearth := { d.hearth with pend := d.hearth.pend.filter (fun p => p.id == ParamId.windowSamples || !decide (p.eff ≤ t)) } }
  let d := due.foldl (fun d p => d.putParam p.id p.index p.value) d
  due.foldl (fun d p =>
    if p.id = ParamId.egressCir && decide (d.param ParamId.egressPir p.index < d.param ParamId.egressCir p.index) then
      d.putParam ParamId.egressPir p.index (d.param ParamId.egressCir p.index)
    else d) d

end Sys2Proof.Machine
end

