-- ==== Sys2Proof/Machine/Operands.lean ====
section
/-!
DEFINITION. Machine/Operands.lean: the fields of a request, its scatter list, and the INDEX forms that name objects (Tables 04-13, 04-15, 04-24).
-/
namespace Sys2Proof.Machine

/-- What a command knows of its request: the window's number, the version negotiated in it (0 for none), and the request. -/
structure Ctx where
  w : Nat
  v : Nat
  r : Request
  deriving DecidableEq, Repr

/-- The payload field of `n` bytes at offset `o`, little-endian (R7). -/
def Ctx.get (x : Ctx) (o n : Nat) : Nat := leAt x.r.payload o n

/-- The payload bytes from `o`, `n` of them. -/
def Ctx.raw (x : Ctx) (o n : Nat) : List Byte := bytesAt x.r.payload o n

/-- Whether payload bytes `o` to `o + n - 1` are 0. -/
def Ctx.rsv (x : Ctx) (o n : Nat) : Bool := allZero (x.raw o n)

/-- Whether the window is the administrative one. -/
def Ctx.isAdmin (x : Ctx) : Bool := x.w == adminWin

/-- Whether tenant `t` may be named in the window (R161). -/
def Ctx.mayName (x : Ctx) (t : Nat) : Bool := x.isAdmin || x.w == t

/-- Whether version `v` or a later one is negotiated. -/
def Ctx.since (x : Ctx) (v : Nat) : Bool := decide (v ≤ x.v)

/-- The status when `c` fails. -/
def needs (c : Bool) (s : Status) : Option Status := if c then none else some s

/-- The first status of a list of checks that failed. -/
def firstFail : List (Option Status) → Option Status
  | [] => none
  | none :: r => firstFail r
  | some s :: _ => some s

/-- Whether a scatter-list entry is legal (Table 04-15). -/
def SglEntry.legal (e : SglEntry) : Bool :=
  e.addr % 8 == 0 && decide (8 ≤ e.len) && decide (e.len ≤ 16777216) && e.len % 8 == 0 && e.rsv == 0

/-- Whether the request's scatter list is aligned, legal and readable (Table 04-16, step 10; R541). -/
def Dev.sglOk (d : Dev) (x : Ctx) : Bool :=
  if x.r.sglCount = 0 then x.r.sglAddr == 0
  else x.r.sglAddr % 16 == 0 && x.r.sglReadable && d.busMaster x.w && x.r.sgl.all SglEntry.legal

/-- The tenant of an INDEX in reservoir form. -/
def resTenant (i : Nat) : Nat := bitField i 8 10

/-- The reservoir of an INDEX in reservoir form. -/
def resNum (i : Nat) : Nat := bitField i 0 8

/-- The key of reservoir `r` of tenant `t`: its INDEX (Table 04-24). -/
def resKey (t r : Nat) : Nat := t * 256 + r

/-- Whether tenant `t` is ENABLED (Table 16-1). -/
def Dev.tenantEnabled (d : Dev) (t : Nat) : Bool :=
  match AMap.get? d.tenants t with
  | some x => x.state == .enabled
  | none => false

/-- Step 11 for an object of tenant `t`: an administrative command on an object of a tenant that is not ENABLED (R540). -/
def Dev.ownerEnabled (d : Dev) (t : Nat) : Option Status := needs (d.tenantEnabled t) Status.tenantDisabled

/-- A power of two as a number of bits, for masks. -/
def onesMask (n : Nat) : Nat := 2 ^ n - 1

end Sys2Proof.Machine
end

