-- ==== Sys2Proof/Machine/Mailbox.lean ====
section
/-!
DEFINITION. Machine/Mailbox.lean: what a doorbell does: acceptance of the doorbell, the checks of Table 04-16 in order, the effect, and the response (R136 to R148, R728).
-/
namespace Sys2Proof.Machine

/-- What a command checks of its own, by the steps of Table 04-16. -/
structure Chk where
  /-- Step 6: LEN is what the layout says under the negotiated version. -/
  lenOk : Bool := true
  /-- Step 6: SGL_COUNT must be at least 1 (true) or 0 (false) (R728). -/
  sgl : Bool := false
  /-- Step 7: the payload's reserved fields are 0. -/
  rsvOk : Bool := true
  /-- Step 8. -/
  field : Option Status := none
  /-- Step 9. -/
  object : Option Status := none
  /-- Step 10, beside the checks of every list. -/
  sglOk : Bool := true
  /-- Step 11. -/
  state : Option Status := none
  /-- Step 13. -/
  own : Option Status := none
  /-- The object the command names, for OPERATION_BUSY. -/
  subject : Nat := 0

/-- What a command answers: the device after its effect, its status when it completes at once, and its response payload. -/
structure Answer where
  dev : Dev
  status : Status := Status.success
  payload : List Byte := []

/-- A command of HCP: a row of Table 04-20, its checks, and its effect with the ticket issued (0 for none). -/
structure Cmd where
  opcode : Nat
  /-- Since, as a version. -/
  since : Nat := 0x0100
  admin : Bool := false
  ticketed : Bool := false
  check : Dev → Ctx → Chk
  run : Dev → Ctx → Nat → Answer

/-- Whether nothing in the block acts: it is held in reset or its clocks are stopped, or the hold-up flush runs (R251, R627, R711). -/
def Dev.stopped (d : Dev) : Bool := d.boot.held != 0 || d.bellows.tripped || d.face.flushing

/-- Whether a tenant window is enabled (R143). -/
def Dev.windowEnabled (d : Dev) (w : Nat) : Bool := w == adminWin || d.tenantEnabled w

/-- Whether an opcode is permitted in the present DEVICE_STATE (R162); while a sanitize runs none is (R657). -/
def Dev.stateRefusal (d : Dev) (w opcode : Nat) : Option Status :=
  let basic := decide (1 ≤ opcode && opcode ≤ 3) || decide (0x0102 ≤ opcode && opcode ≤ 0x0104)
  if d.nvme.sanitize.isSome then some Status.deviceHold
  else match d.hearth.state with
    | .hold =>
      if w = adminWin then
        needs (decide (1 ≤ opcode && opcode ≤ 0x0106) || decide (0x0901 ≤ opcode && opcode ≤ 0x0907)) Status.deviceHold
      else needs basic Status.deviceHold
    | .halted => needs (basic || (w == adminWin && opcode == 0x0901)) Status.halted
    | _ => none

/-- Step 12: an event ring, and a free ticket. -/
def Dev.ticketRefusal (d : Dev) (w : Nat) : Option Status :=
  let x := d.win w
  if x.ring.isNone then some Status.noEventRing
  else needs (decide (x.tickets.length < ticketsMax)) Status.ticketsExhausted

/-- The status that refuses a request, by the checks of Table 04-16 in order. -/
def Cmd.refusal (c : Cmd) (d : Dev) (x : Ctx) : Option Status :=
  let k := c.check d x
  firstFail [
    needs (d.windowEnabled x.w) Status.tenantDisabled,
    needs (x.v != 0 || c.opcode == 0x0001) Status.notNegotiated,
    needs (decide (c.since ≤ x.v) || c.opcode == 0x0001) Status.opcodeUnknown,
    needs (!c.admin || x.isAdmin) Status.adminOnly,
    d.stateRefusal x.w c.opcode,
    needs (k.lenOk && (if k.sgl then decide (1 ≤ x.r.sglCount && x.r.sglCount ≤ 4096) else x.r.sglCount == 0)) Status.badLength,
    needs (x.r.hdrRsv == 0 && k.rsvOk) Status.reservedNonzero,
    k.field,
    k.object,
    needs (d.sglOk x && k.sglOk) Status.badSgl,
    k.state,
    if c.ticketed then d.ticketRefusal x.w else none,
    k.own]

/-- The bytes of a response (Table 04-14). -/
def respBytes (status ticket tick : Nat) (payload : List Byte) : List Byte :=
  leBytes 2 status ++ leBytes 2 payload.length ++ leBytes 4 ticket ++ leBytes 8 tick ++ payload

/-- The response written and STATE made DONE, with DONE_PENDING (R139). -/
def Dev.respond (d : Dev) (w status ticket : Nat) (payload : List Byte) : Dev :=
  (d.modWin w (fun x => { x with resp := respBytes status ticket d.tick.count payload, state := .done })).donePending w

/-- The bytes of the request area from 0x040 (Table 04-13). -/
def requestBytes (opcode : Nat) (r : Request) : List Byte :=
  leBytes 2 opcode ++ leBytes 2 r.len ++ leBytes 2 r.sglCount ++ leBytes 2 r.hdrRsv ++ leBytes 8 r.sglAddr ++ r.payload.take 1968

/-- The request as the host writes it into the request area; writes to a BUSY window are discarded (R138). -/
def Dev.writeRequest (d : Dev) (w opcode : Nat) (r : Request) : Dev :=
  d.modWin w (fun x => if x.state = .busy then x else { x with reqArea := Mem.writeAll 0 x.reqArea 0x40 (requestBytes opcode r) })

/-- Whether a doorbell is discarded: the window is BUSY, or bring-up or recovery runs (R137, R141). -/
def Dev.doorbellDiscarded (d : Dev) (w : Nat) : Bool :=
  (d.win w).state == .busy || d.hearth.state == .boot || d.hearth.state == .recovery

/-- A refused command: its response, and COMMANDS_REFUSED (R146). -/
def Dev.refuse (d : Dev) (w : Nat) (s : Status) : Dev := (d.count Counter.commandsRefused w 1).respond w s 0 []

/-- A command that no check refuses: the ticket, the effect, the response. -/
def Cmd.accept (c : Cmd) (d : Dev) (x : Ctx) : Dev :=
  if c.ticketed then
    let (d, n) := d.issueTicket x.w c.opcode (c.check d x).subject x.r
    let a := c.run d x n
    a.dev.respond x.w Status.accepted n a.payload
  else
    let a := c.run d x 0
    a.dev.respond x.w a.status 0 a.payload

/-- A request taken up by the Hearth: refused, or accepted. -/
def Cmd.serve (c : Cmd) (d : Dev) (x : Ctx) : Dev :=
  match c.refusal d x with
  | some s => d.refuse x.w s
  | none => c.accept d x

/-- The doorbell latched: STATE becomes BUSY, TAG is latched, the previous response is discarded (R136). -/
def Dev.latch (d : Dev) (w tag : Nat) : Dev := d.modWin w (fun y => { y with tag := tag, state := .busy, resp := [] })

/-- In Slumber, a doorbell or a change of request makes the device not quiet (R621). -/
def Dev.wakeUp (d : Dev) : Dev := if d.bellows.slumber then { d with bellows := { d.bellows with wake := true } } else d

/-- A doorbell with GO = 1 for command `c` in window `w`, whose negotiated version is `v` (0 for none). -/
def Cmd.doorbell (c : Cmd) (d : Dev) (w v : Nat) (r : Request) : Dev :=
  if d.stopped then d
  else
    let d := d.writeRequest w c.opcode r
    if d.doorbellDiscarded w then d.modWin w (fun y => { y with ignored := true })
    else c.serve (d.latch w r.tag).wakeUp { w := w, v := v, r := r }

end Sys2Proof.Machine
end

