-- ==== Sys2Proof/Machine/State.lean ====
section
/-!
DEFINITION. Machine/State.lean: the state of the block, the reasons a command can stop, and the state after reset.
-/
namespace Sys2Proof.Machine

/-- The state: the commands that wait, the HCP version negotiated in each window that has negotiated, by window number (Table 04-7), and the device. -/
structure State where
  pending : List Instr
  hdr : AMap Nat
  dev : Dev
  deriving DecidableEq, Repr

/-- The faults that stop the block. -/
inductive Fault where
  /-- No command raises it: the spec gives the block no fault that ends its run, every failure being a status, an event or a change of state.
  Safe: it is never reached. -/
  | neverRaised
  deriving DecidableEq, Repr

/-- The reasons a command has no effect in the model. -/
inductive Refusal where
  /-- Raised by Dispatch for a row without a meaning. Safe: no claim can rest on its effect. -/
  | notModelled (mnemonic : String)
  deriving DecidableEq, Repr

/-- The state right after reset: no command waits, no window has negotiated, and the device is at its reset values. -/
def State.reset : State := { pending := [], hdr := [], dev := Dev.init }

end Sys2Proof.Machine
end

