-- ==== Sys2Proof/Machine/Meaning.lean ====
section
/-!
DEFINITION. Machine/Meaning.lean: the shapes of a meaning: an effect on the device alone, and a doorbell.
-/
namespace Sys2Proof.Machine

/-- An outcome of the block. -/
abbrev Out := Host.Outcome State Fault Refusal

/-- A next state in which the device has changed by `f`, and the queue and the negotiated versions stand. -/
def State.onDev (s : State) (f : Dev → Dev) : Out := .next { s with dev := f s.dev }

/-- As `onDev`, for an event of the hardware: with the clocks stopped nothing happens (R251, R627, R711). -/
def State.onRunning (s : State) (f : Dev → Dev) : Out := s.onDev (fun d => if d.stopped then d else f d)

/-- The version negotiated in window `w`, 0 for none. -/
def State.version (s : State) (w : Nat) : Nat := AMap.getD s.hdr w 0

/-- A doorbell in window `w` for command `c`. -/
def State.onDoorbell (s : State) (c : Cmd) (w : Window) (r : Request) : Out :=
  s.onDev (fun d => c.doorbell d w.num (s.version w.num) r)

end Sys2Proof.Machine
end

