-- ==== Sys2Proof/Machine/Hearth.lean ====
section
/-!
DEFINITION. Machine/Hearth.lean: the commands of the Hearth itself: negotiation, event ring, tickets, parameters, trouble words and the unit map (file 04; R52).
-/
namespace Sys2Proof.Machine

/-! ### What the mailbox shares with other commands -/

/-- Whether the doorbell of command `c` is taken up and its request accepted. -/
def Cmd.accepts (c : Cmd) (d : Dev) (w v : Nat) (r : Request) : Bool :=
  let d1 := d.writeRequest w c.opcode r
  !d.stopped && !d1.doorbellDiscarded w && (c.refusal (d1.latch w r.tag) { w := w, v := v, r := r }).isNone

/-- Every window IDLE, as the device enters HOLD or READY (R141). -/
def Dev.windowsIdle (d : Dev) : Dev :=
  { d with hearth := { d.hearth with wins := AMap.mapKV (fun _ x => { x with state := .idle }) d.hearth.wins } }

/-- The object check of tenant `t`: it exists, and the window may name it (R161). -/
def Dev.tenantObject (d : Dev) (x : Ctx) (t : Nat) : Option Status :=
  firstFail [needs (x.mayName t) Status.notOwner, needs (AMap.has d.tenants t) Status.noSuchTenant]

/-- The object check of stream `sid`: VALID, and the window may name it. -/
def Dev.streamObject (d : Dev) (x : Ctx) (sid : Nat) : Option Status :=
  match AMap.get? d.streams sid with
  | none => some Status.noSuchStream
  | some st => needs (x.mayName st.tenant) Status.notOwner

/-- The object check of a reservoir by its INDEX: the window may name its tenant, and it is attached. -/
def Dev.reservoirObject (d : Dev) (x : Ctx) (i : Nat) : Option Status :=
  firstFail [needs (x.mayName (resTenant i)) Status.notOwner, needs (AMap.has d.haul.reservoirs i) Status.noSuchReservoir]

/-- The object check of an INDEX in the form of a scope (Table 04-24). -/
def Dev.scopeObject (d : Dev) (x : Ctx) (s : Scope) (i : Nat) : Option Status :=
  match s with
  | .chip | .region | .block => none
  | .tenant => d.tenantObject x i
  | .reservoir => d.reservoirObject x i
  | .stream => d.streamObject x i
  | .window => needs (x.isAdmin || x.w == i) Status.notOwner
  | .tenantOrReservoir => if i < 1024 then d.tenantObject x i else d.reservoirObject x i

/-! ### HELLO (R157, R158) -/

/-- The versions of HCP that the device speaks, from the latest (R156). -/
def hcpSpoken : List Nat := [0x0302, 0x0301, 0x0300, 0x0202, 0x0201, 0x0200, 0x0102, 0x0101, 0x0100]

/-- The highest version at least `lo` and at most `hi`. -/
def chooseVersion (lo hi : Nat) : Option Nat := hcpSpoken.find? (fun v => decide (lo ≤ v) && decide (v ≤ hi))

/-- STATE of DEVICE_STATE (Table 04-5). -/
def DevState.code : DevState → Nat
  | .boot => 0
  | .recovery => 1
  | .hold => 2
  | .ready => 3
  | .halted => 4

/-- The response payload of HELLO (Table 04-19b). -/
def Dev.helloPayload (d : Dev) (w v : Nat) : List Byte :=
  leBytes 2 v ++ leBytes 2 0x0100 ++ leBytes 2 0x0302 ++ leBytes 2 0x0100 ++ leBytes 2 0x0204 ++ leBytes 2 0x0100 ++ leBytes 2 0x0201 ++ zeros 2 ++
  leBytes 4 d.hearth.fwVersion ++ leBytes 1 d.boot.fuses.variant ++ leBytes 1 8 ++ leBytes 1 d.B ++ leBytes 1 (variantPorts d.boot.fuses.variant) ++
  leBytes 2 (128 * d.B) ++ leBytes 2 (32 * d.B) ++ leBytes 2 (variantHbm d.boot.fuses.variant) ++
  leBytes 1 (variantChannels d.boot.fuses.variant) ++ zeros 1 ++ leBytes 2 d.boot.diesAccepted ++ leBytes 2 1024 ++ leBytes 2 64 ++ leBytes 2 4096 ++
  leBytes 2 256 ++ zeros 2 ++ leBytes 4 16384 ++ leBytes 4 1048576 ++ leBytes 2 (if w = adminWin then 0 else w) ++
  leBytes 1 (if w = adminWin then 1 else 0) ++ leBytes 1 d.hearth.state.code ++ leBytes 8 d.tick.count ++ leBytes 2 100 ++ leBytes 2 1600 ++ zeros 4

/-- HELLO (R157). -/
def cmdHello : Cmd :=
  { opcode := 0x0001
    check := fun d x =>
      { lenOk := x.r.len == 16
        rsvOk := x.rsv 8 8
        field := needs (decide (x.get 0 2 ≤ x.get 2 2)) Status.fieldInvalid
        state := needs (x.v == 0 || (d.win x.w).tickets.isEmpty) Status.ticketsOutstanding }
    run := fun d x _ =>
      let d := { d with hearth := { d.hearth with log := (d.tick.count, x.get 4 4) :: d.hearth.log } }
      match chooseVersion (x.get 0 2) (x.get 2 2) with
      | none => { dev := d, status := Status.versionUnsupported, payload := d.helloPayload x.w 0 }
      | some v => { dev := d, payload := d.helloPayload x.w v } }

/-- The negotiated versions after a HELLO in window `w`. -/
def helloHdr (hdr : AMap Nat) (d : Dev) (w : Nat) (r : Request) : AMap Nat :=
  if cmdHello.accepts d w (AMap.getD hdr w 0) r then
    match chooseVersion (leAt r.payload 0 2) (leAt r.payload 2 2) with
    | some v => AMap.set hdr w v
    | none => hdr
  else hdr

/-- HELLO (R157). -/
def execHello (w : Window) (r : Request) (s : State) : Out :=
  .next { s with hdr := helloHdr s.hdr s.dev w.num r, dev := cmdHello.doorbell s.dev w.num (s.version w.num) r }

/-! ### SET_EVENT_RING (R151) -/

/-- The ring accepted: TAIL and HEAD 0, PHASE 1, and the staged events posted. -/
def Dev.setRing (d : Dev) (w base : Nat) : Dev :=
  (d.modWin w (fun x => { x with ring := some base, head := 0, tail := 0, phase := true })).flushStaged w

/-- SET_EVENT_RING (R151). -/
def cmdSetEventRing : Cmd :=
  { opcode := 0x0002
    check := fun d x =>
      { lenOk := x.r.len == 16
        rsvOk := x.rsv 8 8
        field := needs (x.get 0 8 % 4096 == 0) Status.fieldInvalid
        state := needs ((d.win x.w).tickets.isEmpty) Status.ticketsOutstanding }
    run := fun d x _ => { dev := d.setRing x.w (x.get 0 8) } }

/-- SET_EVENT_RING (R151). -/
def execSetEventRing (w : Window) (r : Request) (s : State) : Out := s.onDoorbell cmdSetEventRing w r

/-! ### TICKET_QUERY (R160) -/

/-- Whether ticket `n` was ever issued in a window (R147). -/
def Win.issued (x : Win) (n : Nat) : Bool := n != 0 && (x.ticketsWrapped || decide (n < x.nextTicket))

/-- TICKET_QUERY (R160). -/
def cmdTicketQuery : Cmd :=
  { opcode := 0x0003
    check := fun d x =>
      { lenOk := x.r.len == 4
        object := needs ((d.win x.w).issued (x.get 0 4)) Status.noSuchTicket }
    run := fun d x _ =>
      { dev := d
        payload := match d.ticket? x.w (x.get 0 4) with
          | some t => leBytes 1 1 ++ zeros 7 ++ leBytes 8 t.issueTick
          | none => zeros 16 } }

/-- TICKET_QUERY (R160). -/
def execTicketQuery (w : Window) (r : Request) (s : State) : Out := s.onDoorbell cmdTicketQuery w r

/-! ### SET_PARAM and GET_PARAM (R164 to R170) -/

/-- Step 8 for a parameter command (R168). -/
def paramField (x : Ctx) (setting : Bool) : Option Status :=
  match paramDef (x.get 0 2) with
  | none => some Status.paramUnknown
  | some p => firstFail [needs (!(setting && p.admin) || x.isAdmin) Status.adminOnly, needs (p.scope.indexOk (x.get 4 4)) Status.fieldInvalid]

/-- Step 9 for a parameter command. -/
def Dev.paramObject (d : Dev) (x : Ctx) : Option Status :=
  match paramDef (x.get 0 2) with
  | none => none
  | some p => d.scopeObject x p.scope (x.get 4 4)

/-- The response payload of SET_PARAM and GET_PARAM (Table 04-22). -/
def paramReply (x : Ctx) (applied pending eff : Nat) : List Byte :=
  leBytes 2 (x.get 0 2) ++ zeros 2 ++ leBytes 4 (x.get 4 4) ++ leBytes 8 applied ++ leBytes 8 pending ++ leBytes 8 eff

/-- SET_PARAM (R168). -/
def cmdSetParam : Cmd :=
  { opcode := 0x0101
    check := fun d x =>
      { lenOk := x.r.len == 16
        rsvOk := x.rsv 2 2
        field := paramField x true
        object := d.paramObject x }
    run := fun d x _ =>
      match paramDef (x.get 0 2) with
      | none => { dev := d }
      | some p =>
        let (d, a, q, e) := d.setParam p (x.get 4 4) (x.get 8 8)
        { dev := d, payload := paramReply x a q e } }

/-- SET_PARAM (R168). -/
def execSetParam (w : Window) (r : Request) (s : State) : Out := s.onDoorbell cmdSetParam w r

/-- GET_PARAM (R168). -/
def cmdGetParam : Cmd :=
  { opcode := 0x0102
    check := fun d x =>
      { lenOk := x.r.len == 16
        rsvOk := x.rsv 2 2 && x.rsv 8 8
        field := paramField x false
        object := d.paramObject x }
    run := fun d x _ =>
      match paramDef (x.get 0 2) with
      | none => { dev := d }
      | some p =>
        let (a, q, e) := d.getParam p (x.get 4 4)
        { dev := d, payload := paramReply x a q e } }

/-- GET_PARAM (R168). -/
def execGetParam (w : Window) (r : Request) (s : State) : Out := s.onDoorbell cmdGetParam w r

/-! ### Trouble words (R173, R174) -/

/-- READ_TROUBLE (R173). -/
def cmdReadTrouble : Cmd :=
  { opcode := 0x0104
    check := fun _ x => { lenOk := x.r.len == 0 }
    run := fun d _ _ => { dev := d, payload := d.troubleBytes } }

/-- READ_TROUBLE (R173). -/
def execReadTrouble (w : Window) (r : Request) (s : State) : Out := s.onDoorbell cmdReadTrouble w r

/-- The entries of CLEAR_STICKY: WORD, INDEX and MASK (R174). -/
def stickyEntries (x : Ctx) : List (Nat × Nat × Nat) :=
  (List.range (x.get 0 2)).map (fun k => (x.get (8 + 16 * k) 1, x.get (10 + 16 * k) 2, x.get (16 + 16 * k) 8))

/-- Whether the reserved bytes of entry `k` are 0, and its MASK names only defined bits of its word (R174). -/
def stickyEntryRsv (x : Ctx) (k : Nat) : Bool :=
  let word := x.get (8 + 16 * k) 1
  let t := TroubleWord.ofCode word
  x.rsv (9 + 16 * k) 1 && x.rsv (12 + 16 * k) 4 &&
  (decide (3 < word) || (x.get (16 + 16 * k) 8 ||| (stickyMask t ||| rollupMask t)) == (stickyMask t ||| rollupMask t))

/-- Whether INDEX lies in its word's range (R174). -/
def stickyIndexOk (word i : Nat) : Bool := if word = 0 then decide (i < 128) else if word = 1 then decide (i < 8) else i == 0

/-- Entries of CLEAR_STICKY applied in order: the device, and the masks cleared. -/
def Dev.clearEntries (d : Dev) (l : List (Nat × Nat × Nat)) : Dev × List Byte :=
  match l with
  | [] => (d, [])
  | (w, i, m) :: r =>
    let (d, c) := d.clearBits (TroubleWord.ofCode w) i m
    let (d, bs) := Dev.clearEntries d r
    (d, leBytes 8 c ++ bs)

/-- CLEAR_STICKY (R174). -/
def cmdClearSticky : Cmd :=
  { opcode := 0x0105
    admin := true
    check := fun _ x =>
      { lenOk := x.r.len == 8 + 16 * x.get 0 2
        rsvOk := x.rsv 2 6 && (List.range (x.get 0 2)).all (stickyEntryRsv x)
        field := needs (decide (1 ≤ x.get 0 2 && x.get 0 2 ≤ 122) &&
                   (stickyEntries x).all (fun e => decide (e.1 ≤ 3) && stickyIndexOk e.1 e.2.1)) Status.fieldInvalid }
    run := fun d x _ =>
      let (d, bs) := d.clearEntries (stickyEntries x)
      { dev := d, payload := leBytes 2 (x.get 0 2) ++ zeros 6 ++ bs } }

/-- CLEAR_STICKY (R174). -/
def execClearSticky (w : Window) (r : Request) (s : State) : Out := s.onDoorbell cmdClearSticky w r

/-! ### UNIT_MAP (R52) -/

/-- The fuses of region die `r`. -/
def Dev.dieFuses (d : Dev) (r : Nat) : DieFuses := d.boot.fuses.dies.getD r DieFuses.full

/-- Indices of a list of fused states that are in one state. -/
def fusedAs (l : List FuseState) (s : FuseState) : List Nat := (List.range l.length).filter (fun i => l[i]? == some s)

/-- The physical block behind global block `g` (R51, R687). -/
def Dev.physBlock (d : Dev) (g : Nat) : Nat :=
  match (d.block g).physOverride with
  | some p => p
  | none => (fusedAs (d.dieFuses (d.regionOfBlock g)).blocks .enabled).getD (g % d.B) 0

/-- The fused cell states of the physical block behind global block `g`. -/
def Dev.cellFuses (d : Dev) (g : Nat) : List FuseState := (d.dieFuses (d.regionOfBlock g)).cells.getD (d.physBlock g) []

/-- The physical cell behind logical cell `c` of global block `g`. -/
def Dev.physCell (d : Dev) (g c : Nat) : Nat :=
  match (d.block g).cellSpares.find? (fun p => p.2 == c) with
  | some p => p.1
  | none => (fusedAs (d.cellFuses g) .enabled).getD c 0

/-- STATE of a UNIT_MAP entry (Table 02-10). -/
def Dev.mapState (d : Dev) (c : UnitClass) (i : Nat) : Nat :=
  let u := d.unit c i
  let b := d.unit .block (blockOfUnit c i)
  if u.service = .absent then 4
  else if u.service = .quarantined then 2
  else if u.service = .fenced || b.service == .fenced || (d.region (d.regionOfUnit c i)).fenced then 3
  else if u.gated || (b.gated && c != .block) then 5
  else if u.service = .demoted then 1
  else 0

/-- A UNIT_MAP entry (Table 02-10). -/
def mapEntry (logical physBlock physUnit st : Nat) : List Byte :=
  leBytes 2 logical ++ leBytes 1 physBlock ++ leBytes 1 physUnit ++ leBytes 1 st ++ zeros 3

/-- Spare blocks of region `r` that are not mapped in. -/
def Dev.freeSpareBlocks (d : Dev) (r : Nat) : List Nat :=
  let used := (List.range d.B).map (fun b => d.physBlock (r * d.B + b))
  (fusedAs (d.dieFuses r).blocks .spare).filter (fun p => !used.contains p)

/-- The spare cell of global block `g`, while it is not mapped in. -/
def Dev.freeSpareCells (d : Dev) (g : Nat) : List Nat :=
  (fusedAs (d.cellFuses g) .spare).filter (fun p => !((d.block g).cellSpares.any (fun q => q.1 == p)))

/-- Blocks of region `r` that hold a logical index, by global index. -/
def Dev.indexedBlocks (d : Dev) (r : Nat) : List Nat :=
  ((List.range d.B).map (fun b => r * d.B + b)).filter (fun g => (d.unit .block g).service != .absent)

/-- The result of UNIT_MAP for a region and a kind (R52). -/
def Dev.unitMap (d : Dev) (r kind : Nat) : List Byte :=
  if kind = 0 then
    ((List.range d.B).map (fun b => r * d.B + b)).flatMap (fun g => mapEntry g (d.physBlock g) 0xFF (d.mapState .block g)) ++
    (d.freeSpareBlocks r).flatMap (fun p => mapEntry 0xFFFF p 0xFF 6)
  else if kind = 1 then
    (d.indexedBlocks r).flatMap (fun g => (List.range 16).flatMap (fun c =>
      mapEntry (g * 16 + c) (d.physBlock g) (d.physCell g c) (d.mapState .cell (g * 16 + c)))) ++
    (sortByKey (fun p => p.1 * 32 + p.2) ((d.indexedBlocks r).flatMap (fun g => (d.freeSpareCells g).map (fun c => (d.physBlock g, c))))).flatMap
      (fun p => mapEntry 0xFFFF p.1 p.2 6)
  else
    (d.indexedBlocks r).flatMap (fun g => (List.range 4).flatMap (fun l =>
      mapEntry (g * 4 + l) (d.physBlock g) l (d.mapState .lane (g * 4 + l))))

/-- UNIT_MAP (R52). -/
def cmdUnitMap : Cmd :=
  { opcode := 0x0106
    since := 0x0200
    admin := true
    ticketed := true
    check := fun _ x =>
      { lenOk := x.r.len == 8
        sgl := true
        rsvOk := x.rsv 2 6
        field := needs (decide (x.get 0 1 < 8 && x.get 1 1 < 3)) Status.fieldInvalid }
    run := fun d _ _ => { dev := d } }

/-- UNIT_MAP (R52). -/
def execUnitMap (w : Window) (r : Request) (s : State) : Out := s.onDoorbell cmdUnitMap w r

/-- Ticket `n` of window `w` when it is outstanding for the given opcode: the event of its completion has no effect on any other. -/
def Dev.ticketOf (d : Dev) (w n opcode : Nat) : Option Ticket := (d.ticket? w n).filter (fun t => t.opcode == opcode)

/-- The unit map written to the scatter list, and the ticket completed (R52). -/
def Dev.unitMapDone (d : Dev) (w n : Nat) : Dev :=
  match d.ticketOf w n 0x0106 with
  | none => d
  | some t => d.completeWith w n (d.unitMap (leAt t.req 0 1) (leAt t.req 1 1))

/-- UNIT_MAP_DONE (R52). -/
def execUnitMapDone (w : Window) (ticket : Nat) (s : State) : Out := s.onRunning (fun d => d.unitMapDone w.num ticket)

/-! ### Opcodes that are not defined (R159, Table 04-16 step 3) -/

/-- A doorbell that carries an opcode of no row: nothing of its own is checked, and step 3 refuses it. -/
def cmdUnknown (opcode : Nat) : Cmd := { opcode := opcode, since := 2 ^ 16, check := fun _ _ => {}, run := fun d _ _ => { dev := d } }

/-! ### Registers of the windows (Tables 04-10, 04-11) -/

/-- A write of MBX_IRQ: pending bits clear where 1 is written; an enable written 1 over a pending bit sends a message (R140). -/
def Dev.writeIrq (d : Dev) (w v : Nat) : Dev :=
  let x := d.win w
  let y : Win := { x with
    eventPending := x.eventPending && !bitOf v 9, donePending := x.donePending && !bitOf v 8, eventEn := bitOf v 1, doneEn := bitOf v 0 }
  let d := d.setWin w y
  let d := if bitOf v 1 && y.eventPending then d.emit (.msix w) else d
  if bitOf v 0 && y.donePending then d.emit (.msix w) else d

/-- MBX_IRQ_WRITE (R140). -/
def execMbxIrqWrite (w : Window) (value : Nat) (s : State) : Out := s.onRunning (fun d => d.writeIrq w.num value)

/-- A write of EVT_HEAD: entries are freed, and staged events are posted into them (R153, R154). -/
def Dev.writeHead (d : Dev) (w v : Nat) : Dev := (d.modWin w (fun x => { x with head := v % ringEntries })).flushStaged w

/-- EVT_HEAD_WRITE (R153). -/
def execEvtHeadWrite (w : Window) (value : Nat) (s : State) : Out := s.onRunning (fun d => d.writeHead w.num value)

/-- TICK_COUNT_LO_READ: the lower half is returned and the upper half latched (R17). -/
def execTickCountLoRead (s : State) : Out :=
  s.onRunning (fun d => ({ d with tick := { d.tick with hiLatch := some (d.tick.count / 2 ^ 32) } }).emit (.readData (leBytes 4 d.tick.count)))

end Sys2Proof.Machine
end

