-- ==== Sys2Proof/Machine/Tongs.lean ====
section
/-!
DEFINITION. Machine/Tongs.lean: pooled pages, buffers, audits, stream contexts and the directory of their lines (file 03).
-/
namespace Sys2Proof.Machine

/-! ### Pooled pages (R92 to R94) -/

/-- The pooled area of a stack in MiB (Table 03-1). -/
def Dev.pooledMib (d : Dev) : Nat := if d.boot.fuses.variant = 1 then 47000 else if d.boot.fuses.variant = 2 then 34712 else 22424

/-- Pages of the pooled area used in region `r`. -/
def Dev.pagesUsed (d : Dev) (r : Nat) : Nat := sumNat ((d.tongs.pages.filter (fun p => p.region == r)).map PageUse.pages)

/-- Pages free in region `r`, none in a region that is not in service. -/
def Dev.pagesFree (d : Dev) (r : Nat) : Nat := if d.regionIn r then d.pooledMib / 2 - sumNat d.tongs.poolMiB / 2 - d.pagesUsed r else 0

/-- Kinds of owner of pooled pages. -/
def PageKind.program : Nat := 0
def PageKind.vocab : Nat := 1
def PageKind.screen : Nat := 2
def PageKind.window : Nat := 3
def PageKind.shadow : Nat := 4

/-- `n` pages of region `r` taken for an owner. -/
def Dev.takePages (d : Dev) (kind owner r n : Nat) : Dev :=
  if n = 0 then d
  else { d with tongs := { d.tongs with pages := d.tongs.pages ++ [{ kind := kind, owner := owner, region := r, pages := n }] } }

/-- An owner's pages returned. -/
def Dev.freePages (d : Dev) (kind owner : Nat) : Dev :=
  { d with tongs := { d.tongs with pages := d.tongs.pages.filter (fun p => !(p.kind == kind && p.owner == owner)) } }

/-- Pages of 2 MiB that hold `n` bytes. -/
def pagesFor (n : Nat) : Nat := ceilDiv n 2097152

/-! ### Buffers (R114 to R126) -/

/-- Bytes of a buffer of pool `p`. -/
def poolSize (p : Nat) : Nat := if p = 0 then 4096 else if p = 1 then 65536 else if p = 2 then 1048576 else 16777216

/-- Buffers of pool `p` in each region. -/
def Dev.poolCount (d : Dev) (p : Nat) : Nat := d.tongs.poolMiB.getD p 0 * 1048576 / poolSize p

/-- The smallest pool whose buffers hold `n` bytes. -/
def poolFor (n : Nat) : Nat := if n ≤ 4096 then 0 else if n ≤ 65536 then 1 else if n ≤ 1048576 then 2 else 3

/-- A handle (Table 03-8). -/
def mkHandle (region pool index : Nat) : Nat := region * 2 ^ 29 + pool * 2 ^ 27 + index

/-- REGION of a handle. -/
def handleRegion (h : Nat) : Nat := bitField h 29 3

/-- POOL of a handle. -/
def handlePool (h : Nat) : Nat := bitField h 27 2

/-- INDEX of a handle. -/
def handleIndex (h : Nat) : Nat := bitField h 0 20

/-- Whether a handle names a buffer of a region in service. -/
def Dev.handleOk (d : Dev) (h : Nat) : Bool := d.regionIn (handleRegion h) && decide (handleIndex h < d.poolCount (handlePool h))

/-- The free list of a pool. -/
def Dev.pool (d : Dev) (r p : Nat) : Pool := AMap.getD d.tongs.pools (r * 4 + p) { fresh := 0, freed := [] }

/-- The first buffer of a pool's free list, and the list after it: buffers run in index order, then in the order of their frees (R116, R120). -/
def Dev.poolTake (d : Dev) (r p : Nat) : Option (Nat × Pool) :=
  let l := d.pool r p
  if l.fresh < d.poolCount p then some (l.fresh, { l with fresh := l.fresh + 1 })
  else match l.freed with
    | [] => none
    | i :: rest => some (i, { l with freed := rest })

/-- A buffer given out (R123). -/
def Dev.giveBuf (d : Dev) (r p i : Nat) (l : Pool) (len tenant cls : Nat) : Dev :=
  let b : BufRec := { allocTick := d.tick.count, refcount := 1, freed := false, ownerClass := cls, ownerTenant := tenant, length := len }
  { d with tongs := { d.tongs with pools := AMap.set d.tongs.pools (r * 4 + p) l, bufs := AMap.set d.tongs.bufs (mkHandle r p i) b } }

/-- The pools tried for `len` bytes asked for in region `r`, in the order of R117. -/
def Dev.poolOrder (d : Dev) (r len : Nat) : List (Nat × Nat) :=
  let rs := ((List.range 8).map (fun k => (r + k) % 8)).filter d.regionIn
  rs.flatMap (fun q => ((List.range 4).filter (fun p => decide (poolFor len ≤ p))).map (fun p => (q, p)))

/-- A request for `len` bytes served from the first pool that has a free buffer, or none (R117). -/
def Dev.allocBuf (d : Dev) (r len tenant cls : Nat) : Option (Nat × Dev) :=
  match (d.poolOrder r len).findSome? (fun rp => (d.poolTake rp.1 rp.2).map (fun t => (rp, t))) with
  | none => none
  | some ((q, p), (i, l)) =>
    let d' := d.giveBuf q p i l len tenant cls
    some (mkHandle q p i, if q = r && p = poolFor len then d' else d'.count Counter.poolSpill q 1)

/-- A request that no pool serves waits in its region's queue (R118). -/
def Dev.waitBuf (d : Dev) (r len tenant cls item link : Nat) : Dev :=
  let w : BufWaiter := { region := r, pool := poolFor len, len := len, tenant := tenant, cls := cls, item := item, link := link }
  Dev.count { d with tongs := { d.tongs with waiting := d.tongs.waiting ++ [w] } } Counter.poolWait tenant 1

/-- A request for `len` bytes: a handle now, or a place in the queue (R117, R118). -/
def Dev.requestBuf (d : Dev) (r len tenant cls item link : Nat) : Option Nat × Dev :=
  match d.allocBuf r len tenant cls with
  | some (h, d) => (some h, d)
  | none => (none, d.waitBuf r len tenant cls item link)

/-- The links of a payload of `len` bytes: 16 MiB each, then the remainder (R119). -/
def chainLinks (len : Nat) : List Nat :=
  List.replicate (len / 16777216) 16777216 ++ (if len % 16777216 = 0 then [] else [len % 16777216])

/-- Every link of a chain asked for: the handles given at once by link, and how many wait. -/
def Dev.requestChain (d : Dev) (r tenant cls item link : Nat) (lens : List Nat) : List (Nat × Nat) × Nat × Dev :=
  match lens with
  | [] => ([], 0, d)
  | n :: rest =>
    let (h, d) := d.requestBuf r n tenant cls item link
    let (hs, k, d) := Dev.requestChain d r tenant cls item (link + 1) rest
    match h with
    | some b => ((link, b) :: hs, k, d)
    | none => (hs, k + 1, d)

/-- A free buffer of region `r` and pool `p` given to the first waiter of the region that it holds (R118). -/
def Dev.serveWaiter (d : Dev) (r p : Nat) : Dev :=
  match d.tongs.waiting.findIdx? (fun w => w.region == r && decide (w.pool ≤ p)) with
  | none => d
  | some k =>
    match d.tongs.waiting[k]?, d.poolTake r p with
    | some w, some (i, l) =>
      let d := d.giveBuf r p i l w.len w.tenant w.cls
      let d := if p = w.pool then d else d.count Counter.poolSpill r 1
      let d := if w.item = 0 then d.emit (.buffer (mkHandle r p i)) else d
      { d with tongs := { d.tongs with
          waiting := d.tongs.waiting.eraseIdx k
          grants := if w.item = 0 then d.tongs.grants else d.tongs.grants ++ [(w.item, w.link, mkHandle r p i)] } }
    | _, _ => d

/-- A buffer freed: FREED becomes 1, it joins its free list, and a waiter is served (R118, R120, R124). -/
def Dev.freeBuf (d : Dev) (h : Nat) : Dev :=
  let r := handleRegion h
  let p := handlePool h
  let l := d.pool r p
  let d := { d with tongs := { d.tongs with
    bufs := AMap.mod d.tongs.bufs h (fun b => { b with refcount := 0, freed := true })
    pools := AMap.set d.tongs.pools (r * 4 + p) { l with freed := l.freed ++ [handleIndex h] } } }
  if d.regionIn r then d.serveWaiter r p else d

/-- DOUBLE_FREE: a SHARE (0) or DROP (1) on a buffer whose FREED bit is 1 (R126). -/
def Dev.doubleFree (d : Dev) (h op cls tenant : Nat) : Dev :=
  (d.count Counter.doubleFreeCount 0 1).event adminWin EventCode.doubleFree 0 [(20, 4, h), (24, 1, op), (25, 1, cls), (26, 2, tenant)]

/-- DROP (R124, R126). -/
def Dev.dropBuf (d : Dev) (h cls tenant : Nat) : Dev :=
  if !d.handleOk h then d
  else match AMap.get? d.tongs.bufs h with
    | none => d.doubleFree h 1 cls tenant
    | some b =>
      if b.freed then d.doubleFree h 1 cls tenant
      else if b.refcount ≤ 1 then d.freeBuf h
      else { d with tongs := { d.tongs with bufs := AMap.set d.tongs.bufs h { b with refcount := b.refcount - 1 } } }

/-- Buffers DROPped one after another. -/
def Dev.dropBufs (d : Dev) (hs : List Nat) (cls tenant : Nat) : Dev := hs.foldl (fun d h => d.dropBuf h cls tenant) d

/-- A refused SHARE: the data is copied into a buffer of the requester's own tenant (R125). -/
def Dev.copyBuf (d : Dev) (h len tenant cls : Nat) : Dev :=
  let (b, d) := d.requestBuf (handleRegion h) len tenant cls 0 0
  match b with
  | some b => d.emit (.buffer b)
  | none => d

/-- SHARE (R124 to R126). -/
def Dev.shareBuf (d : Dev) (h cls tenant : Nat) : Dev :=
  if !d.handleOk h then d
  else match AMap.get? d.tongs.bufs h with
    | none => d.doubleFree h 0 cls tenant
    | some b =>
      if b.freed then d.doubleFree h 0 cls tenant
      else if b.ownerTenant ≠ tenant then d.copyBuf h b.length tenant cls
      else if b.refcount = 65535 then (d.count Counter.refcountSaturated 0 1).copyBuf h b.length tenant cls
      else { d with tongs := { d.tongs with bufs := AMap.set d.tongs.bufs h { b with refcount := b.refcount + 1 } } }

/-- A hand-off: OWNER_CLASS becomes the receiver's (R123). -/
def Dev.handBufs (d : Dev) (hs : List Nat) (cls : Nat) : Dev :=
  { d with tongs := { d.tongs with bufs := hs.foldl (fun m h => AMap.mod m h (fun b => { b with ownerClass := cls })) d.tongs.bufs } }

/-- A further holder for each buffer, within one tenant. -/
def Dev.holdBufs (d : Dev) (hs : List Nat) : Dev :=
  { d with tongs := { d.tongs with bufs := hs.foldl (fun m h => AMap.mod m h (fun b => { b with refcount := min 65535 (b.refcount + 1) })) d.tongs.bufs } }

/-- Owner classes (Table 03-10). -/
def OwnerClass.face : Nat := 0
def OwnerClass.crusher : Nat := 1
def OwnerClass.swage : Nat := 2
def OwnerClass.anvil : Nat := 3
def OwnerClass.screen : Nat := 4
def OwnerClass.wedge : Nat := 5
def OwnerClass.window : Nat := 6
def OwnerClass.hammer : Nat := 7
def OwnerClass.egress : Nat := 8
def OwnerClass.ingest : Nat := 9
def OwnerClass.peer : Nat := 10
def OwnerClass.hearth : Nat := 11

/-- The state record of a buffer (Table 03-9, R122). -/
def Dev.bufRecord (d : Dev) (h : Nat) : List Byte :=
  match AMap.get? d.tongs.bufs h with
  | none => zeros 8 ++ leBytes 2 0 ++ leBytes 2 0x8000 ++ zeros 4
  | some b => leBytes 8 b.allocTick ++ leBytes 2 b.refcount ++
      leBytes 2 (bitNat b.freed * 0x8000 + b.ownerClass * 1024 + b.ownerTenant) ++ leBytes 4 b.length

/-- TONGS_BUFFER_STATE (R122). -/
def cmdTongsBufferState : Cmd :=
  { opcode := 0x0802
    check := fun d x =>
      let h := x.get 0 4
      { lenOk := x.r.len == 8
        rsvOk := x.rsv 4 4 && bitField h 20 7 == 0
        field := needs (d.handleOk h) Status.fieldInvalid
        object := match AMap.get? d.tongs.bufs h with
          | none => none
          | some b => needs (x.mayName b.ownerTenant) Status.notOwner }
    run := fun d x _ => { dev := d, payload := d.bufRecord (x.get 0 4) } }

/-- TONGS_BUFFER_STATE (R122). -/
def execTongsBufferState (w : Window) (r : Request) (s : State) : Out := s.onDoorbell cmdTongsBufferState w r

/-- BUFFER_ALLOCATE: a request for `len` bytes of a unit in a region (R117, R118). -/
def Dev.bufferAllocate (d : Dev) (r len tenant cls : Nat) : Dev :=
  let (hs, _, d) := d.requestChain r tenant cls 0 0 (chainLinks len)
  hs.foldl (fun d p => d.emit (.buffer p.2)) d

/-- BUFFER_ALLOCATE (R117). -/
def execBufferAllocate (region : Fin 8) (len : Nat) (tenant cls : Nat) (s : State) : Out :=
  s.onRunning (fun d => d.bufferAllocate region.val len tenant cls)

/-- SHARE (R124). -/
def execShare (handle cls tenant : Nat) (s : State) : Out := s.onRunning (fun d => d.shareBuf handle cls tenant)

/-- DROP (R124). -/
def execDrop (handle cls tenant : Nat) (s : State) : Out := s.onRunning (fun d => d.dropBuf handle cls tenant)

/-! ### Leak audits (R127 to R131) -/

/-- Buffers of a pass over the whole device that are allocated, within the audit's scope. -/
def Dev.outstanding (d : Dev) (scope : Option Nat) : List AuditEntry :=
  (d.tongs.bufs.filter (fun p => !p.2.freed && (match scope with | none => true | some t => p.2.ownerTenant == t))).map
    (fun p => { tenant := p.2.ownerTenant, cls := p.2.ownerClass, pool := handlePool p.1, allocTick := p.2.allocTick })

/-- An audit's snapshot (R127). -/
def Dev.snapshot (d : Dev) (a : Audit) : Audit :=
  match a.snapTick with
  | some _ => a
  | none => { a with snapTick := some d.tick.count, entries := d.outstanding a.scope }

/-- Snapshots of the audits of commands, at a boundary (R127); a drain's audit takes its own at step 5 (R131). -/
def Dev.auditSnapshots (d : Dev) : Dev :=
  { d with tongs := { d.tongs with audits := d.tongs.audits.map (fun a => if a.ticket.isSome then d.snapshot a else a) } }

/-- The group of an audit record. -/
def AuditEntry.group (e : AuditEntry) : Nat := (e.tenant * 16 + e.cls) * 4 + e.pool

/-- Groups of an audit in ascending order of tenant, class and pool (R129). -/
def auditGroups (l : List AuditEntry) : List Nat :=
  (sortByKey id (l.map AuditEntry.group)).foldl (fun acc g => if acc.getLast? == some g then acc else acc ++ [g]) []

/-- The bucket of an age (Table 03-11). -/
def ageBucket (a : Nat) : Nat := if a ≤ 15 then 0 else if a ≤ 255 then 1 else if a ≤ 4095 then 2 else if a ≤ 65535 then 3 else 4

/-- A record of an audit result (Table 03-11). -/
def auditRecord (snap g : Nat) (l : List AuditEntry) : List Byte :=
  let es := l.filter (fun e => e.group == g)
  let ages := es.map (fun e => snap - e.allocTick)
  leBytes 2 (g / 64) ++ leBytes 1 (g / 4 % 16) ++ leBytes 1 (g % 4) ++ leBytes 4 es.length ++
  (List.range 5).flatMap (fun k => leBytes 4 (ages.countP (fun a => ageBucket a == k))) ++ leBytes 4 (min (2 ^ 32 - 1) (maxNat ages))

/-- An audit result (Table 03-11). -/
def Audit.result (a : Audit) : List Byte :=
  let snap := a.snapTick.getD 0
  let gs := auditGroups a.entries
  leBytes 8 snap ++ leBytes 4 gs.length ++ leBytes 4 a.entries.length ++ gs.flatMap (fun g => auditRecord snap g a.entries)

/-- The TONGS_LEAK event of a drain's audit, with its sticky bit (R131). -/
def Dev.leakEvent (d : Dev) (t : Nat) (a : Audit) : Dev :=
  if a.entries.isEmpty then d
  else
    let snap := a.snapTick.getD 0
    let gs := auditGroups a.entries
    let oldest := fun g => maxNat ((a.entries.filter (fun e => e.group == g)).map (fun e => snap - e.allocTick))
    let g := (argMax oldest gs).getD 0
    let n := a.entries.countP (fun e => e.group == g)
    (d.chipTrouble ChipBit.tongsLeak).event adminWin EventCode.tongsLeak t
      [(24, 8, snap), (32, 4, gs.length), (36, 4, a.entries.length), (40, 1, g / 4 % 16), (41, 1, g % 4), (44, 4, n),
       (48, 4, min (2 ^ 32 - 1) (oldest g))]

/-- TONGS_AUDIT (R130). -/
def cmdTongsAudit : Cmd :=
  { opcode := 0x0801
    admin := true
    ticketed := true
    check := fun d x =>
      let sc := x.get 0 1
      let t := x.get 2 2
      { lenOk := x.r.len == 8
        sgl := true
        rsvOk := x.rsv 1 1 && bitField t 10 6 == 0 && x.rsv 4 4 && (sc != 0 || t == 0)
        field := needs (decide (sc ≤ 1)) Status.fieldInvalid
        object := needs (sc == 0 || AMap.has d.tenants t) Status.noSuchTenant }
    run := fun d x n =>
      let a : Audit := { scope := if x.get 0 1 = 0 then none else some (x.get 2 2), ticket := some (x.w, n), snapTick := none, entries := [] }
      { dev := { d with tongs := { d.tongs with audits := d.tongs.audits ++ [a] } } } }

/-- TONGS_AUDIT (R130). -/
def execTongsAudit (w : Window) (r : Request) (s : State) : Out := s.onDoorbell cmdTongsAudit w r

/-- The audit of a command completes: its result is written and its ticket completed (R128). -/
def Dev.auditDone (d : Dev) (w n : Nat) : Dev :=
  match d.tongs.audits.find? (fun a => a.ticket == some (w, n) && a.snapTick.isSome) with
  | none => d
  | some a =>
    let d := { d with tongs := { d.tongs with audits := d.tongs.audits.filter (fun b => b.ticket != some (w, n)) } }
    d.completeWith w n a.result

/-! ### Stream contexts (R96 to R102) -/

/-- STATE of a stream context (Table 03-4). -/
def StreamState.code : StreamState → Nat
  | .idle => 1
  | .running => 2
  | .paused => 3
  | .draining => 4
  | .rehoming => 5
  | .lost => 6

/-- The state of a stored code (Table 03-4). -/
def StreamState.ofCode (c : Nat) : StreamState :=
  if c = 2 then .running else if c = 3 then .paused else if c = 4 then .draining else if c = 5 then .rehoming else if c = 6 then .lost else .idle

/-- Whether a sample is resident in the window. -/
def Sample.isResident (s : Sample) : Bool := s.state == .resident

/-- WINDOW_HELD: samples of the stream resident in the window (Table 03-3). -/
def Stream.held (st : Stream) : Nat := st.samples.countP (fun p => p.2.isResident)

/-- A stream context (Table 03-3). -/
def Stream.context (sid : Nat) (st : Stream) : List Byte :=
  leBytes 4 (st.tenant * 2 ^ 20 + sid) ++ leBytes 2 st.dataset ++
  leBytes 1 (st.state.code * 16 + bitNat st.mode * 8 + bitNat st.modeNext * 4) ++ leBytes 1 st.slot ++ leBytes 4 (st.epoch % 2 ^ 24) ++
  leBytes 6 st.cursor ++ leBytes 6 st.size ++ leBytes 16 st.permKey ++ leBytes 8 st.winKey ++ leBytes 16 st.winCtr ++
  leBytes 4 (st.held % 2 ^ 23) ++ zeros 12 ++ leBytes 32 st.resMap ++ leBytes 8 st.emitted ++ leBytes 8 st.eSubst ++ leBytes 8 st.eDefer ++
  leBytes 8 st.eReinsert ++ leBytes 8 st.eSkip ++ leBytes 8 st.startTick ++ padTo st.digest 32 ++ leBytes 4 st.staleness ++ zeros 4 ++
  leBytes 8 st.lastWrite ++ padTo st.stageState 40 ++ leBytes 4 st.writeCount ++ zeros 4

/-- The stream whose context holds the bytes of a line: its fields of Table 03-3 are taken from them, reserved bytes aside. -/
def Stream.ofContext (st : Stream) (bs : List Byte) : Stream :=
  { st with
    tenant := bitField (leAt bs 0 4) 20 10, dataset := leAt bs 4 2, state := StreamState.ofCode (leAt bs 6 1 / 16),
    mode := bitOf (leAt bs 6 1) 3, modeNext := bitOf (leAt bs 6 1) 2, slot := leAt bs 7 1, epoch := leAt bs 8 3, cursor := leAt bs 12 6,
    size := leAt bs 18 6, permKey := leAt bs 24 16, winKey := leAt bs 40 8, winCtr := leAt bs 48 16, resMap := leAt bs 80 32,
    emitted := leAt bs 112 8, eSubst := leAt bs 120 8, eDefer := leAt bs 128 8, eReinsert := leAt bs 136 8, eSkip := leAt bs 144 8,
    startTick := leAt bs 152 8, digest := bytesAt bs 160 32, staleness := leAt bs 192 4, lastWrite := leAt bs 200 8,
    stageState := bytesAt bs 208 40, writeCount := leAt bs 248 4 }

/-- The home-map entry of a stream (Table 03-2). -/
def Stream.homeEntry (st : Stream) : Nat := 2 ^ 31 + st.home * 2 ^ 28 + st.homeSlot

/-- Context slots of a region (Table 03-1). -/
def contextSlots : Nat := 163840

/-- Valid contexts in region `r`. -/
def Dev.contextsIn (d : Dev) (r : Nat) : Nat := d.streams.countP (fun p => p.2.home == r)

/-- The least slot of region `r` that no context holds. -/
def Dev.freeSlot (d : Dev) (r : Nat) : Option Nat :=
  let used := (d.streams.filter (fun p => p.2.home == r)).map (fun p => p.2.homeSlot)
  (List.range (min contextSlots (used.length + 1))).find? (fun k => !used.contains k)

/-- The home of a new context: the in-service region with the fewest contexts, the lowest on a tie, and its lowest free slot (R97). -/
def Dev.chooseHome (d : Dev) : Option (Nat × Nat) :=
  match argMin d.contextsIn d.regionsIn with
  | none => none
  | some r => (d.freeSlot r).map (fun k => (r, k))

/-- The key of a context line. -/
def lineKey (r slot : Nat) : Nat := r * contextSlots + slot

/-- The directory's record of a line. -/
def Dev.line (d : Dev) (r slot : Nat) : DirState := ((AMap.get? d.tongs.lines (lineKey r slot)).map DirLine.state).getD .uncached

/-- The stream whose context lies in a slot. -/
def Dev.streamAt (d : Dev) (r slot : Nat) : Option (Nat × Stream) := d.streams.find? (fun p => p.2.home == r && p.2.homeSlot == slot)

/-- The newest copy of a line (R101). -/
def Dev.lineBytes (d : Dev) (r slot : Nat) : List Byte :=
  match d.streamAt r slot with
  | some (sid, st) => st.context sid
  | none => zeros 256

/-- A line's record replaced; an uncached line is not listed, since the stack then holds its newest copy. -/
def Dev.setLine (d : Dev) (r slot : Nat) (x : DirState) : Dev :=
  let k := lineKey r slot
  let stack := match AMap.get? d.tongs.lines k with
    | some l => if l.state = .uncached then d.lineBytes r slot else l.stack
    | none => d.lineBytes r slot
  { d with tongs := { d.tongs with
      lines := if x = .uncached then AMap.del d.tongs.lines k else AMap.set d.tongs.lines k { state := x, stack := stack } } }

/-- What the stack holds of a line: stale while a block holds it modified. -/
def Dev.stackBytes (d : Dev) (r slot : Nat) : List Byte :=
  match AMap.get? d.tongs.lines (lineKey r slot) with
  | some l => l.stack
  | none => d.lineBytes r slot

/-- The stack made to hold the newest copy of a line. -/
def Dev.writeStack (d : Dev) (r slot : Nat) : Dev :=
  let bs := d.lineBytes r slot
  { d with tongs := { d.tongs with lines := AMap.mod d.tongs.lines (lineKey r slot) (fun l => { l with stack := bs }) } }

/-- The directory's part of a write through the hub port: an owner merges it, sharers are invalidated and the stack is written (Table 03-5). -/
def Dev.hubWriteLine (d : Dev) (r slot : Nat) : Dev :=
  match d.line r slot with
  | .owned b _ => d.setLine r slot (.owned b true)
  | .shared _ => d.setLine r slot .uncached
  | .uncached => d

/-- The state of a stream but for a re-homing: the one to which it returns (R112). -/
def Stream.standing (st : Stream) : StreamState := if st.state = .rehoming then st.resumeState else st.state

/-- A stream enters a state, at once or, while its context moves, when it returns from there (R112). -/
def Stream.enter (st : Stream) (x : StreamState) : Stream := if st.state = .rehoming then { st with resumeState := x } else { st with state := x }

/-- Stream `sid` changed by `f` as a unit writes its context: LAST_WRITE_TICK and WRITE_COUNT follow (Table 03-3). -/
def Dev.writeStream (d : Dev) (sid : Nat) (f : Stream → Stream) : Dev :=
  match AMap.get? d.streams sid with
  | none => d
  | some st =>
    let n := f st
    let d := { d with streams := AMap.set d.streams sid { n with lastWrite := d.tick.count, writeCount := (st.writeCount + 1) % 2 ^ 32 } }
    d.hubWriteLine st.home st.homeSlot

/-- Stream `sid` changed by `f` in what its units keep beside its context. -/
def Dev.modStream (d : Dev) (sid : Nat) (f : Stream → Stream) : Dev := { d with streams := AMap.mod d.streams sid f }

/-- CONTEXT_READ (R102). -/
def cmdContextRead : Cmd :=
  { opcode := 0x0407
    check := fun d x =>
      { lenOk := x.r.len == 8
        rsvOk := bitField (x.get 0 4) 20 12 == 0 && x.rsv 4 4
        object := d.streamObject x (x.get 0 4) }
    run := fun d x _ =>
      { dev := d
        payload := match AMap.get? d.streams (x.get 0 4) with
          | some st => st.context (x.get 0 4) ++ leBytes 4 st.homeEntry ++ zeros 4
          | none => [] } }

/-- CONTEXT_READ (R102). -/
def execContextRead (w : Window) (r : Request) (s : State) : Out := s.onDoorbell cmdContextRead w r

/-! ### The directory (R103 to R108) -/

/-- The requester after `b` in rotating order: blocks in index order, then the hub port, 16 (R55). -/
def Dev.nextRequester (d : Dev) (b : Nat) : Nat := if b = 16 then 0 else if d.B ≤ b + 1 then 16 else b + 1

/-- The pointer of region `r`'s arbiter moved past a grant to `b` (R55, R106). -/
def Dev.granted (d : Dev) (r b : Nat) : Dev := d.modRegion r (fun x => { x with arbPtr := d.nextRequester b })

/-- Whether a block may use the directory of its region. -/
def Dev.dirUsable (d : Dev) (r b : Nat) : Bool := d.regionIn r && !(d.region r).resetting && decide (b < d.B) && d.blockIn (r * d.B + b)

/-- READ_SHARED (Table 03-5). -/
def Dev.readShared (d : Dev) (r slot b : Nat) : Dev :=
  if !d.dirUsable r b || decide (contextSlots ≤ slot) then d
  else
    let d := match d.line r slot with
      | .uncached => d.setLine r slot (.owned b false)
      | .shared l => d.setLine r slot (.shared (if l.contains b then l else insertByKey id b l))
      | .owned o m =>
        if o = b then d
        else ((if m then d.writeStack r slot else d).setLine r slot (.shared (sortByKey id [o, b])))
    (d.granted r b).emit (.readData (d.lineBytes r slot))

/-- READ_OWN (Table 03-5). -/
def Dev.readOwn (d : Dev) (r slot b : Nat) : Dev :=
  if !d.dirUsable r b || decide (contextSlots ≤ slot) then d
  else
    let m := match d.line r slot with
      | .owned _ m => m
      | _ => false
    ((d.setLine r slot (.owned b m)).granted r b).emit (.readData (d.lineBytes r slot))

/-- WRITEBACK: an M line leaves the cache; one from a block that is no longer the owner is discarded (Table 03-5, R108). -/
def Dev.writeback (d : Dev) (r slot b : Nat) : Dev :=
  match d.line r slot with
  | .owned o _ => if o = b then d.setLine r slot .uncached else d
  | _ => d

/-- EVICT_CLEAN (Table 03-5). -/
def Dev.evictClean (d : Dev) (r slot b : Nat) : Dev :=
  match d.line r slot with
  | .owned o m => if o = b && !m then d.setLine r slot .uncached else d
  | .shared l => let l' := l.filter (fun x => x != b); d.setLine r slot (if l'.isEmpty then .uncached else .shared l')
  | .uncached => d

/-- HUB_READ (Table 03-5). -/
def Dev.hubRead (d : Dev) (r slot : Nat) : Dev :=
  if !d.regionIn r || (d.region r).resetting then d else (d.granted r 16).emit (.readData (d.lineBytes r slot))

/-- The bytes `new` over `old` where the mask has a 1 bit. -/
def maskedBytes (mask : Nat) (old new : List Byte) : List Byte :=
  (List.range old.length).map (fun i => if bitOf mask i then new.getD i 0 else old.getD i 0)

/-- HUB_WRITE: a byte-masked write of the line (Table 03-5). -/
def Dev.hubWrite (d : Dev) (r slot mask : Nat) (data : List Byte) : Dev :=
  if !d.regionIn r || (d.region r).resetting then d
  else
    let d := d.granted r 16
    match d.streamAt r slot with
    | none => d
    | some (sid, st) => d.writeStream sid (fun _ => st.ofContext (maskedBytes mask (st.context sid) data))

/-- READ_SHARED (R104). -/
def execReadShared (region : Fin 8) (slot : Nat) (block : Fin 16) (s : State) : Out := s.onRunning (fun d => d.readShared region.val slot block.val)

/-- READ_OWN (R104). -/
def execReadOwn (region : Fin 8) (slot : Nat) (block : Fin 16) (s : State) : Out := s.onRunning (fun d => d.readOwn region.val slot block.val)

/-- WRITEBACK (R104). -/
def execWriteback (region : Fin 8) (slot : Nat) (block : Fin 16) (s : State) : Out := s.onRunning (fun d => d.writeback region.val slot block.val)

/-- EVICT_CLEAN (R104). -/
def execEvictClean (region : Fin 8) (slot : Nat) (block : Fin 16) (s : State) : Out := s.onRunning (fun d => d.evictClean region.val slot block.val)

/-- HUB_READ (R104). -/
def execHubRead (region : Fin 8) (slot : Nat) (s : State) : Out := s.onRunning (fun d => d.hubRead region.val slot)

/-- HUB_WRITE (R104). -/
def execHubWrite (region : Fin 8) (slot : Nat) (mask : Nat) (data : List Byte) (s : State) : Out :=
  s.onRunning (fun d => d.hubWrite region.val slot mask data)

end Sys2Proof.Machine
end

