-- ==== Sys2Proof/Machine/Compressor.lean ====
section
/-!
DEFINITION. Machine/Compressor.lean: the compressor's contexts and the blocks they write (R305, R306, R308 to R311).
-/
namespace Sys2Proof.Machine

/-- MAJOR of FW_VERSION (Table 04-3). -/
def Dev.fwMajor (d : Dev) : Nat := d.hearth.fwVersion / 2 ^ 24 % 256

/-- MINOR of FW_VERSION (Table 04-3). -/
def Dev.fwMinor (d : Dev) : Nat := d.hearth.fwVersion / 2 ^ 16 % 256

/-- The stream header (Table 08-5). -/
def bcbHeader (log : Nat) : List Byte :=
  let h := leBytes 4 0x31424342 ++ leBytes 2 0x0100 ++ leBytes 1 log ++ zeros 5
  h ++ leBytes 4 (crc32c h)

/-- The frame of a block when it is one Zstandard frame of the data and shorter than it (R310). -/
def frameOf (fw : Nat) (data : List Byte) : Option (List Byte) :=
  let f := Config.zstdFrame fw data
  match zstdFrame f.toArray data.length 0 #[] with
  | .ok (e, o) => if e = f.length ∧ o.toList = data ∧ f.length < data.length then some f else none
  | .error _ => none

/-- A block of the stream (Table 08-6), and whether it is RAW. -/
def bcbBlock (fw : Nat) (last flushed : Bool) (data : List Byte) : List Byte × Bool :=
  let check := if data.isEmpty then 0 else crc32c data
  let head := fun raw n => leBytes 4 (bitNat last * 128 + bitNat raw * 64 + bitNat flushed * 32) ++ leBytes 4 data.length ++ leBytes 4 n ++ leBytes 4 check
  match frameOf fw data with
  | some f => (head false f.length ++ f, false)
  | none => (head true data.length ++ data, true)

/-- A block written by a context, with the counters of Table 08-8. -/
def Dev.cmpBlock (d : Dev) (c : CmpCtx) (last flushed : Bool) (data : List Byte) : Dev × CmpCtx :=
  let (b, raw) := bcbBlock d.fwMajor last flushed data
  let d := d.count Counter.cmpBlock 0 1
  let d := if raw then d.count Counter.rawStore 0 1 else d
  let d := if flushed then d.count Counter.cmpFlushed 0 1 else d
  (d, { c with out := c.out ++ b })

/-- The blocks that fill with the data held, each ended at BLOCK_MAX (R309). -/
def Dev.cmpFill (fuel : Nat) (d : Dev) (c : CmpCtx) : Dev × CmpCtx :=
  match fuel with
  | 0 => (d, c)
  | f + 1 =>
    if c.held.length < 2 ^ c.log then (d, c)
    else
      let (d, c') := d.cmpBlock c false false (c.held.take (2 ^ c.log))
      Dev.cmpFill f d { c' with held := c.held.drop (2 ^ c.log) }

/-- Data given to a context (R309). -/
def Dev.cmpFeed (d : Dev) (c : CmpCtx) (data : List Byte) : Dev × CmpCtx :=
  Dev.cmpFill (data.length + 1) d { c with held := c.held ++ data }

/-- FLUSH of a context (R309). -/
def Dev.cmpFlush (d : Dev) (c : CmpCtx) : Dev × CmpCtx :=
  if c.held.isEmpty then (d, c)
  else
    let (d, c') := d.cmpBlock c false true c.held
    (d, { c' with held := [] })

/-- END of a context: its last block, and its stream (R309). -/
def Dev.cmpEnd (d : Dev) (c : CmpCtx) : Dev × List Byte :=
  let (d, c) := d.cmpBlock c true false c.held
  (d, c.out)

/-- A context just opened: BLOCK_MAX_LOG lies from 12 to 20 (Table 08-5). -/
def CmpCtx.fresh (log cls tenant : Nat) : CmpCtx :=
  let l := max 12 (min 20 log)
  { log := l, cls := cls, tenant := tenant, held := [], out := bcbHeader l }

/-- Contexts of the two engines (R308). -/
def cmpContexts : Nat := 512

/-- The device with context `i` replaced, or closed. -/
def Dev.setCmp (d : Dev) (i : Nat) (c : Option CmpCtx) : Dev :=
  { d with tongs := { d.tongs with cmp := match c with
      | some x => AMap.set d.tongs.cmp i x
      | none => AMap.del d.tongs.cmp i } }

/-- A data request: the first one of a context opens it (R308, R309). -/
def Dev.compressorData (d : Dev) (i log cls tenant : Nat) (data : List Byte) : Dev :=
  if cmpContexts ≤ i then d
  else
    let c := AMap.getD d.tongs.cmp i (CmpCtx.fresh log cls tenant)
    let (d, c) := d.cmpFeed c data
    d.setCmp i (some c)

/-- COMPRESSOR_DATA (R309). -/
def execCompressorData (ctx log cls tenant : Nat) (data : List Byte) (s : State) : Out :=
  s.onRunning (fun d => d.compressorData ctx log cls tenant data)

/-- A FLUSH request (R309). -/
def Dev.compressorFlush (d : Dev) (i : Nat) : Dev :=
  match AMap.get? d.tongs.cmp i with
  | none => d
  | some c =>
    let (d, c) := d.cmpFlush c
    d.setCmp i (some c)

/-- COMPRESSOR_FLUSH (R309). -/
def execCompressorFlush (ctx : Nat) (s : State) : Out := s.onRunning (fun d => d.compressorFlush ctx)

/-- An END request: the stream is complete, in buffers chained under R303 (R309, R117 to R119). -/
def Dev.compressorEnd (d : Dev) (i : Nat) : Dev :=
  match AMap.get? d.tongs.cmp i with
  | none => d
  | some c =>
    let (d, out) := d.cmpEnd c
    let d := d.setCmp i none
    let d := d.emit (.compressed i out)
    d.bufferAllocate (d.regionsIn.headD 0) out.length c.tenant c.cls

/-- COMPRESSOR_END (R309). -/
def execCompressorEnd (ctx : Nat) (s : State) : Out := s.onRunning (fun d => d.compressorEnd ctx)

end Sys2Proof.Machine
end

