-- ==== Sys2Proof/Machine/Aes.lean ====
section
/-!
DEFINITION. Machine/Aes.lean: AES-256 (FIPS 197) and its XTS mode (IEEE 1619), with which data at rest is encrypted (R658, R659).
-/
namespace Sys2Proof.Machine

/-- Multiplication by x in the field of AES. -/
def gfX (a : Nat) : Nat := if a < 128 then 2 * a else (2 * a % 256) ^^^ 0x1b

/-- Multiplication in the field of AES. -/
def gfMul (a b : Nat) : Nat :=
  ((List.range 8).foldl (fun (p : Nat × Nat) i => (if bitOf b i then p.1 ^^^ p.2 else p.1, gfX p.2)) (0, a)).1

/-- The inverse in the field of AES, 0 for 0: the 254th power. -/
def gfInv (a : Nat) : Nat := (List.range 253).foldl (fun p _ => gfMul p a) a

/-- The S-box, from its definition: inverse, then the affine map. -/
def aesSub (a : Nat) : Nat :=
  let b := gfInv a
  let r := fun (n : Nat) => (b * 2 ^ n % 256) ||| (b / 2 ^ (8 - n))
  b ^^^ r 1 ^^^ r 2 ^^^ r 3 ^^^ r 4 ^^^ 0x63

/-- The S-box as a table. -/
def aesSbox : List Nat := (List.range 256).map aesSub

/-- A byte through the S-box table `t`. -/
def aesSubT (t : List Nat) (a : Nat) : Nat := t.getD a 0

/-- The key schedule of AES-256: 60 words of four bytes, newest first while it is built. -/
def aesSchedule (t : List Nat) (key : List Nat) : List (List Nat) :=
  let w0 := (List.range 8).map (fun i => (key.drop (4 * i)).take 4)
  let step := fun (p : List (List Nat) × Nat) (i : Nat) =>
    let prev := p.1.getD 0 []
    let back := p.1.getD 7 []
    let n := i + 8
    let tmp :=
      if n % 8 = 0 then
        let r := (prev.drop 1 ++ prev.take 1).map (aesSubT t)
        (List.zip r [p.2, 0, 0, 0]).map (fun q => q.1 ^^^ q.2)
      else if n % 8 = 4 then prev.map (aesSubT t)
      else prev
    let w := (List.zip back tmp).map (fun q => q.1 ^^^ q.2)
    (w :: p.1, if n % 8 = 0 then gfX p.2 else p.2)
  (((List.range 52).foldl step (w0.reverse, 1)).1).reverse

/-- XOR of two byte lists. -/
def xorL (a b : List Nat) : List Nat := (List.zip a b).map (fun q => q.1 ^^^ q.2)

/-- ShiftRows on 16 bytes held column by column. -/
def aesShiftRows (s : List Nat) : List Nat := (List.range 16).map (fun i => s.getD ((i + 4 * (i % 4)) % 16) 0)

/-- MixColumns on 16 bytes held column by column. -/
def aesMixColumns (s : List Nat) : List Nat :=
  (List.range 16).map (fun i =>
    let c := i / 4 * 4
    let at' := fun (k : Nat) => s.getD (c + (i + k) % 4) 0
    gfMul 2 (at' 0) ^^^ gfMul 3 (at' 1) ^^^ at' 2 ^^^ at' 3)

/-- AES-256 of one block under a schedule. -/
def aesBlock (t : List Nat) (sched : List (List Nat)) (blk : List Nat) : List Nat :=
  let rk := fun (r : Nat) => ((sched.drop (4 * r)).take 4).flatten
  let s := (List.range 13).foldl (fun s i => xorL (aesMixColumns (aesShiftRows (s.map (aesSubT t)))) (rk (i + 1))) (xorL blk (rk 0))
  xorL (aesShiftRows (s.map (aesSubT t))) (rk 14)

/-- AES-256 of one 16-byte block under a 32-byte key. -/
def aes256 (key blk : List Byte) : List Byte :=
  let t := aesSbox
  (aesBlock t (aesSchedule t (key.map (fun b => b.toNat))) (blk.map (fun b => b.toNat))).map byteOf

/-- The next tweak of XTS: the 16 bytes as a little-endian number times x. -/
def xtsNext (n : Nat) : Nat := if n < 2 ^ 127 then 2 * n else (2 * n % 2 ^ 128) ^^^ 0x87

/-- AES-256-XTS encryption of a data unit of whole blocks, with data key `k1`, tweak key `k2` and tweak number `tw` (R658). -/
def xtsEncrypt (k1 k2 : List Byte) (tw : Nat) (data : List Byte) : List Byte :=
  let t := aesSbox
  let s1 := aesSchedule t (k1.map (fun b => b.toNat))
  let t0 := leNat (aes256 k2 (leBytes 16 tw))
  ((List.range (data.length / 16)).foldl (fun (p : List Byte × Nat) i =>
    let m := (leBytes 16 p.2).map (fun b => b.toNat)
    let c := xorL (aesBlock t s1 (xorL ((bytesAt data (16 * i) 16).map (fun b => b.toNat)) m)) m
    (p.1 ++ c.map byteOf, xtsNext p.2)) ([], t0)).1

end Sys2Proof.Machine
end

