-- ==== Sys2Proof/Machine/Media.lean ====
section
/-!
DEFINITION. Machine/Media.lean: dies, benches, the maps, the write path and the capacity of the flash media (R209 to R228, R238 to R243, R249, R250, R658).
-/
namespace Sys2Proof.Machine

/-! ### Geometry (R210, R213, R214) -/

/-- Bytes of a flash page. -/
def pageBytes : Nat := 16384

/-- Bytes of a chunk of the flash write buffer. -/
def chunkBytes : Nat := 65536

/-- Pages that hold `n` bytes. -/
def pagesOf (n : Nat) : Nat := ceilDiv n pageBytes

/-- Die sets of the variant (R213). -/
def Dev.numSets (d : Dev) : Nat := variantChannels d.boot.fuses.variant

/-- The die number of member offset `o` of set `s` (R209, R213). -/
def setDie (s o : Nat) : Nat := 16 * (16 * (s / 16) + o) + s % 16

/-- The set of a die. -/
def dieSet (n : Nat) : Nat := 16 * (n / 256) + n % 16

/-- The state of a die. -/
def Dev.dieState (d : Dev) (n : Nat) : DieState := ((AMap.get? d.face.dies n).map Die.state).getD .absent

/-- Dies in a state. -/
def Dev.diesIn (d : Dev) (s : DieState) : Nat := d.face.dies.countP (fun p => p.2.state == s)

/-- DIES_IN_SERVICE: a demoted die is in service, since demotion is not a failure (R66, R257). -/
def Dev.diesInService (d : Dev) : Nat := d.diesIn .inService + d.diesIn .demoted

/-- SPARE die block addresses at the top of a die (R219). -/
def Dev.spareBlocks (d : Dev) : Nat := ceilDiv (2 * d.face.blocksPerPlane) 100

/-- The state of die block `b` of a die: SPARE at the top, ERASED elsewhere, as at manufacture, until it changes. -/
def Dev.blockState (d : Dev) (x : Die) (b : Nat) : BlockState :=
  AMap.getD x.blocks b (if d.face.blocksPerPlane ≤ b + d.spareBlocks then .spare else .erased)

/-- The lowest ERASED die block of a die. -/
def Dev.erasedBlock (d : Dev) (x : Die) : Option Nat := (List.range d.face.blocksPerPlane).find? (fun b => d.blockState x b == .erased)

/-- A die block's state changed. -/
def Dev.setBlock (d : Dev) (die b : Nat) (s : BlockState) : Dev :=
  { d with face := { d.face with dies := AMap.mod d.face.dies die (fun x => { x with blocks := AMap.set x.blocks b s }) } }

/-- Whether benches of a kind are in SLC mode (R214). -/
def BenchKind.slc : BenchKind → Bool
  | .nativeData | .nativeScratch => false
  | _ => true

/-- Positions of a bench with `w` members (R214). -/
def Dev.benchPositions (d : Dev) (k : BenchKind) (w : Nat) : Nat :=
  if k.slc then 4 * w * (d.face.ppb / d.face.bits) else 4 * w * d.face.ppb

/-- The member and die of a position (R214). -/
def Bench.dieAt (b : Bench) (pos : Nat) : Option Nat := (b.members[pos % max 1 b.members.length]?).map Prod.fst

/-- The set of a bench id (R213). -/
def benchSet (id : Nat) : Nat := id / 2 ^ 26

/-! ### The journal (R226) -/

/-- A change of a map recorded in the journal tail before it is used. -/
def Dev.journal (d : Dev) (map key : Nat) : Dev :=
  let n := d.face.journalSeq + 1
  { d with face := { d.face with journalSeq := n, journalTail := d.face.journalTail ++ [{ seq := n, map := map, key := key }] } }

/-- The tail written to SLC_JOURNAL benches. -/
def Dev.flushJournal (d : Dev) : Dev := { d with face := { d.face with journalTail := [], flashedSeq := d.face.journalSeq } }

/-- An extent's entry changed in one journal record, whose number the entry keeps (Table 06-4). -/
def Dev.modExtent (d : Dev) (e : Nat) (f : Extent → Extent) : Dev :=
  let d := d.journal 0 e
  { d with face := { d.face with extents := AMap.mod d.face.extents e (fun x => { f x with journalSeq := d.face.journalSeq % 2 ^ 32 }) } }

/-- An extent changed in what the write path keeps beside its entry. -/
def Dev.modExtentQuiet (d : Dev) (e : Nat) (f : Extent → Extent) : Dev :=
  { d with face := { d.face with extents := AMap.mod d.face.extents e f } }

/-- A bench's record changed in one journal record. -/
def Dev.modBench (d : Dev) (b : Nat) (f : Bench → Bench) : Dev :=
  let d := d.journal 2 b
  { d with face := { d.face with benches := AMap.mod d.face.benches b f } }

/-- A dataset changed. -/
def Dev.modDataset (d : Dev) (n : Nat) (f : Dataset → Dataset) : Dev :=
  { d with face := { d.face with datasets := AMap.mod d.face.datasets n f } }

/-! ### Benches (R213 to R219) -/

/-- The OPEN bench of a kind in a set (R239). -/
def Dev.openBench (d : Dev) (k : BenchKind) (s : Nat) : Option (Nat × Bench) :=
  d.face.benches.find? (fun p => p.2.state == .opened && p.2.kind == k && benchSet p.1 == s)

/-- The dies of set `s` that accept a new bench, with the die block that each gives. -/
def Dev.benchMembers (d : Dev) (s : Nat) : List (Nat × Nat) :=
  (List.range 16).filterMap (fun o => match AMap.get? d.face.dies (setDie s o) with
    | some x => if x.state == .inService then (d.erasedBlock x).map (fun b => (setDie s o, b)) else none
    | none => none)

/-- The least free bench id of set `s`. -/
def Dev.freeBenchId (d : Dev) (s : Nat) : Option Nat :=
  ((List.range 8192).map (fun i => s * 2 ^ 26 + i)).find? (fun id => !AMap.has d.face.benches id)

/-- A bench opened in set `s`, with `parity` as its parity bench; none when fewer than 13 dies can give a die block (R213). -/
def Dev.newBench (d : Dev) (k : BenchKind) (s : Nat) (parity : Option Nat) : Option (Nat × Dev) :=
  let ms := d.benchMembers s
  match d.freeBenchId s with
  | none => none
  | some id =>
    if ms.length < 13 then none
    else
      let b : Bench := { state := .opened, kind := k, members := ms, endPos := 0, validPages := 0, parityBench := parity, closedTick := 0, failed := [] }
      let d := ms.foldl (fun d m => d.setBlock m.1 m.2 .opened) (d.journal 2 id)
      some (id, { d with face := { d.face with benches := AMap.set d.face.benches id b } })

/-- A bench closed: its last position is programmed, and verify is queued (R216). -/
def Dev.closeBench (d : Dev) (id : Nat) : Dev :=
  match AMap.get? d.face.benches id with
  | none => d
  | some b =>
    let d := b.members.foldl (fun d m => d.setBlock m.1 m.2 .closed) d
    d.modBench id (fun b => { b with state := .closed, closedTick := d.tick.count })

/-- The parity bench for a bench of kind `k` that opens in set `s`: the open SLC_PARITY bench of the next set, with room for every row (R215). -/
def Dev.parityFor (d : Dev) (k : BenchKind) (s : Nat) : Option Nat × Dev :=
  let ps := (s + 1) % max 1 d.numSets
  let rows := d.benchPositions k 1
  let fresh := fun (d : Dev) => match d.newBench .slcParity ps none with
    | some (id, d) => (some id, d.modBench id (fun b => { b with endPos := rows }))
    | none => (none, d)
  match d.openBench .slcParity ps with
  | none => fresh d
  | some (id, b) =>
    if b.endPos + rows ≤ d.benchPositions .slcParity b.members.length then (some id, d.modBench id (fun b => { b with endPos := b.endPos + rows }))
    else fresh (d.closeBench id)

/-- The open bench of kind `k` in set `s`, opened if there is none (R239). -/
def Dev.benchFor (d : Dev) (k : BenchKind) (s : Nat) : Option (Nat × Dev) :=
  match d.openBench k s with
  | some (id, _) => some (id, d)
  | none =>
    let (p, d) := d.parityFor k s
    d.newBench k s p

/-- `n` pages programmed at the next positions of the open bench of kind `k` in set `s` and of the benches that follow it:
the pieces by bench, first position and count, and the device; none when no bench can be opened. -/
def Dev.programPositions (fuel : Nat) (k : BenchKind) (s n : Nat) (d : Dev) : Option (List (Nat × Nat × Nat) × Dev) :=
  match fuel with
  | 0 => none
  | f + 1 =>
    if n = 0 then some ([], d)
    else match d.benchFor k s with
      | none => none
      | some (id, d) =>
        match AMap.get? d.face.benches id with
        | none => none
        | some b =>
          let room := d.benchPositions k b.members.length - b.endPos
          let m := min n room
          let d := d.modBench id (fun x => { x with endPos := x.endPos + m, validPages := x.validPages + m })
          let d := if m = room then d.closeBench id else d
          match Dev.programPositions f k s (n - m) d with
          | none => none
          | some (l, d) => some ((id, b.endPos, m) :: l, d)

/-- As `programPositions`, trying the sets in rotation from `s`: the set that took the pages, the pieces and the device. -/
def Dev.programAnywhere (d : Dev) (k : BenchKind) (s n : Nat) : Option (Nat × List (Nat × Nat × Nat) × Dev) :=
  ((List.range d.numSets).map (fun i => (s + i) % d.numSets)).findSome?
    (fun q => (d.programPositions (n + 2) k q n).map (fun r => (q, r.1, r.2)))

/-- The log sequence that names a bench as the newest of the SLC log; a bench that is not the newest takes a further sequence (R223). -/
def Dev.logSeqOf (d : Dev) (id : Nat) : Nat × Dev :=
  if 0 < d.face.nextLog && AMap.get? d.face.slcLog (d.face.nextLog - 1) == some id then (d.face.nextLog - 1, d)
  else
    let n := d.face.nextLog
    let d := d.journal 3 n
    (n, { d with face := { d.face with slcLog := AMap.set (AMap.keep (fun k _ => decide (n < k + 32768)) d.face.slcLog) n id, nextLog := n + 1 } })

/-- Pages of live data taken from the benches that hold them. -/
def Dev.dropValid (d : Dev) (pieces : List (Nat × Nat)) : Dev :=
  pieces.foldl (fun d p => d.modBench p.1 (fun b => { b with validPages := b.validPages - p.2 })) d

/-- The benches of a NATIVE or SLC extent and how many of its pages each holds (R223). -/
def Dev.extentPieces (d : Dev) (x : Extent) : List (Nat × Nat × Nat) :=
  let n := pagesOf x.length
  match x.loc with
  | .buffer _ => []
  | .native a b start =>
    let endA := ((AMap.get? d.face.benches a).map Bench.endPos).getD 0
    let m := min n (endA - start)
    (a, start, m) :: (match b with | some c => [(c, 0, n - m)] | none => [])
  | .slc pos =>
    let step := fun (acc : List (Nat × Nat × Nat) × Nat × Nat × Nat) (_ : Nat) =>
      let (l, seq, p, left) := acc
      if left = 0 then acc
      else match AMap.get? d.face.slcLog seq with
        | none => acc
        | some id =>
          let e := ((AMap.get? d.face.benches id).map Bench.endPos).getD 0
          let m := min left (e - p)
          (l ++ [(id, p, m)], seq + 1, 0, left - m)
    ((List.range 8).foldl step ([], pos / 262144, pos % 262144, n)).1

/-- The bench and position of page `k` of an extent, none while it is in the flash write buffer (R223). -/
def Dev.pagePlace (d : Dev) (x : Extent) (k : Nat) : Option (Nat × Nat) :=
  ((d.extentPieces x).foldl (fun (acc : Option (Nat × Nat) × Nat) (p : Nat × Nat × Nat) =>
    match acc.1 with
    | some _ => acc
    | none => if acc.2 < p.2.2 then (some (p.1, p.2.1 + acc.2), acc.2) else (none, acc.2 - p.2.2)) (none, k)).1

/-- The die that holds page `k` of an extent. -/
def Dev.pageDie (d : Dev) (x : Extent) (k : Nat) : Option Nat :=
  match d.pagePlace x k with
  | none => none
  | some (b, p) => match AMap.get? d.face.benches b with
    | none => none
    | some y => y.dieAt p

/-- MEDIA_PAGE_READ for the pages of extents that lie on the NAND; one recorded unreadable is not read (R245, Table 06-14). -/
def Dev.countPages (d : Dev) (pages : List (Nat × Nat)) : Dev :=
  d.count Counter.mediaPageRead 0 (pages.countP (fun p => match AMap.get? d.face.extents p.1 with
    | some x => (d.pagePlace x p.2).isSome && !x.unreadable.contains p.2
    | none => false))

/-- A SPARE die block of a die taken to replace a retired one, and queued for erase (Table 06-2). -/
def Dev.takeSpare (d : Dev) (die : Nat) : Option Dev :=
  match AMap.get? d.face.dies die with
  | none => none
  | some x => ((List.range d.face.blocksPerPlane).reverse.find? (fun b => d.blockState x b == .spare)).map (fun b => d.setBlock die b .stale)

/-- A die block retired, a SPARE one taken in its place where one is left (Table 06-2). -/
def Dev.retireBlock (d : Dev) (die b : Nat) : Dev :=
  let d := (d.setBlock die b .retired).count Counter.blockRetire 0 1
  (d.takeSpare die).getD d

/-- A bench whose data are all invalid gives its die blocks up for erase; one that holds a failed page is marked for retirement, and no erase of
it is attempted (R218, Table 06-2). -/
def Dev.reclaimBench (d : Dev) (id : Nat) : Dev :=
  match AMap.get? d.face.benches id with
  | none => d
  | some b =>
    if b.validPages = 0 && (b.state == .verified || b.state == .weak) then
      let bad := b.failed.map (fun p => p % max 1 b.members.length)
      let d := (List.range b.members.length).foldl (fun d k => match b.members[k]? with
        | none => d
        | some m => if bad.contains k then d.retireBlock m.1 m.2 else d.setBlock m.1 m.2 .stale) d
      d.modBench id (fun x => { x with state := .reclaiming, parityBench := none })
    else d

/-- SLC_PARITY benches whose every dependant is verified or reclaimed become stale (R216). -/
def Dev.releaseParity (d : Dev) : Dev :=
  let needed := fun (id : Nat) => d.face.benches.any (fun p => p.2.parityBench == some id)
  let idle := d.face.benches.filter (fun p => p.2.kind == .slcParity && (p.2.state == .closed || p.2.state == .verified || p.2.state == .weak) && !needed p.1)
  idle.foldl (fun d p =>
    (p.2.members.foldl (fun d m => d.setBlock m.1 m.2 .stale) d).modBench p.1 (fun b => { b with state := .reclaiming })) d

/-- The data of an extent moved away or discarded: its benches lose its pages and are reclaimed when none is left. -/
def Dev.releasePages (d : Dev) (x : Extent) : Dev :=
  let ps := (d.extentPieces x).map (fun p => (p.1, p.2.2))
  (ps.foldl (fun d p => d.reclaimBench p.1) (d.dropValid ps)).releaseParity

/-- Extents of discarded data whose benches are gone: their entries are FREE (R222). -/
def Dev.freeExtents (d : Dev) : Dev :=
  let gone := d.face.extents.filter (fun p => p.2.state == .discarded && (d.extentPieces p.2).all (fun q => !AMap.has d.face.benches q.1))
  gone.foldl (fun d p => let d := d.journal 0 p.1; { d with face := { d.face with extents := AMap.del d.face.extents p.1 } }) d

/-! ### Capacity (R242, R243, R257) -/

/-- Raw bytes of a die. -/
def Dev.dieBytes (d : Dev) : Nat := 4 * d.face.blocksPerPlane * d.face.ppb * pageBytes

/-- C_raw. -/
def Dev.cRaw (d : Dev) : Nat := (d.diesInService + d.diesIn .readOnly) * d.dieBytes

/-- G. -/
def Dev.gReserve (d : Dev) : Nat := ceilDiv (7 * d.cRaw) 100

/-- Granules of the scratch namespace (R243). -/
def Dev.granuleLimit (d : Dev) : Nat := 2 * d.cRaw / 100 / pageBytes

/-- VALID_BYTES, V, with the extents of replay logs (R242, R581). -/
def Dev.validBytes (d : Dev) : Nat :=
  pageBytes * sumNat ((d.face.extents.filter (fun p => p.2.state == .live || p.2.state == .filling)).map (fun p => pagesOf p.2.length))
    + pageBytes * d.granuleLimit + pageBytes * sumNat (d.group.logs.map (fun p => pagesOf p.2.ctx.out.length))

/-- FREE_BYTES, F: nothing when the terms leave none. -/
def Dev.freeBytes (d : Dev) : Nat := d.cRaw - d.gReserve - d.validBytes

/-- Bytes of an SLC-mode die block. -/
def Dev.slcBlockBytes (d : Dev) : Nat := 4 * (d.face.ppb / d.face.bits) * pageBytes

/-- S_MIN. -/
def Dev.sMin (d : Dev) : Nat := d.diesInService * d.slcBlockBytes

/-- The usable capacity, U. -/
def Dev.usable (d : Dev) : Nat := d.cRaw - d.gReserve - d.face.bits * d.sMin

/-- SLC_LIMIT as R242 computes it. -/
def Dev.slcLimitNow (d : Dev) : Nat :=
  let f := d.freeBytes / (2 * d.face.bits)
  roundDown (min (d.cRaw / 100) (max d.sMin f)) (max 1 d.slcBlockBytes)

/-- SLC_LIMIT recomputed (R242). -/
def Dev.recomputeSlc (d : Dev) : Dev := { d with face := { d.face with slcLimit := d.slcLimitNow, recompute := false } }

/-- SLC_HELD: the pages of extents in the SLC log or on their way into it. -/
def Dev.slcHeld (d : Dev) : Nat :=
  pageBytes * sumNat ((d.face.extents.filter (fun p => p.2.state != .discarded &&
    (match p.2.loc with | .slc _ => true | .buffer _ => !p.2.nativeDest | .native _ _ _ => false))).map (fun p => pagesOf p.2.length))

/-- DIRTY_NOW: chunks and granule slots of the flash write buffer that are not programmed, and of which no flushed copy stands (R238, R253). -/
def Dev.dirtyNow (d : Dev) : Nat :=
  chunkBytes * sumNat (d.face.extents.map (fun p => if p.2.buffered && !p.2.flushed then p.2.dirty else 0)) +
    pageBytes * d.face.granules.countP (fun p => p.2.buffered && !p.2.flushed)

/-- X_f in B/s (R249). -/
def Dev.flushRate (d : Dev) : Nat := min 200000000000 (200000000 * d.diesInService)

/-- DIRTY_PERMIT for a usable energy `e` in joules (R250). -/
def Dev.permitFor (d : Dev) (e : Rat) : Nat :=
  let x := e / 2 - 18 / 10
  if x ≤ 0 then 0
  else min (8 * 2 ^ 30) ((Rat.floor (x * (d.flushRate : Nat) / 180 / (67108864 : Nat))).toNat * 67108864)

/-- DIRTY_PERMIT set after a report of E_u: HOLDUP_PERMIT on a change, HOLDUP_DEGRADED below 8 GiB (R250, R255). -/
def Dev.setPermit (d : Dev) (e : Rat) : Dev :=
  let p := d.permitFor e
  let was := d.face.dirtyPermit
  let d := { d with face := { d.face with dirtyPermit := p } }
  let d := if p < 8 * 2 ^ 30 then d.chipTrouble ChipBit.holdupDegraded else d
  if p = was then d
  else d.event adminWin EventCode.holdupPermit 0 [(24, 8, p), (32, 4, (Rat.floor (e * (1000 : Nat))).toNat)]

/-! ### Writing (R222, R238, R239) -/

/-- The least free extent number. -/
def Dev.freeExtent (d : Dev) : Option Nat := AMap.firstFree d.face.extents 67108864

/-- Chunks of `n` bytes. -/
def chunksOf (n : Nat) : Nat := ceilDiv n chunkBytes

/-- Whether `n` more bytes can lie dirty under DIRTY_PERMIT (R238). -/
def Dev.dirtyRoom (d : Dev) (n : Nat) : Bool := decide (d.dirtyNow + n ≤ d.face.dirtyPermit)

/-- An extent added at the end of a dataset, with its destination (R239): `dirty` of its chunks are to be programmed. -/
def Dev.addExtent (d : Dev) (e ds : Nat) (bs : List Byte) (append : Option (Nat × Nat)) (dirty : Nat) (buffered : Bool) : Dev :=
  let slc := decide (d.slcHeld < d.face.slcLimit)
  let off := ((AMap.get? d.face.datasets ds).map Dataset.length).getD 0
  let x : Extent := { dataset := ds, state := .filling, loc := .buffer 0, damaged := false, length := bs.length, offset := off, journalSeq := 0, data := bs,
                      digest := [], unreadable := [], order := d.face.nextOrder, dirty := dirty, buffered := buffered, flushed := false, durable := false,
                      durTick := 0, nativeDest := !slc, set_ := d.face.nextSet, append := append }
  let d := { d with face := { d.face with
    extents := AMap.set d.face.extents e x
    nextOrder := d.face.nextOrder + 1
    nextSet := (d.face.nextSet + 1) % max 1 d.numSets
    datasets := AMap.mod d.face.datasets ds (fun t => { t with extents := t.extents ++ [e], length := t.length + bs.length }) } }
  let d := if slc then d else d.count Counter.slcBypass 0 1
  d.modExtent e id

/-- An extent that an append begins, and its place in the flash write buffer or its wait for one (R238). -/
def Dev.beginExtent (d : Dev) (e ds : Nat) (bs : List Byte) (append : Option (Nat × Nat)) : Dev :=
  let room := d.dirtyRoom (chunkBytes * chunksOf bs.length)
  let d := d.addExtent e ds bs append (chunksOf bs.length) room
  if room then d else d.count Counter.writeStall 0 1

/-- Whether an extent is programmed. -/
def Extent.programmed (x : Extent) : Bool :=
  match x.loc with
  | .buffer _ => false
  | _ => true

/-- An extent that is in the flash write buffer, or programmed, becomes durable (R238). -/
def Dev.makeDurable (d : Dev) (e : Nat) : Dev :=
  match AMap.get? d.face.extents e with
  | none => d
  | some x =>
    if x.durable || !(x.buffered || x.programmed) then d
    else d.modExtentQuiet e (fun y => { y with durable := true, durTick := d.tick.count })

/-- An extent whose last chunk is programmed takes its place on the media (R223). -/
def Dev.settleExtent (d : Dev) (e : Nat) (x : Extent) (native : Bool) : Option Dev :=
  let n := pagesOf x.length
  match d.programAnywhere (if native then .nativeData else .slcData) x.set_ n with
  | none => none
  | some (q, pieces, d) =>
    match pieces with
    | [] => some d
    | (a, start, _) :: rest =>
      if native then some (d.modExtent e (fun y => { y with loc := .native a ((rest.head?).map Prod.fst) start, set_ := q, nativeDest := true }))
      else
        let (seq, d) := d.logSeqOf a
        let d := rest.foldl (fun d p => (d.logSeqOf p.1).2) d
        some (d.modExtent e (fun y => { y with loc := .slc (seq * 262144 + start), set_ := q }))

/-- An extent that no set can take: it is freed, and its append ends with MEDIA_WRITE_FAILED (Table 06-12). -/
def Dev.mediaWriteFailed (d : Dev) (e : Nat) (x : Extent) : Dev :=
  if x.durable then d
  else
    let d := { d with face := { d.face with
      extents := AMap.del d.face.extents e
      datasets := AMap.mod d.face.datasets x.dataset (fun t => { t with extents := t.extents.filter (fun y => y != e) }) } }
    let d := d.journal 0 e
    match x.append with
    | none => d
    | some (w, n) => d.completeReport w n Status.mediaWriteFailed
        (leBytes 2 Status.mediaWriteFailed ++ zeros 2 ++ leBytes 4 e ++ leBytes 8 x.offset ++ leBytes 8 x.length ++ zeros 32 ++ zeros 8)

/-- Whether an extent is the open extent of its dataset (R645). -/
def Dev.extentOpen (d : Dev) (e : Nat) : Bool := d.face.datasets.any (fun p => p.2.openExtent == some e)

/-- Up to `n` chunks of an extent programmed: the chunks left to program, and the device. An open extent takes its place once it closes. -/
def Dev.programExtent (d : Dev) (e n : Nat) : Nat × Dev :=
  match AMap.get? d.face.extents e with
  | none => (n, d)
  | some x =>
    let m := min n x.dirty
    if x.state == .discarded || x.dirty = 0 then (n, d)
    else if m < x.dirty || d.extentOpen e then (n - m, d.modExtentQuiet e (fun y => { y with dirty := y.dirty - m }))
    else match d.settleExtent e x x.nativeDest with
      | none => (n, d.mediaWriteFailed e x)
      | some d => (n - m, d.modExtentQuiet e (fun y => { y with dirty := 0, buffered := false, flushed := false }))

/-- A buffered scratch granule programmed to a NATIVE_SCRATCH bench (R224, R239). -/
def Dev.programGranule (d : Dev) (g : Nat) : Dev :=
  match d.programAnywhere .nativeScratch (g % max 1 d.numSets) 1 with
  | some (_, (b, pos, _) :: _, d) =>
    let slot := match d.face.scratchSlots.find? (fun p => p.2 == b) with
      | some p => p.1
      | none => (AMap.firstFree d.face.scratchSlots 65536).getD 0
    let d := if AMap.get? d.face.scratchSlots slot == some b then d
      else { d.journal 4 slot with face := { (d.journal 4 slot).face with scratchSlots := AMap.set d.face.scratchSlots slot b } }
    let d := d.journal 1 g
    { d with face := { d.face with granules := AMap.mod d.face.granules g (fun x => { x with buffered := false, flushed := false, spn := slot * 64 * d.face.ppb + pos }) } }
  | _ => d

/-- The bench and position of a programmed granule (R224). -/
def Dev.granulePlace (d : Dev) (x : Granule) : Option (Nat × Nat) :=
  if x.buffered then none
  else (AMap.get? d.face.scratchSlots (x.spn / (64 * max 1 d.face.ppb))).map (fun b => (b, x.spn % (64 * max 1 d.face.ppb)))

/-- MEDIA_PAGE_READ for the granules that lie on the NAND. -/
def Dev.countGranules (d : Dev) (gs : List Nat) : Dev :=
  d.count Counter.mediaPageRead 0 (gs.countP (fun g => match AMap.get? d.face.granules g with
    | some x => (d.granulePlace x).isSome && !x.unreadable
    | none => false))

/-- The page that a granule held before it is written or unmapped is no longer live. -/
def Dev.dropGranulePage (d : Dev) (g : Nat) : Dev :=
  match AMap.get? d.face.granules g with
  | none => d
  | some x => match d.granulePlace x with
    | none => d
    | some (b, _) => ((d.dropValid [(b, 1)]).reclaimBench b).releaseParity

/-- Extents in the order in which they are programmed. -/
def Dev.programOrder (d : Dev) : List Nat := (sortByKey (fun p => p.2.order) (d.face.extents.filter (fun p => 0 < p.2.dirty))).map Prod.fst

/-- Writes that wait for the permit taken into the flash write buffer in order while they fit, each becoming durable (R238). -/
def Dev.admitWrites (d : Dev) : Dev :=
  d.programOrder.foldl (fun d e => match AMap.get? d.face.extents e with
    | none => d
    | some x =>
      if x.buffered || !d.dirtyRoom (chunkBytes * x.dirty) then d
      else (d.modExtentQuiet e (fun y => { y with buffered := true })).makeDurable e) d

/-- `n` chunks of the flash write buffer programmed, oldest data first; then the writes that wait (R238): the chunks left over, and the device. -/
def Dev.programChunks (d : Dev) (n : Nat) : Nat × Dev :=
  let (left, d) := d.programOrder.foldl (fun (acc : Nat × Dev) e =>
    if acc.1 = 0 then acc
    else
      let (m, d) := acc.2.programExtent e acc.1
      (m, d.makeDurable e)) (n, d)
  let gs := ((d.face.granules.filter (fun p => p.2.buffered)).map Prod.fst).take (4 * left)
  (left - ceilDiv gs.length 4, (gs.foldl Dev.programGranule d).admitWrites)

/-! ### Reading -/

/-- The bytes of a dataset from offset `o`, `n` of them; bytes past its end read as 0. -/
def Dev.datasetBytes (d : Dev) (t : Dataset) (o n : Nat) : List Byte :=
  let parts := t.extents.filterMap (fun e => (AMap.get? d.face.extents e).map (fun x => (x.offset, x.data)))
  padTo (parts.flatMap (fun p =>
    let lo := max o p.1
    let hi := min (o + n) (p.1 + p.2.length)
    if lo < hi then (p.2.drop (lo - p.1)).take (hi - lo) else [])) n

/-- The extent that holds byte `o` of a dataset, with its page. -/
def Dev.extentAt (d : Dev) (t : Dataset) (o : Nat) : Option (Nat × Extent × Nat) :=
  t.extents.findSome? (fun e => match AMap.get? d.face.extents e with
    | none => none
    | some x => if x.offset ≤ o && decide (o < x.offset + x.length) then some (e, x, (o - x.offset) / pageBytes) else none)

/-- The pages that hold bytes `o` to `o + n - 1` of a dataset: extent and page. -/
def Dev.rangePages (d : Dev) (t : Dataset) (o n : Nat) : List (Nat × Nat) :=
  t.extents.flatMap (fun e => match AMap.get? d.face.extents e with
    | none => []
    | some x =>
      let lo := max o x.offset
      let hi := min (o + n) (x.offset + x.length)
      if lo < hi then (List.range ((hi - 1 - x.offset) / pageBytes + 1 - (lo - x.offset) / pageBytes)).map (fun k => (e, (lo - x.offset) / pageBytes + k))
      else [])

/-- The directory entry of global sample index `i`: offset and length (R231, R233). -/
def Dev.dirEntry (d : Dev) (t : Dataset) (i : Nat) : Nat × Nat :=
  let b := d.datasetBytes t (t.dirOffset + 16 * i) 16
  (leAt b 0 6, leAt b 8 4)

/-- The bytes of page `k` of an extent, padded with zeros (R230). -/
def Extent.page (x : Extent) (k : Nat) : List Byte := padTo (x.data.drop (k * pageBytes)) pageBytes

/-- Page `k` of extent `e` as the NAND holds it under a 64-byte key (R658). -/
def mediaPage (key : List Byte) (e k : Nat) (x : Extent) : List Byte := xtsEncrypt (key.take 32) (key.drop 32) (e * 2 ^ 16 + k) (x.page k)

/-! ### Unreadable pages (R245) -/

/-- MEDIA_LOSS to the administrative window and the owner (R255). -/
def Dev.mediaLoss (d : Dev) (owner : Option Nat) (ds at_ pages : Nat) : Dev :=
  let f := [(20, 2, ds), (24, 8, at_), (32, 4, pages)]
  let d := d.event adminWin EventCode.mediaLoss 0 f
  match owner with
  | none => d
  | some t => if AMap.has d.tenants t then d.event t EventCode.mediaLoss 0 f else d

/-- Page `k` of extent `e` recorded unreadable (R245). -/
def Dev.pageUnreadable (d : Dev) (e k : Nat) : Dev :=
  match AMap.get? d.face.extents e with
  | none => d
  | some x =>
    if x.unreadable.contains k then d
    else
      let at_ := x.offset + k * pageBytes
      let owner := (AMap.get? d.face.datasets x.dataset).map Dataset.tenant
      let d := d.modExtent e (fun y => { y with damaged := true, unreadable := y.unreadable ++ [k] })
      let d := (d.modDataset x.dataset (fun t => { t with damage := t.damage ++ [at_] })).journal 5 x.dataset
      (d.count Counter.pageUnreadable 0 1).mediaLoss owner x.dataset at_ 1

/-- Granule `g` recorded unreadable (R245). -/
def Dev.granuleUnreadable (d : Dev) (g : Nat) : Dev :=
  match AMap.get? d.face.granules g with
  | none => d
  | some x =>
    if x.unreadable then d
    else
      let d := { d with face := { d.face with granules := AMap.set d.face.granules g { x with unreadable := true } } }
      ((d.journal 1 g).count Counter.pageUnreadable 0 1).mediaLoss none 0xFFFF g 1

/-! ### Pages read by rebuilding (R218, R220, R244) -/

/-- Whether the page at a position cannot be read from its own member: its program failed, or its die is FAILED or was not found. -/
def Dev.pageBroken (d : Dev) (b : Bench) (pos : Nat) : Bool := 
  b.failed.contains pos || (b.dieAt pos).any (fun n => d.dieState n == .failed || d.dieState n == .absent)

/-- Whether the page at a position can be rebuilt: its bench still holds parity, and no other page of its stripe row is broken (R215, R218). -/
def Dev.rebuildable (d : Dev) (b : Bench) (pos : Nat) : Bool :=
  let w := max 1 b.members.length
  b.parityBench.isSome && (List.range w).all (fun i =>
    let q := pos / w * w + i
    q == pos || decide (b.endPos ≤ q) || !d.pageBroken b q)

/-- Whether a place on the media is broken, and whether what it holds is lost to local reads: broken and not to be rebuilt. -/
def Dev.placeBroken (d : Dev) (p : Option (Nat × Nat)) : Bool × Bool :=
  match p with
  | none => (false, false)
  | some (b, pos) => match AMap.get? d.face.benches b with
    | none => (false, false)
    | some y => (d.pageBroken y pos, d.pageBroken y pos && !d.rebuildable y pos)

/-- Whether a page of an extent is lost to local reads. -/
def Dev.pageLost (d : Dev) (p : Nat × Nat) : Bool :=
  match AMap.get? d.face.extents p.1 with
  | none => false
  | some x => x.unreadable.contains p.2 || (d.placeBroken (d.pagePlace x p.2)).2

/-- A page read from local media: one that is broken is rebuilt from parity, or recorded unreadable. -/
def Dev.losePage (d : Dev) (p : Nat × Nat) : Dev :=
  match AMap.get? d.face.extents p.1 with
  | none => d
  | some x =>
    let (broken, lost) := d.placeBroken (d.pagePlace x p.2)
    if x.unreadable.contains p.2 || !broken then d
    else if lost then d.pageUnreadable p.1 p.2
    else d.count Counter.parityRebuild 0 1

/-- Pages of extents read from local media. -/
def Dev.losePages (d : Dev) (pages : List (Nat × Nat)) : Dev := pages.foldl Dev.losePage d

/-- A granule read from local media: a broken page is rebuilt, or the granule is recorded unreadable. -/
def Dev.loseGranule (d : Dev) (g : Nat) : Dev :=
  match AMap.get? d.face.granules g with
  | none => d
  | some x =>
    let (broken, lost) := d.placeBroken (d.granulePlace x)
    if x.unreadable || !broken then d
    else if lost then d.granuleUnreadable g
    else d.count Counter.parityRebuild 0 1

end Sys2Proof.Machine
end

