-- ==== Sys2Proof/Machine/Num.lean ====
section
/-!
DEFINITION. Machine/Num.lean: floating-point formats over exact rationals, with one rounding (R322, R324, R338, R348, R355, R356).
-/
namespace Sys2Proof.Machine

/-- A value of a floating-point format: a sign and a magnitude, an infinity, or not a number. -/
inductive FV where
  | fin (neg : Bool) (mag : Rat)
  | inf (neg : Bool)
  | nan
  deriving DecidableEq, Repr

/-- A binary format with a sign bit, as IEEE 754 lays it out: exponent bits, fraction bits and bias (Table 10-2). -/
structure Fmt where
  ebits : Nat
  mbits : Nat
  bias : Nat
  deriving DecidableEq, Repr

/-- binary32. -/
def fmt32 : Fmt := { ebits := 8, mbits := 23, bias := 127 }

/-- BF16. -/
def fmtBf16 : Fmt := { ebits := 8, mbits := 7, bias := 127 }

/-- binary16. -/
def fmt16 : Fmt := { ebits := 5, mbits := 10, bias := 15 }

/-- E5M2, which has infinities and NaNs as IEEE formats do. -/
def fmtE5m2 : Fmt := { ebits := 5, mbits := 2, bias := 15 }

/-- 2 to an integer power. -/
def pow2Rat (e : Int) : Rat := if 0 ≤ e then (2 ^ e.toNat : Nat) else 1 / (2 ^ (-e).toNat : Nat)

/-- The value of a bit pattern. -/
def Fmt.decode (f : Fmt) (bits : Nat) : FV :=
  let m := bitField bits 0 f.mbits
  let e := bitField bits f.mbits f.ebits
  let neg := bitOf bits (f.mbits + f.ebits)
  if e = 2 ^ f.ebits - 1 then (if m = 0 then .inf neg else .nan)
  else if e = 0 then .fin neg ((m : Rat) * pow2Rat (1 - f.bias - f.mbits))
  else .fin neg (((2 ^ f.mbits + m : Nat) : Rat) * pow2Rat ((e : Int) - f.bias - f.mbits))

/-- ⌊log₂ q⌋ of a positive rational. -/
def floorLog2 (q : Rat) : Int :=
  let e : Int := (q.num.natAbs.log2 : Int) - q.den.log2
  if pow2Rat e ≤ q then e else e - 1

/-- A non-negative rational rounded to the nearest natural number, ties to even. -/
def roundHalfEven (q : Rat) : Nat :=
  let f := (Rat.floor q).toNat
  let r := q - (f : Rat)
  if r < 1 / 2 then f else if 1 / 2 < r then f + 1 else if f % 2 = 0 then f else f + 1

/-- The finite bit pattern of a magnitude rounded to nearest with ties to even, sign aside; it may be the pattern of infinity. -/
def Fmt.roundMag (f : Fmt) (q : Rat) : Nat :=
  if q = 0 then 0
  else
    let emin : Int := 1 - f.bias
    let e := max (floorLog2 q) emin
    let n := roundHalfEven (q / pow2Rat (e - f.mbits))
    if n < 2 ^ f.mbits then n
    else
      let (e, n) := if n = 2 ^ (f.mbits + 1) then (e + 1, 2 ^ f.mbits) else (e, n)
      let field := (e + f.bias).toNat
      min (field * 2 ^ f.mbits + (n - 2 ^ f.mbits)) ((2 ^ f.ebits - 1) * 2 ^ f.mbits)

/-- The sign bit of a format. -/
def Fmt.signBit (f : Fmt) (neg : Bool) : Nat := if neg then 2 ^ (f.ebits + f.mbits) else 0

/-- The bit pattern of a value, rounded to nearest with ties to even; overflow gives the infinity, and every NaN is the quiet one (R355, R356). -/
def Fmt.encode (f : Fmt) (v : FV) : Nat :=
  match v with
  | .nan => (2 ^ f.ebits - 1) * 2 ^ f.mbits + 2 ^ (f.mbits - 1)
  | .inf neg => f.signBit neg + (2 ^ f.ebits - 1) * 2 ^ f.mbits
  | .fin neg q => f.signBit neg + f.roundMag q

/-- A value rounded to a format. -/
def Fmt.round (f : Fmt) (v : FV) : FV := f.decode (f.encode v)

/-- The exact value of a rational, with a positive zero. -/
def FV.ofRat (q : Rat) : FV := .fin (decide (q < 0)) (if q < 0 then -q else q)

/-- The rational of a finite value. -/
def FV.toRat (v : FV) : Rat :=
  match v with
  | .fin neg m => if neg then -m else m
  | _ => 0

/-- Whether a value is finite. -/
def FV.isFin (v : FV) : Bool :=
  match v with
  | .fin _ _ => true
  | _ => false

/-- The sum before rounding, with the signs of IEEE 754 for a zero result and for infinities. -/
def FV.add (a b : FV) : FV :=
  match a, b with
  | .nan, _ => .nan
  | _, .nan => .nan
  | .inf x, .inf y => if x = y then .inf x else .nan
  | .inf x, _ => .inf x
  | _, .inf y => .inf y
  | .fin x p, .fin y q =>
    let s := (if x then -p else p) + (if y then -q else q)
    if s = 0 then .fin (x && y) 0 else FV.ofRat s

/-- The product before rounding. -/
def FV.mul (a b : FV) : FV :=
  match a, b with
  | .nan, _ => .nan
  | _, .nan => .nan
  | .inf x, .inf y => .inf (x != y)
  | .inf x, .fin y q => if q = 0 then .nan else .inf (x != y)
  | .fin x p, .inf y => if p = 0 then .nan else .inf (x != y)
  | .fin x p, .fin y q => .fin (x != y) (p * q)

/-- binary32 addition, rounded once (R352, R355). -/
def add32 (a b : FV) : FV := fmt32.round (a.add b)

/-- binary32 product, rounded once (R351). -/
def mul32 (a b : FV) : FV := fmt32.round (a.mul b)

/-- An integer of `w` bits in two's complement, from its pattern. -/
def signedOfBits (w bits : Nat) : Int := if bitOf bits (w - 1) then (bits % 2 ^ w : Nat) - (2 ^ w : Nat) else (bits % 2 ^ w : Nat)

/-- The pattern of an integer of `w` bits in two's complement. -/
def bitsOfSigned (w : Nat) (z : Int) : Nat := (z % (2 ^ w : Nat)).toNat

/-- A rational rounded to an integer: to nearest with ties to even, or toward zero. -/
def roundInt (q : Rat) (toZero : Bool) : Int :=
  let m := if q < 0 then -q else q
  let n : Int := if toZero then Rat.floor m else roundHalfEven m
  if q < 0 then -n else n

/-- A value converted to an integer type from `lo` to `hi`, saturating; NaN gives 0 (R324, R356). -/
def FV.toInt (v : FV) (lo hi : Int) (toZero : Bool) : Int :=
  match v with
  | .nan => 0
  | .inf neg => if neg then lo else hi
  | .fin _ _ => max lo (min hi (roundInt v.toRat toZero))

/-- A value as the pattern of INT8 (R356). -/
def toInt8 (v : FV) (toZero : Bool) : Nat := bitsOfSigned 8 (v.toInt (-128) 127 toZero)

/-- A value as the pattern of INT32 (R356). -/
def toInt32 (v : FV) (toZero : Bool) : Nat := bitsOfSigned 32 (v.toInt (-2147483648) 2147483647 toZero)

/-- IEEE 754-2019 minimum of two values: NaN propagates, and −0 is less than +0 (R355). -/
def FV.minimum (a b : FV) : FV :=
  match a, b with
  | .nan, _ => .nan
  | _, .nan => .nan
  | .inf x, y => if x then .inf true else y
  | x, .inf y => if y then .inf true else x
  | .fin x p, .fin y q =>
    let ra := (FV.fin x p).toRat
    let rb := (FV.fin y q).toRat
    if ra < rb then .fin x p else if rb < ra then .fin y q else if x then .fin x p else .fin y q

/-- binary64. -/
def fmt64 : Fmt := { ebits := 11, mbits := 52, bias := 1023 }

/-- A rational rounded once to binary64, to nearest with ties to even (R514). -/
def roundBin64 (q : Rat) : Rat := (Fmt.round fmt64 (FV.ofRat q)).toRat

end Sys2Proof.Machine
end

