-- ==== Sys2Proof/Machine/Anvil.lean ====
section
/-!
DEFINITION. Machine/Anvil.lean: the number formats and the reductions of the Anvil (file 10 of the spec).
-/
namespace Sys2Proof.Machine

/-! ### Elements (R338, R339) -/

/-- An element of an MX format: an integer in units of the format, an infinity, or a NaN. -/
inductive MxElem where
  | fin (z : Int)
  | inf (neg : Bool)
  | nan
  deriving DecidableEq, Repr

/-- A signed integer from a sign and a magnitude. -/
def signedOf (neg : Bool) (m : Nat) : Int := if neg then -(m : Int) else m

/-- E2M1 in half-units (Table 10-3). -/
def e2m1 (c : Nat) : MxElem := .fin (signedOf (bitOf c 3) ([0, 1, 2, 3, 4, 6, 8, 12].getD (c % 8) 0))

/-- E4M3 in units of 2⁻⁹ (Table 10-2). -/
def e4m3 (c : Nat) : MxElem :=
  let e := bitField c 3 4
  let m := bitField c 0 3
  if c % 128 = 127 then .nan else .fin (signedOf (bitOf c 7) (if e = 0 then m else (8 + m) * 2 ^ (e - 1)))

/-- E5M2 in units of 2⁻¹⁶ (Table 10-2). -/
def e5m2 (c : Nat) : MxElem :=
  let e := bitField c 2 5
  let m := bitField c 0 2
  if e = 31 then (if m = 0 then .inf (bitOf c 7) else .nan)
  else .fin (signedOf (bitOf c 7) (if e = 0 then m else (4 + m) * 2 ^ (e - 1)))

/-- An element of FORMAT 0, 1 or 2 (Table 05-4). -/
def mxElem (fmt c : Nat) : MxElem := if fmt = 0 then e2m1 c else if fmt = 1 then e4m3 c else e5m2 c

/-- Q of Table 10-4. -/
def mxQ (fmt : Nat) : Int := if fmt = 0 then 256 else if fmt = 1 then 272 else 286

/-- F of Table 10-4. -/
def mxF (fmt : Nat) : Int := if fmt = 0 then 83 else if fmt = 1 then 103 else 75

/-! ### Exact accumulation (R343 to R348) -/

/-- The flags of a reduction (R346). -/
structure MxFlags where
  nan : Bool
  pos : Bool
  neg : Bool
  deriving DecidableEq, Repr

/-- No flag. -/
def MxFlags.none : MxFlags := { nan := false, pos := false, neg := false }

/-- A product of two elements added to a block's sum, or setting a flag (R346). -/
def mxProduct (acc : Int × MxFlags) (p : MxElem × MxElem) : Int × MxFlags :=
  match p.1, p.2 with
  | .fin x, .fin y => (acc.1 + x * y, acc.2)
  | .nan, _ => (acc.1, { acc.2 with nan := true })
  | _, .nan => (acc.1, { acc.2 with nan := true })
  | .inf s, .inf t => (acc.1, if s = t then { acc.2 with pos := true } else { acc.2 with neg := true })
  | .inf s, .fin y =>
    if y = 0 then (acc.1, { acc.2 with nan := true })
    else (acc.1, if s = decide (y < 0) then { acc.2 with pos := true } else { acc.2 with neg := true })
  | .fin x, .inf t =>
    if x = 0 then (acc.1, { acc.2 with nan := true })
    else (acc.1, if t = decide (x < 0) then { acc.2 with pos := true } else { acc.2 with neg := true })

/-- A block of a reduction: its two scale bytes and its pairs of elements (R340, R343). -/
structure MxBlock where
  sa : Nat
  sb : Nat
  elems : List (MxElem × MxElem)
  deriving DecidableEq, Repr

/-- Whether a scale of a block is 0xFF (R342). -/
def MxBlock.isNan (b : MxBlock) : Bool := b.sa == 255 || b.sb == 255

/-- P_j and the flags of a block (R342, R343, R346). -/
def MxBlock.sum (b : MxBlock) : Int × MxFlags :=
  if b.isNan then (0, { MxFlags.none with nan := true }) else b.elems.foldl mxProduct (0, MxFlags.none)

/-- c_j of a block (R343). -/
def MxBlock.c (b : MxBlock) : Int := b.sa + b.sb

/-- The anchor C (R343). -/
def mxAnchor (bs : List MxBlock) : Int := (bs.filter (fun b => !b.isNan)).foldl (fun m b => max m b.c) 0

/-- ACC of a reduction (R343). -/
def mxAcc (fmt : Nat) (bs : List MxBlock) : Int :=
  let cc := mxAnchor bs
  bs.foldl (fun acc b => if cc - mxF fmt ≤ b.c then acc + b.sum.1 * 2 ^ (b.c - cc + mxF fmt).toNat else acc) 0

/-- The flags of a reduction, those of dropped blocks too (R346). -/
def mxFlags (bs : List MxBlock) : MxFlags :=
  bs.foldl (fun f b => let g := b.sum.2; { nan := f.nan || g.nan, pos := f.pos || g.pos, neg := f.neg || g.neg }) MxFlags.none

/-- Whether a block with a product sum other than 0 was dropped (R345). -/
def mxDropped (fmt : Nat) (bs : List MxBlock) : Bool :=
  bs.any (fun b => decide (b.c < mxAnchor bs - mxF fmt) && b.sum.1 != 0)

/-- The read-out of an MX reduction as binary32 (R348). -/
def mxReadout (fmt : Nat) (bs : List MxBlock) : Nat :=
  let f := mxFlags bs
  if f.nan || (f.pos && f.neg) then 0x7FC00000
  else if f.pos then 0x7F800000
  else if f.neg then 0xFF800000
  else
    let acc := mxAcc fmt bs
    if acc = 0 then 0 else fmt32.encode (FV.ofRat ((acc : Rat) * pow2Rat (mxAnchor bs - mxQ fmt - mxF fmt)))

/-! ### INT8 (R349) -/

/-- The exact sum of an INT8 reduction. -/
def int8Sum (ps : List (Int × Int)) : Int := ps.foldl (fun a p => a + p.1 * p.2) 0

/-- The result of an INT8 reduction, saturated. -/
def int8Result (ps : List (Int × Int)) : Int := min 2147483647 (int8Sum ps)

/-! ### BF16 and FP16 (R351 to R353) -/

/-- One level of the pairwise tree. -/
def pairLevel : List FV → List FV
  | a :: b :: r => add32 a b :: pairLevel r
  | l => l

/-- The pairwise tree over a list whose length is a power of two. -/
def pairTree (fuel : Nat) (l : List FV) : FV :=
  match fuel with
  | 0 => l.headD (.fin false 0)
  | f + 1 => if l.length ≤ 1 then l.headD (.fin false 0) else pairTree f (pairLevel l)

/-- The next power of two. -/
def nextPow2 (fuel k n : Nat) : Nat :=
  match fuel with
  | 0 => n
  | f + 1 => if n < k then nextPow2 f k (2 * n) else n

/-- Fixed-order pairwise accumulation of products (R352, R358). -/
def pairwise (ps : List FV) : FV :=
  let n := nextPow2 32 ps.length 1
  pairTree 32 (ps ++ List.replicate (n - ps.length) (.fin false 0))

/-- Fast accumulation: partial sums added two by two in an order that is free (R353). -/
def fastTree (fuel draw red step : Nat) (l : List FV) : FV :=
  match fuel with
  | 0 => l.headD (.fin false 0)
  | f + 1 =>
    if l.length ≤ 1 then l.headD (.fin false 0)
    else
      let p := Config.treePick draw red step
      let i := p.1 % l.length
      let rest := l.eraseIdx i
      let j := p.2 % rest.length
      fastTree f draw red (step + 1) (add32 (l.getD i .nan) (rest.getD j .nan) :: rest.eraseIdx j)

/-! ### Quantising (R360) -/

/-- The code of a value in a minifloat of a format without infinities, saturating at the pattern `top`. -/
def miniCode (f : Fmt) (top : Nat) (v : FV) : Nat :=
  match v with
  | .fin neg q =>
    let emin : Int := 1 - f.bias
    let e := if q = 0 then emin else max (floorLog2 q) emin
    let n := roundHalfEven (q / pow2Rat (e - f.mbits))
    let p := if n < 2 ^ f.mbits then n else (e + f.bias).toNat * 2 ^ f.mbits + (n - 2 ^ f.mbits)
    f.signBit neg + min p top
  | _ => 0

/-- 32 values quantised to an MX block of FORMAT 0, 1 or 2: the scale byte and the element codes (R360). -/
def quantiseMx (fmt : Nat) (vs : List FV) : Nat × List Nat :=
  let f : Fmt := if fmt = 0 then { ebits := 2, mbits := 1, bias := 1 } else if fmt = 1 then { ebits := 4, mbits := 3, bias := 7 } else fmtE5m2
  let top := if fmt = 0 then 0x7 else if fmt = 1 then 0x7E else 0x7B
  let emax : Int := if fmt = 0 then 2 else if fmt = 1 then 8 else 15
  let mag := fun (v : FV) => match v with
    | .fin _ q => q
    | _ => 0
  let a := vs.foldl (fun m v => max m (mag v)) (0 : Rat)
  if vs.any (fun v => !v.isFin) then (255, vs.map (fun _ => 0))
  else if a = 0 then (0, vs.map (fun _ => 0))
  else
    let e := max (-127) (min 127 (floorLog2 a - emax))
    ((e + 127).toNat, vs.map (fun v => match v with
      | .fin neg q => miniCode f top (.fin neg (q / pow2Rat e))
      | _ => 0))

end Sys2Proof.Machine
end

