-- ==== Sys2Proof/Machine/Swage.lean ====
section
/-!
DEFINITION. Machine/Swage.lean: the Swage's descriptors, its stages in exact arithmetic, and its moves (file 09).
-/
namespace Sys2Proof.Machine

/-- A Swage descriptor (Table 09-1). -/
structure SwageDesc where
  stages : Nat
  outElem : Nat
  outLayout : Nat
  cropMode : Nat
  padMode : Nat
  outChannels : Nat
  round : Nat
  cropX0 : Int
  cropY0 : Int
  cropW : Nat
  cropH : Nat
  resizeW : Nat
  resizeH : Nat
  padLeft : Nat
  padRight : Nat
  padTop : Nat
  padBottom : Nat
  channelMap : List Nat
  padValue : Nat
  scale : List Nat
  bias : List Nat
  raw : List Byte
  deriving DecidableEq, Repr

/-- The descriptor of 128 bytes. -/
def parseDesc (b : List Byte) : SwageDesc :=
  { stages := leAt b 0 2, outElem := leAt b 2 1, outLayout := leAt b 3 1, cropMode := leAt b 4 1, padMode := leAt b 5 1, outChannels := leAt b 6 1,
    round := leAt b 7 1, cropX0 := signedOfBits 32 (leAt b 8 4), cropY0 := signedOfBits 32 (leAt b 12 4), cropW := leAt b 16 4,
    cropH := leAt b 20 4, resizeW := leAt b 24 4, resizeH := leAt b 28 4, padLeft := leAt b 32 2, padRight := leAt b 34 2, padTop := leAt b 36 2,
    padBottom := leAt b 38 2, channelMap := (List.range 8).map (fun k => leAt b (40 + k) 1), padValue := leAt b 48 4,
    scale := (List.range 8).map (fun k => leAt b (64 + 4 * k) 4), bias := (List.range 8).map (fun k => leAt b (96 + 4 * k) 4), raw := b }

def SwageDesc.crop (s : SwageDesc) : Bool := bitOf s.stages 0
def SwageDesc.flipX (s : SwageDesc) : Bool := bitOf s.stages 1
def SwageDesc.flipY (s : SwageDesc) : Bool := bitOf s.stages 2
def SwageDesc.transpose (s : SwageDesc) : Bool := bitOf s.stages 3
def SwageDesc.resize (s : SwageDesc) : Bool := bitOf s.stages 4
def SwageDesc.reorder (s : SwageDesc) : Bool := bitOf s.stages 5
def SwageDesc.convert (s : SwageDesc) : Bool := bitOf s.stages 6
def SwageDesc.pad (s : SwageDesc) : Bool := bitOf s.stages 7
def SwageDesc.inPlace (s : SwageDesc) : Bool := bitOf s.stages 8

/-- Whether a binary32 pattern is finite. -/
def finite32 (b : Nat) : Bool := bitField b 23 8 != 255

/-- Whether a descriptor's fields lie in their ranges (Table 09-1); a field whose stage is off is 0. -/
def SwageDesc.fieldsOk (s : SwageDesc) : Bool :=
  let rng := fun (on : Bool) (v : Nat) => if on then decide (1 ≤ v && v ≤ 16384) else v == 0
  decide (s.stages < 512) &&
  (if s.convert then s.outElem == 0 || s.outElem == 1 || s.outElem == 2 || s.outElem == 4 else s.outElem == 0) &&
  decide (s.outLayout ≤ 2) && decide (s.cropMode ≤ 1) && decide (s.padMode ≤ 2) && decide (s.round ≤ 1) &&
  (if s.reorder then decide (1 ≤ s.outChannels && s.outChannels ≤ 8) else s.outChannels == 0) &&
  (s.cropMode == 0 || (s.cropX0 == 0 && s.cropY0 == 0)) &&
  rng s.crop s.cropW && rng s.crop s.cropH && rng s.resize s.resizeW && rng s.resize s.resizeH &&
  decide (s.padLeft ≤ 16384) && decide (s.padRight ≤ 16384) && decide (s.padTop ≤ 16384) && decide (s.padBottom ≤ 16384) &&
  (List.range 8).all (fun k =>
    let c := s.channelMap.getD k 0
    if s.reorder && decide (k < s.outChannels) then decide (c ≤ 7) || c == 255 else c == 0) &&
  finite32 s.padValue && allZero (bytesAt s.raw 52 12) && s.scale.all finite32 && s.bias.all finite32

/-- Whether the stages are those that Table 09-2 permits for an op. -/
def SwageDesc.stagesOk (s : SwageDesc) (opcode : Nat) : Bool :=
  if opcode = 0x0301 then !s.resize && !s.convert
  else if opcode = 0x0302 then !s.flipX && !s.flipY && !s.transpose && s.resize && !s.inPlace
  else !s.crop && !s.flipX && !s.flipY && !s.transpose && !s.resize && s.convert && !s.inPlace

/-- Step 9 for a Swage op: its descriptor and its KERNEL (R316). -/
def swageOpOk (opcode : Nat) (params consts : List Byte) : Bool :=
  let off := leAt params 0 4
  let k := leAt params 4 1
  decide (off % 16 = 0) && decide (off + 128 ≤ consts.length) && (if opcode = 0x0302 then decide (k ≤ 3) else k == 0) &&
  (let s := parseDesc (bytesAt consts off 128); s.fieldsOk && s.stagesOk opcode)

/-! ### Elements -/

/-- The value of an element's pattern. -/
def Elem.value (e : Elem) (bits : Nat) : FV :=
  match e with
  | .f32 => fmt32.decode bits
  | .bf16 => fmtBf16.decode bits
  | .f16 => fmt16.decode bits
  | .s16 => FV.ofRat (signedOfBits 16 bits : Int)
  | .s24 => FV.ofRat (signedOfBits 24 bits : Int)
  | .s8 => FV.ofRat (signedOfBits 8 bits : Int)
  | .u8 | .bytes | .u16 => FV.ofRat (bits : Nat)

/-- Bytes of an element. -/
def Elem.size (e : Elem) : Nat :=
  match e with
  | .u8 | .bytes | .s8 => 1
  | .u16 | .s16 | .bf16 | .f16 => 2
  | .s24 => 3
  | .f32 => 4

/-- The pattern of a value rounded to an element type (R322, R324, R356). -/
def Elem.encode (e : Elem) (v : FV) (toZero : Bool) : Nat :=
  match e with
  | .f32 => fmt32.encode v
  | .bf16 => fmtBf16.encode v
  | .f16 => fmt16.encode v
  | .s16 => bitsOfSigned 16 (v.toInt (-32768) 32767 toZero)
  | .s24 => bitsOfSigned 24 (v.toInt (-8388608) 8388607 toZero)
  | .s8 => bitsOfSigned 8 (v.toInt (-128) 127 toZero)
  | .u8 | .bytes => (v.toInt 0 255 toZero).toNat
  | .u16 => (v.toInt 0 65535 toZero).toNat

/-- What a pixel is before the convert stage: an element of the input as stored, the pad value, or an exact value. -/
inductive Px where
  | stored (bits : Nat)
  | padding
  | exact (v : FV)
  deriving DecidableEq, Repr

/-- An image as a function of column, row and channel. -/
structure Img where
  w : Nat
  h : Nat
  c : Nat
  px : Nat → Nat → Nat → Px

/-- The pattern of the element at (x, y, k) of a stored array (R262, R317). -/
def storedAt (v : Value) (w h c : Nat) (chw : Bool) (x y k : Nat) : Nat :=
  let n := v.shape.elemBytes
  let i := if chw then (k * h + y) * w + x else (y * w + x) * c + k
  leAt v.data (i * n) n

/-- The input as the Swage views it (R317). -/
def viewInput (v : Value) : Img :=
  match v.shape.layout with
  | .flat =>
    if v.shape.elem = .bytes then { w := v.data.length, h := 1, c := 1, px := fun x y k => .stored (storedAt v v.data.length 1 1 false x y k) }
    else { w := v.shape.width, h := 1, c := v.shape.channels, px := fun x y k => .stored (storedAt v v.shape.width 1 v.shape.channels false x y k) }
  | .interleaved => { w := v.shape.width, h := 1, c := v.shape.channels,
                      px := fun x y k => .stored (storedAt v v.shape.width 1 v.shape.channels false x y k) }
  | .hwc => { w := v.shape.width, h := v.shape.height, c := v.shape.channels,
              px := fun x y k => .stored (storedAt v v.shape.width v.shape.height v.shape.channels false x y k) }
  | .chw => { w := v.shape.width, h := v.shape.height, c := v.shape.channels,
              px := fun x y k => .stored (storedAt v v.shape.width v.shape.height v.shape.channels true x y k) }

/-! ### Crop, flip and transpose (R319, R320) -/

/-- The crop stage. -/
def Img.cropped (i : Img) (s : SwageDesc) : Img :=
  if !s.crop then i
  else
    let x0 : Int := if s.cropMode = 1 then Int.fdiv ((i.w : Int) - s.cropW) 2 else s.cropX0
    let y0 : Int := if s.cropMode = 1 then Int.fdiv ((i.h : Int) - s.cropH) 2 else s.cropY0
    { w := s.cropW, h := s.cropH, c := i.c,
      px := fun x y k =>
        let sx := x0 + x
        let sy := y0 + y
        if 0 ≤ sx && sx < i.w && 0 ≤ sy && sy < i.h then i.px sx.toNat sy.toNat k else .padding }

/-- The flip stages. -/
def Img.flipped (i : Img) (s : SwageDesc) : Img :=
  { i with px := fun x y k => i.px (if s.flipX then i.w - 1 - x else x) (if s.flipY then i.h - 1 - y else y) k }

/-- The transpose stage. -/
def Img.transposed (i : Img) (s : SwageDesc) : Img :=
  if s.transpose then { w := i.h, h := i.w, c := i.c, px := fun x y k => i.px y x k } else i

/-! ### Resize (R321, R322) -/

/-- An index held from 0 to n − 1. -/
def clampIdx (i : Int) (n : Nat) : Nat := (max 0 (min i ((n : Int) - 1))).toNat

/-- The weight of the Keys kernel with a = −0.5 at distance `t`. -/
def keys (t : Rat) : Rat :=
  let x := if t < 0 then -t else t
  if x ≤ 1 then (3 / 2) * x ^ 3 - (5 / 2) * x ^ 2 + 1
  else if x < 2 then -(1 / 2) * x ^ 3 + (5 / 2) * x ^ 2 - 4 * x + 2
  else 0

/-- A rational rounded to an integer, ties to even. -/
def roundEvenInt (q : Rat) : Int := roundInt q false

/-- The four quantised weights of BICUBIC, with the difference from 4,096 added to the weight of greatest magnitude, the lower tap on a tie. -/
def bicubicWeights (f : Rat) : List Int :=
  let w := [keys (f + 1), keys f, keys (1 - f), keys (2 - f)].map (fun q => roundEvenInt (4096 * q))
  let diff := 4096 - w.foldl (· + ·) 0
  let best := (argMax (fun i => (w.getD i 0).natAbs) [0, 1, 2, 3]).getD 0
  (List.range 4).map (fun i => w.getD i 0 + (if i = best then diff else 0))

/-- The taps of output position `j` along one axis: source positions with weights, and what the weights are divided by (Table 09-3). -/
def taps (kernel sw rw j : Nat) : List (Nat × Rat) :=
  let s : Rat := (((2 * j + 1) * sw : Nat) - (rw : Nat) : Int) / (2 * rw : Nat)
  if kernel = 0 then [((2 * j + 1) * sw / (2 * rw), 1)]
  else if kernel = 1 then
    let s := max 0 (min s ((sw - 1 : Nat) : Rat))
    let i0 := (Rat.floor s).toNat
    let q := roundHalfEven (4096 * (s - (i0 : Rat)))
    [(i0, ((4096 - q : Nat) : Rat) / 4096), (min (i0 + 1) (sw - 1), (q : Rat) / 4096)]
  else if kernel = 2 then
    let a := j * sw / rw
    let b := ceilDiv ((j + 1) * sw) rw
    (List.range (b - a)).map (fun i =>
      let col := a + i
      let lo : Rat := max ((col : Nat) : Rat) ((j * sw : Nat) / (rw : Nat) : Rat)
      let hi : Rat := min ((col + 1 : Nat) : Rat) (((j + 1) * sw : Nat) / (rw : Nat) : Rat)
      (col, (hi - lo) * (rw : Nat) / (sw : Nat)))
  else
    let i0 := Rat.floor s
    let ws := bicubicWeights (s - (i0 : Rat))
    (List.range 4).map (fun (i : Nat) => (clampIdx (i0 - 1 + (i : Int)) sw, ((ws.getD i 0 : Int) : Rat) / 4096))

/-- The value of a pixel before the convert stage. -/
def Px.value (e : Elem) (padBits : Nat) (p : Px) : FV :=
  match p with
  | .stored b => e.value b
  | .padding => fmt32.decode padBits
  | .exact v => v

/-- The resize stage: the exact sum over all taps; NaN where a tap with weight is not finite (R322). -/
def Img.resized (i : Img) (s : SwageDesc) (kernel : Nat) (e : Elem) : Img :=
  if !s.resize then i
  else
    { w := s.resizeW, h := s.resizeH, c := i.c,
      px := fun x y k =>
        let tx := taps kernel i.w s.resizeW x
        let ty := taps kernel i.h s.resizeH y
        let vs := ty.flatMap (fun b => tx.map (fun a => ((i.px a.1 b.1 k).value e s.padValue, a.2 * b.2)))
        let vs := vs.filter (fun p => p.2 != 0)
        if vs.any (fun p => !p.1.isFin) then .exact .nan
        else .exact (FV.ofRat (vs.foldl (fun acc p => acc + p.1.toRat * p.2) 0)) }

/-! ### Reorder, convert and pad (R323 to R325) -/

/-- The reorder stage. -/
def Img.reordered (i : Img) (s : SwageDesc) : Img :=
  if !s.reorder then i
  else
    { i with
      c := s.outChannels
      px := fun x y k =>
        let m := s.channelMap.getD k 255
        if m < i.c then i.px x y m else .padding }

/-- The element type that a code of OUT_ELEM names. -/
def elemOfCode (c : Nat) : Elem := if c = 1 then .u16 else if c = 2 then .s16 else if c = 4 then .f32 else .u8

/-- The pattern of one output element: converted under R324, or rounded once under R322. -/
def SwageDesc.outBits (s : SwageDesc) (inE outE : Elem) (k : Nat) (p : Px) : Nat :=
  let toZero := s.round == 1
  match p with
  | .padding => outE.encode (fmt32.decode s.padValue) (s.convert && toZero)
  | .stored b =>
    if s.convert then outE.encode (convertValue (inE.value b) k) toZero else b
  | .exact v => if s.convert then outE.encode (convertValue v k) toZero else outE.encode v false
where
  /-- x × SCALE[k] + BIAS[k], exactly (R324). -/
  convertValue (v : FV) (k : Nat) : FV :=
    let sc := fmt32.decode (s.scale.getD k 0)
    match v with
    | .fin _ _ => FV.ofRat (v.toRat * sc.toRat + (fmt32.decode (s.bias.getD k 0)).toRat)
    | _ => v.mul sc

/-- The index that reflection reads (R325). -/
def reflectIdx (i : Int) (n : Nat) : Nat :=
  if n ≤ 1 then 0
  else
    let r := (i % ((2 * n - 2 : Nat) : Int)).toNat
    if r < n then r else 2 * n - 2 - r

/-- The pixel of the padded image at (x, y) (R325). -/
def Img.padded (i : Img) (s : SwageDesc) : Img :=
  if !s.pad then i
  else
    { w := i.w + s.padLeft + s.padRight, h := i.h + s.padTop + s.padBottom, c := i.c,
      px := fun x y k =>
        let sx : Int := (x : Int) - s.padLeft
        let sy : Int := (y : Int) - s.padTop
        let inside := 0 ≤ sx && sx < i.w && 0 ≤ sy && sy < i.h
        if inside then i.px sx.toNat sy.toNat k
        else if s.padMode = 0 then .padding
        else if s.padMode = 1 then i.px (clampIdx sx i.w) (clampIdx sy i.h) k
        else i.px (reflectIdx sx i.w) (reflectIdx sy i.h) k }

/-- The output of a Swage op: its length is checked before anything is written (R326). -/
def runSwage (s : SwageDesc) (kernel outMax : Nat) (v : Value) : Dec Value :=
  let inE := v.shape.elem
  let outE := if s.convert then elemOfCode s.outElem else inE
  let i := (((((viewInput v).cropped s).flipped s).transposed s).resized s kernel inE).reordered s |>.padded s
  let layout := if s.outLayout = 1 then Layout.hwc else if s.outLayout = 2 then Layout.chw else v.shape.layout
  let shape : Shape := { elem := outE, layout := layout, channels := i.c, colour := if i.c = v.shape.channels then v.shape.colour else .none,
                         width := i.w, height := i.h, rate := v.shape.rate }
  let len := i.w * i.h * i.c * outE.size
  if outMax < len then corrupt Reason.outMaxExceeded 0
  else
    let chw := layout == .chw
    let n := i.w * i.h * i.c
    let at_ := fun idx =>
      if chw then (idx % i.w, idx / i.w % i.h, idx / (i.w * i.h)) else (idx / i.c % i.w, idx / (i.c * i.w), idx % i.c)
    let data := (List.range n).flatMap (fun idx => let (x, y, k) := at_ idx; leBytes outE.size (s.outBits inE outE k (i.px x y k)))
    .ok { shape := shape, data := data }

/-! ### Moves (R327 to R329) -/

/-- The indices of a region of up to three axes, in ascending order, the outermost slowest. -/
def moveIndices (counts : List Nat) : List (List Nat) :=
  match counts with
  | [] => [[]]
  | n :: rest => (moveIndices rest).flatMap (fun t => (List.range n).map (fun i => i :: t))

/-- The address of an element of one side of a move. -/
def moveAddr (base : Nat) (pitch : List Int) (ix : List Nat) : Nat :=
  ((base : Int) + (List.zipWith (fun (p : Int) (i : Nat) => p * i) pitch ix).foldl (· + ·) 0).toNat

/-- The bytes of a move, as if its source had first been copied to a temporary (R327): pairs of destination address and byte. -/
def moveResult (m : MoveRec) (mem : List Byte) : List (Nat × Byte) :=
  (moveIndices m.counts).flatMap (fun ix =>
    (List.range m.elem).map (fun b => (moveAddr m.dst m.dstPitch ix + b, mem.getD (moveAddr m.src m.srcPitch ix + b) 0)))

/-- The memory after a move (R327). -/
def moveApply (m : MoveRec) (mem : List Byte) : List Byte :=
  (moveResult m mem).foldl (fun acc p => modifyAt acc p.1 (fun _ => p.2)) mem

/-- Whether the two regions of a move overlap. -/
def moveOverlaps (m : MoveRec) : Bool :=
  let addrs := fun base pitch => (moveIndices m.counts).map (moveAddr base pitch)
  let d := addrs m.dst m.dstPitch
  (addrs m.src m.srcPitch).any (fun a => d.any (fun b => decide (a < b + m.elem) && decide (b < a + m.elem)))

/-- Whether a move is a translation: equal pitches. -/
def moveTranslates (m : MoveRec) : Bool := m.srcPitch == m.dstPitch

/-- Whether the destination is the source region and the mapping its own inverse (Table 09-4, case 3). -/
def moveExchanges (m : MoveRec) : Bool :=
  let ixs := moveIndices m.counts
  let pairs := ixs.map (fun ix => (moveAddr m.src m.srcPitch ix, moveAddr m.dst m.dstPitch ix))
  pairs.all (fun p => pairs.any (fun q => q.1 == p.2 && q.2 == p.1))

/-- The case of Table 09-4 that a move takes. -/
def moveCase (m : MoveRec) : Nat := if !(moveOverlaps m) then 1 else if moveTranslates m then 2 else if moveExchanges m then 3 else 4

/-- The bytes of the source region. -/
def moveBytes (m : MoveRec) : Nat := m.elem * m.counts.foldl (· * ·) 1


/-- The staging of a staged move: a source of at most 4 MiB goes through the block store, a larger one through a buffer, DROPped when the move completes (R329). -/
def Dev.stageMove (d : Dev) (r : Nat) (m : MoveRec) (tenant : Nat) : Option Dev :=
  if moveCase m != 4 then some d
  else if moveBytes m ≤ 4194304 then some (d.count Counter.swageStaged 0 1)
  else match d.allocBuf r (moveBytes m) tenant OwnerClass.swage with
    | none => none
    | some (h, d) => some ((d.dropBuf h OwnerClass.swage tenant).count Counter.swageStaged 0 1)

/-- A move of the array `mem` in a block: it answers the array after it; while no staging buffer is free the move has not come about (R327, R329). -/
def Dev.move (d : Dev) (b : BlockRef) (m : MoveRec) (tenant : Nat) (mem : List Byte) : Dev :=
  match d.stageMove b.region.val m tenant with
  | none => d
  | some d => d.emit (.moved (b.region.val * 16 + b.block.val) (moveApply m mem))

/-- MOVE (R327). -/
def execMove (block : BlockRef) (m : MoveRec) (tenant : Nat) (mem : List Byte) (s : State) : Out := s.onRunning (fun d => d.move block m tenant mem)

end Sys2Proof.Machine
end

