-- ==== Sys2Proof/Machine/Model.lean ====
section
/-!
DEFINITION. Machine/Model.lean: model images, placements, their checks and their runs (R367 to R380).
-/
namespace Sys2Proof.Machine

/-! ### Layouts -/

/-- A model image header (Table 11-1). -/
structure ModelHdr where
  magic : Nat
  major : Nat
  fmt : Nat
  flags : Nat
  layers : Nat
  tiles : Nat
  inElems : Nat
  outElems : Nat
  outKind : Nat
  layerOff : Nat
  tileOff : Nat
  kernelOff : Nat
  kernelLen : Nat
  tilesOff : Nat
  tilesLen : Nat
  imageLen : Nat
  rsvOk : Bool
  deriving DecidableEq, Repr

/-- The header of an image. -/
def modelHdr (b : List Byte) : ModelHdr :=
  { magic := leAt b 0 4, major := leAt b 5 1, fmt := leAt b 6 1, flags := leAt b 7 1, layers := leAt b 8 2, tiles := leAt b 12 4,
    inElems := leAt b 16 4, outElems := leAt b 20 4, outKind := leAt b 24 1, layerOff := leAt b 32 8, tileOff := leAt b 40 8,
    kernelOff := leAt b 48 8, kernelLen := leAt b 56 4, tilesOff := leAt b 64 8, tilesLen := leAt b 72 8, imageLen := leAt b 80 8,
    rsvOk := leAt b 7 1 < 2 && leAt b 10 2 == 0 && allZero (bytesAt b 25 7) && leAt b 60 4 == 0 && allZero (bytesAt b 88 40) }

/-- SPARSE of an image. -/
def ModelHdr.sparse (h : ModelHdr) : Bool := bitOf h.flags 0

/-- A layer record (Table 11-2). -/
structure Layer where
  kind : Nat
  outFormat : Nat
  m : Nat
  k : Nat
  n : Nat
  inBytes : Nat
  outBytes : Nat
  skipBytes : Nat
  tileFirst : Nat
  tiles : Nat
  epiOff : Nat
  epiLen : Nat
  rsvOk : Bool
  deriving DecidableEq, Repr

/-- A layer record from its 64 bytes. -/
def parseLayer (b : List Byte) : Layer :=
  { kind := leAt b 0 1, outFormat := leAt b 1 1, m := leAt b 4 4, k := leAt b 8 4, n := leAt b 12 4, inBytes := leAt b 16 4, outBytes := leAt b 20 4,
    skipBytes := leAt b 24 4, tileFirst := leAt b 28 4, tiles := leAt b 32 4, epiOff := leAt b 36 4, epiLen := leAt b 40 4,
    rsvOk := leAt b 2 2 == 0 && allZero (bytesAt b 44 20) }

/-- A tile table entry (Table 11-3). -/
structure Tile where
  off : Nat
  len : Nat
  layer : Nat
  kind : Nat
  cols : Nat
  colFirst : Nat
  kFirst : Nat
  kCount : Nat
  rsv : Nat
  deriving DecidableEq, Repr

/-- A tile table entry from its 32 bytes. -/
def parseTile (b : List Byte) : Tile :=
  { off := leAt b 0 8, len := leAt b 8 4, layer := leAt b 12 2, kind := leAt b 14 1, cols := leAt b 15 1, colFirst := leAt b 16 4, kFirst := leAt b 20 4,
    kCount := leAt b 24 4, rsv := leAt b 28 4 }

/-- The layers of an image. -/
def modelLayers (b : List Byte) : List Layer :=
  let h := modelHdr b
  (List.range h.layers).map (fun i => parseLayer (bytesAt b (h.layerOff + 64 * i) 64))

/-- The tiles of an image. -/
def modelTiles (b : List Byte) : List Tile :=
  let h := modelHdr b
  (List.range h.tiles).map (fun i => parseTile (bytesAt b (h.tileOff + 32 * i) 32))

/-- A placement entry (Table 11-5). -/
structure Placement where
  model : Nat
  group : Nat
  batch : Nat
  shares : Nat
  cells : Nat
  regions : Nat
  rsvOk : Bool
  deriving DecidableEq, Repr

/-- A placement entry from its 16 bytes. -/
def parsePlacement (b : List Byte) : Placement :=
  { model := leAt b 0 1, group := leAt b 1 1, batch := leAt b 2 1, shares := leAt b 3 1, cells := leAt b 4 2, regions := leAt b 6 1,
    rsvOk := allZero (bytesAt b 7 9) }

/-- The placement entries of a placement table. -/
def placements (b : List Byte) : List Placement := (List.range (b.length / 16)).map (fun i => parsePlacement (bytesAt b (16 * i) 16))

/-! ### Checks (Table 11-4) -/

/-- Whether a format is an MX format. -/
def isMx (fmt : Nat) : Bool := decide (fmt ≤ 2)

/-- Whether sections given by offset and length are apart from one another and lie within `len`. -/
def sectionsOk (len : Nat) (l : List (Nat × Nat)) : Bool :=
  match l with
  | [] => true
  | (o, n) :: r => decide (o + n ≤ len) && r.all (fun p => decide (n = 0) || decide (p.2 = 0) || decide (o + n ≤ p.1) || decide (p.1 + p.2 ≤ o)) && sectionsOk len r

/-- The header checks. -/
def ModelHdr.ok (h : ModelHdr) (len : Nat) : Bool :=
  h.magic == 0x4C444D42 && h.major == 1 && decide (h.fmt ≤ 5) && h.rsvOk && decide (2 ≤ h.layers && h.layers ≤ 4096) &&
  decide (1 ≤ h.tiles && h.tiles ≤ 262144) && decide (1 ≤ h.inElems && h.inElems ≤ 67108864) && decide (1 ≤ h.outElems && h.outElems ≤ 4194304) &&
  decide (h.outKind ≤ 1) && h.layerOff % 64 == 0 && h.tileOff % 64 == 0 && h.kernelOff % 64 == 0 && h.tilesOff % 64 == 0 &&
  decide (h.kernelLen ≤ 16777216) && h.tilesLen % 64 == 0 && h.imageLen == len && decide (len ≤ 17179869184) &&
  sectionsOk len [(0, 128), (h.layerOff, 64 * h.layers), (h.tileOff, 32 * h.tiles), (h.kernelOff, h.kernelLen), (h.tilesOff, h.tilesLen)]

/-- The packed size of M rows of K elements with their scales (R371). -/
def packedSize (fmt m k : Nat) : Nat :=
  let nb := ceilDiv k 32
  if fmt = 0 then m * (nb * 16 + nb) else if fmt ≤ 2 then m * (nb * 32 + nb) else if fmt = 3 then m * k else 2 * m * k

/-- The checks of one layer; `prev` is the OUT_FORMAT of the layer before it. -/
def Layer.ok (l : Layer) (h : ModelHdr) (prev : Option Nat) : Bool :=
  decide (l.kind ≤ 1) && decide (l.outFormat ≤ 7) && l.rsvOk && l.epiOff % 16 == 0 && decide (l.epiOff + l.epiLen ≤ h.kernelLen) &&
  (if l.kind = 0 then
    decide (1 ≤ l.m && l.m ≤ 16777216) && decide (1 ≤ l.k && l.k ≤ (if h.fmt = 3 then 131072 else 1048576)) && decide (1 ≤ l.n && l.n ≤ 1048576) &&
    decide (1 ≤ l.tiles) && prev == some h.fmt && decide (packedSize h.fmt l.m l.k ≤ l.inBytes) &&
    (l.epiLen != 0 || l.outFormat == 6 || (h.fmt == 3 && l.outFormat == 7))
  else l.m == 0 && l.k == 0 && l.n == 0 && l.tileFirst == 0 && l.tiles == 0 && decide (16 ≤ l.epiLen))

/-- The checks of the layers in order. -/
def layersOk (h : ModelHdr) (prev : Option Nat) : List Layer → Bool
  | [] => true
  | l :: r => l.ok h prev && layersOk h (some l.outFormat) r

/-- The length that R370 lays down for a tile. -/
def Tile.size (t : Tile) (h : ModelHdr) : Nat :=
  let nb := ceilDiv t.kCount 32
  if t.kind = 0 then roundUp (t.cols * nb) 64
  else if isMx h.fmt then roundUp (t.cols * nb) 64 + roundUp (t.cols * nb * (if h.fmt = 0 then (if h.sparse then 12 else 16) else 32)) 64
  else roundUp (t.cols * t.kCount * (if h.fmt = 3 then 1 else 2)) 64

/-- The fields of a tile that stand alone. -/
def Tile.ok (t : Tile) (h : ModelHdr) : Bool :=
  t.off % 64 == 0 && decide (h.tilesOff ≤ t.off) && decide (t.off + t.len ≤ h.tilesOff + h.tilesLen) && decide (64 ≤ t.len && t.len ≤ 65536) &&
  t.len % 64 == 0 && decide (t.kind ≤ 1) && decide (1 ≤ t.cols && t.cols ≤ 128) && t.colFirst % 128 == 0 && decide (1 ≤ t.kCount) && t.rsv == 0 &&
  t.len == t.size h

/-- Whether tiles follow one another from position `k0` up to `kEnd`; `mx` asks for blocks of 32 (R370). -/
def runCovers (mx : Bool) (k0 kEnd : Nat) : List Tile → Bool
  | [] => k0 == kEnd
  | t :: r => t.kFirst == k0 && (!mx || t.kCount % 32 == 0 || t.kFirst + t.kCount == kEnd) && decide (t.kFirst + t.kCount ≤ kEnd) &&
      runCovers mx (k0 + t.kCount) kEnd r

/-- Order and coverage of the column blocks of an ARRAY layer (R369). -/
def columnsOk (fuel : Nat) (h : ModelHdr) (l : Layer) (c : Nat) (ts : List Tile) : Bool :=
  match fuel with
  | 0 => false
  | f + 1 =>
    if l.n ≤ c then ts.isEmpty
    else
      let here := ts.takeWhile (fun t => t.colFirst == c)
      let pro := here.takeWhile (fun t => t.kind == 0)
      let els := here.drop pro.length
      here.all (fun t => t.cols == min 128 (l.n - c)) && els.all (fun t => t.kind == 1) &&
      (if isMx h.fmt then runCovers true 0 l.k pro else pro.isEmpty) && runCovers (isMx h.fmt) 0 l.k els &&
      columnsOk f h l (c + 128) (ts.drop here.length)

/-- The tile checks of a model. -/
def tilesOk (h : ModelHdr) (ls : List Layer) (ts : List Tile) : Bool :=
  ts.all (fun t => t.ok h) &&
  (List.range ts.length).all (fun i => match ts[i]? with
    | none => true
    | some t => match ls[t.layer]? with
      | none => false
      | some l => l.kind == 0 && decide (l.tileFirst ≤ i) && decide (i < l.tileFirst + l.tiles)) &&
  (List.range ls.length).all (fun j => match ls[j]? with
    | none => true
    | some l => l.kind != 0 ||
      (let mine := (ts.drop l.tileFirst).take l.tiles
       mine.length == l.tiles && mine.all (fun t => t.layer == j) && columnsOk (ceilDiv l.n 128 + 1) h l 0 mine))

/-- The index bytes of the 2:4 form of a tile: for each block of each column, four bytes of indices, all strictly ascending (R361, R370). -/
def sparseOk (b : List Byte) (h : ModelHdr) (t : Tile) : Bool :=
  let nb := t.cols * ceilDiv t.kCount 32
  let base := t.off + roundUp nb 64
  t.kind == 0 || (List.range nb).all (fun j => (List.range 8).all (fun g =>
    let x := bitField (leAt b (base + 12 * j + 8 + g / 2) 1) (4 * (g % 2)) 4
    decide (x % 4 < x / 4))) || h.fmt != 0

/-- The checks of Table 11-4 on an image, for the op that names it. -/
def modelOk (fw opcode fmt sparse outMax : Nat) (b : List Byte) : Bool :=
  let h := modelHdr b
  let ls := modelLayers b
  let ts := modelTiles b
  let outLen := if h.outKind = 0 then 4 * h.outElems else 32
  h.ok b.length && h.fmt == fmt && bitNat h.sparse == sparse && (!h.sparse || h.fmt == 0) &&
  (if opcode = 0x0403 then h.outKind == 1 && h.outElems == 256 else h.outKind == 0 && (opcode != 0x0402 || h.outElems == 1)) &&
  decide (outLen ≤ outMax) && (match ls[0]? with | some l => l.kind == 1 | none => false) && layersOk h none ls &&
  (match ls.getLast? with | some l => l.outFormat == 6 && l.outBytes == 4 * h.outElems | none => false) &&
  tilesOk h ls ts && (!h.sparse || ts.all (sparseOk b h)) &&
  ls.all (fun l => l.epiLen == 0 || Config.kernelDecodes fw (bytesAt b (h.kernelOff + l.epiOff) l.epiLen))

/-- Whether the set bits of a cell mask form whole aligned groups. -/
def groupsWhole (mask g : Nat) : Bool :=
  g != 0 && (List.range (16 / g)).all (fun i => let x := bitField mask (i * g) g; x == 0 || x == onesMask g)

/-- The checks of a placement entry (Table 11-5) for the op that names it. -/
def Placement.ok (p : Placement) (models opModel : Nat) : Bool :=
  decide (p.model < models) && p.model == opModel && [1, 2, 4, 8, 16].contains p.group && decide (1 ≤ p.batch && p.batch ≤ 64) &&
  decide (1 ≤ p.shares && p.shares ≤ 240) && groupsWhole p.cells p.group && p.regions != 0 && p.rsvOk

/-- The bits of a mask that are set, below `w`. -/
def maskBits (m w : Nat) : List Nat := (List.range w).filter (bitOf m)

/-- Pages of one copy of an image (R377). -/
def imagePages (b : List Byte) : Nat := ceilDiv b.length 2097152

/-- Elements of a layer's partial store: PART of R379. -/
def partBytes (ts : List Tile) (l : Layer) : Nat :=
  let mine := ((ts.drop l.tileFirst).take l.tiles).filter (fun t => t.kind == 1)
  if l.kind = 0 && mine.any (fun t => decide (1 < mine.countP (fun u => u.colFirst == t.colFirst))) then l.m * 128 * 20 else 0

/-- Whether a model fits its placement (R379). -/
def modelFits (b : List Byte) (p : Placement) : Bool :=
  let ts := modelTiles b
  (modelLayers b).all (fun l => decide (p.batch * (l.inBytes + ceilDiv (l.outBytes + l.skipBytes + partBytes ts l) p.group) ≤ 1310720))

/-- T_RING of an image and its shares, in ns: TILES_LEN / (shares × 7.8125 GB/s) (R380). -/
def ringNs (tilesLen shares : Nat) : Rat := (tilesLen : Rat) / ((shares : Rat) * (78125 / 10000))

/-! ### Running a model (R370 to R373) -/

/-- The counters that a run raises (Tables 10-8 and 11-8). -/
structure AnvilCounts where
  spanDrop : Nat
  saturate : Nat
  nanOut : Nat
  mismatch : Nat
  deriving DecidableEq, Repr

/-- No counts. -/
def AnvilCounts.zero : AnvilCounts := { spanDrop := 0, saturate := 0, nanOut := 0, mismatch := 0 }

/-- Counts added. -/
def AnvilCounts.plus (a b : AnvilCounts) : AnvilCounts :=
  { spanDrop := a.spanDrop + b.spanDrop, saturate := a.saturate + b.saturate, nanOut := a.nanOut + b.nanOut, mismatch := a.mismatch + b.mismatch }

/-- Byte `i` of an array. -/
def arrAt (a : Array Byte) (i : Nat) : Nat := (a.getD i 0).toNat

/-- The little-endian 16 bits at `i`. -/
def arrAt2 (a : Array Byte) (i : Nat) : Nat := arrAt a i + 256 * arrAt a (i + 1)

/-- The 32 codes of a stored MX block at byte `o`; in 2:4 form the codes that are not stored are +0 (R340, R361, R370). -/
def blockCodes (fmt : Nat) (sparse : Bool) (a : Array Byte) (o : Nat) : List Nat :=
  if fmt ≠ 0 then (List.range 32).map (fun i => arrAt a (o + i))
  else if !sparse then (List.range 32).map (fun i => bitField (arrAt a (o + i / 2)) (4 * (i % 2)) 4)
  else (List.range 32).map (fun i =>
    let g := i / 4
    let code := arrAt a (o + g)
    let ix := bitField (arrAt a (o + 8 + g / 2)) (4 * (g % 2)) 4
    if i % 4 = ix % 4 then code % 16 else if i % 4 = ix / 4 then code / 16 else 0)

/-- Bytes of a stored weight block. -/
def blockBytes (fmt : Nat) (sparse : Bool) : Nat := if fmt = 0 then (if sparse then 12 else 16) else 32

/-- The blocks of column `c` of a layer's weights: the scale and the codes of each, in order (R370). -/
def weightBlocks (h : ModelHdr) (a : Array Byte) (els : List Tile) (c : Nat) : List (Nat × List Nat) :=
  (els.filter (fun t => decide (t.colFirst ≤ c && c < t.colFirst + t.cols))).flatMap (fun t =>
    let nb := ceilDiv t.kCount 32
    let col := c - t.colFirst
    let base := t.off + roundUp (t.cols * nb) 64
    (List.range nb).map (fun j => (arrAt a (t.off + col * nb + j), blockCodes h.fmt h.sparse a (base + (col * nb + j) * blockBytes h.fmt h.sparse))))

/-- The patterns of column `c` of a layer's weights in a format without blocks (R370). -/
def weightElems (h : ModelHdr) (a : Array Byte) (els : List Tile) (c : Nat) : List Nat :=
  (els.filter (fun t => decide (t.colFirst ≤ c && c < t.colFirst + t.cols))).flatMap (fun t =>
    (List.range t.kCount).map (fun i =>
      let e := (c - t.colFirst) * t.kCount + i
      if h.fmt = 3 then arrAt a (t.off + e) else arrAt2 a (t.off + 2 * e)))

/-- The blocks of row `r` of an activation tensor of M rows and K positions (R371). -/
def actBlocks (fmt m k : Nat) (a : Array Byte) (r : Nat) : List (Nat × List Nat) :=
  let nb := ceilDiv k 32
  let bb := blockBytes fmt false
  (List.range nb).map (fun j => (arrAt a (m * nb * bb + r * nb + j), blockCodes fmt false a ((r * nb + j) * bb)))

/-- The patterns of row `r` of an activation tensor in a format without blocks (R371). -/
def actElems (fmt k : Nat) (a : Array Byte) (r : Nat) : List Nat :=
  (List.range k).map (fun i => let e := r * k + i; if fmt = 3 then arrAt a e else arrAt2 a (2 * e))

/-- One reduction of an ARRAY layer: its read-out as a 32-bit pattern, and what it counts (R343 to R353). -/
def reduceOne (h : ModelHdr) (fast : Bool) (draw red : Nat) (toF32 : Bool) (mxw mxa : List (Nat × List Nat)) (w x : List Nat) : Nat × AnvilCounts :=
  if isMx h.fmt then
    let bs : List MxBlock := List.zipWith (fun p q => { sa := p.1, sb := q.1, elems := List.zipWith (fun u v => (mxElem h.fmt u, mxElem h.fmt v)) p.2 q.2 }) mxw mxa
    let f := mxFlags bs
    (mxReadout h.fmt bs, { AnvilCounts.zero with spanDrop := bitNat (mxDropped h.fmt bs), nanOut := bitNat (f.nan || (f.pos && f.neg)) })
  else if h.fmt = 3 then
    let ps := List.zipWith (fun u v => (signedOfBits 8 u, signedOfBits 8 v)) w x
    let z := int8Result ps
    (if toF32 then fmt32.encode (FV.ofRat z) else bitsOfSigned 32 z, { AnvilCounts.zero with saturate := bitNat (int8Sum ps != z) })
  else
    let f := if h.fmt = 4 then fmtBf16 else fmt16
    let ps := List.zipWith (fun u v => mul32 (f.decode u) (f.decode v)) w x
    (fmt32.encode (if fast then fastTree ps.length draw red 0 ps else pairwise ps), AnvilCounts.zero)

/-- The read-out of an ARRAY layer on an activation tensor, rows by columns, 4 bytes each (R368). -/
def arrayLayer (h : ModelHdr) (img : Array Byte) (ts : List Tile) (l : Layer) (fast : Bool) (draw : Nat) (act : List Byte) : List Byte × AnvilCounts :=
  let a := act.toArray
  let els := ((ts.drop l.tileFirst).take l.tiles).filter (fun t => t.kind == 1)
  let toF32 := l.epiLen == 0 && l.outFormat == 6
  let cols := (List.range l.n).map (fun c => (weightBlocks h img els c, weightElems h img els c))
  (List.range l.m).foldl (fun acc r =>
    let ab := actBlocks h.fmt l.m l.k a r
    let ae := actElems h.fmt l.k a r
    (List.zip (List.range l.n) cols).foldl (fun acc p =>
      let (v, n) := reduceOne h fast draw (r * l.n + p.1) toF32 p.2.1 ab p.2.2 ae
      (acc.1 ++ leBytes 4 v, acc.2.plus n)) acc) ([], AnvilCounts.zero)

/-- The layers of a model run in order; `hist` holds what is live: the input and the outputs of the layers before, newest first (R368). -/
def runLayers (fw : Nat) (h : ModelHdr) (img : Array Byte) (b : List Byte) (ts : List Tile) (fast : Bool) (draw : Nat) (hist : List (List Byte)) (n : AnvilCounts) :
    List Layer → List Byte × AnvilCounts
  | [] => (hist.headD [], n)
  | l :: r =>
    let kernel := bytesAt b (h.kernelOff + l.epiOff) l.epiLen
    let (out, c) :=
      if l.kind = 0 then
        let (ro, c) := arrayLayer h img ts l fast draw (hist.headD [])
        (if l.epiLen = 0 then ro else Config.vectorKernel fw kernel (ro :: hist), c)
      else (Config.vectorKernel fw kernel hist, AnvilCounts.zero)
    runLayers fw h img b ts fast (draw + 1) (padTo out l.outBytes :: hist) (n.plus c) r

/-- The elements of an op's input as binary32 patterns, in stored order (R372). -/
def inputValues (v : Value) : List Nat :=
  match v.token with
  | some _ => v.data.map (fun x => fmt32.encode (FV.ofRat x.toNat))
  | none =>
    let n := v.shape.elemBytes
    let e := if v.shape.elem = .bytes then .u8 else v.shape.elem
    (List.range (v.data.length / n)).map (fun i =>
      let bits := leAt v.data (n * i) n
      if e = .f32 then bits else fmt32.encode (e.value bits))

/-- The output value of a model's last layer (R373). -/
def modelOutput (h : ModelHdr) (vs : List Byte) : Value :=
  if h.outKind = 0 then
    { shape := { elem := .f32, layout := .flat, channels := 1, colour := .none, width := h.outElems, height := 1, rate := 0 }, data := padTo vs (4 * h.outElems) }
  else
    let bit := fun i => match fmt32.decode (leAt vs (4 * i) 4) with
      | .fin neg m => !neg && decide (0 < m)
      | .inf neg => !neg
      | .nan => false
    Value.ofBytes ((List.range 32).map (fun j => byteOf ((List.range 8).foldl (fun x i => x + bitNat (bit (8 * j + i)) * 2 ^ i) 0)))

/-- A model run on an op's input (R372, R373): the output and what it counts. -/
def runModel (fw : Nat) (b : List Byte) (fast : Bool) (draw : Nat) (v : Value) : Value × AnvilCounts :=
  let h := modelHdr b
  let xs := inputValues v
  let ins := (xs.take h.inElems ++ List.replicate (h.inElems - xs.length) 0).flatMap (leBytes 4)
  let (o, n) := runLayers fw h b.toArray b (modelTiles b) fast draw [ins] AnvilCounts.zero (modelLayers b)
  (modelOutput h o, { n with mismatch := bitNat (xs.length != h.inElems) })

/-- The element type of a code of a free shape. -/
def elemOfFree (c : Nat) : Elem :=
  match c % 6 with
  | 0 => .u8
  | 1 => .u16
  | 2 => .s16
  | 3 => .s24
  | 4 => .f32
  | _ => .bytes

/-- VECTOR_MAP: the kernel applied to the input; the spec does not state the shape of its output, so it is free. -/
def runVectorMap (fw : Nat) (kernel : List Byte) (v : Value) : Value :=
  let out := Config.vectorKernel fw kernel [(inputValues v).flatMap (leBytes 4)]
  let s := Config.vectorMapShape fw kernel v.data
  { shape := { elem := elemOfFree (s.getD 0 0), layout := .flat, channels := 1, colour := .none, width := s.getD 1 0, height := s.getD 2 0, rate := 0 },
    data := out }

end Sys2Proof.Machine
end

