-- ==== Sys2Proof/Machine/Containers.lean ====
section
/-!
DEFINITION. Machine/Containers.lean: the Bexdal Record Container (R264 to R268), POSIX ustar (R269 to R271), text (R284) and JSON Lines (R285).
-/
namespace Sys2Proof.Machine

/-- What a walk over a container has met: records checked, and the primary record's payload offset, length and PAYLOAD_LEN field. -/
structure BrcWalk where
  count : Nat
  primary : Option (Nat × Nat × Nat)

/-- The records of one container, `n` of them from byte `q`; `sub` checks a nested container. -/
def brcRecords (n : Nat) (sub : Nat → Nat → Nat → BrcWalk → Dec BrcWalk) (a : Array Byte) (c tot q : Nat) (w : BrcWalk) : Dec BrcWalk :=
  match n with
  | 0 => do
    require (q == c + tot) Reason.brcLengthContradiction (c + 8)
    .ok w
  | k + 1 => do
    require (decide (q + 24 ≤ c + tot)) Reason.brcLengthContradiction q
    require (decide (w.count < 65536)) Reason.brcRecordBad q
    let ty := inAt a q
    let fl := inAt a (q + 1)
    require (decide (1 ≤ ty ∧ ty ≤ 4) || decide (0x80 ≤ ty)) Reason.brcRecordBad q
    require (decide (fl < 2)) Reason.brcRecordBad (q + 1)
    require (inAt a (q + 3) == 0) Reason.brcRecordBad (q + 3)
    let crc := bitOf fl 0
    let chk := inLe a (q + 16) 4
    require (crc || chk == 0) Reason.brcRecordBad (q + 16)
    require (inLe a (q + 20) 4 == 0) Reason.brcRecordBad (q + 20)
    let nameLen := inAt a (q + 2)
    let payLen := inLe a (q + 8) 8
    let stride := roundUp (24 + nameLen + payLen) 8
    require (decide (q + stride ≤ c + tot)) Reason.brcLengthContradiction (q + 8)
    let pay := q + 24 + nameLen
    require (!crc || chk == crc32c (inBytes a pay payLen)) Reason.brcCrcBad (q + 16)
    let w := { w with count := w.count + 1 }
    let w ← (
      if ty = 1 then .ok (if w.primary.isNone then { w with primary := some (pay, payLen, q + 8) } else w)
      else if ty = 2 then sub pay payLen (q + 8) w
      else .ok w : Dec BrcWalk)
    brcRecords k sub a c tot (q + stride) w

/-- The checks of one container of R266 at byte `c`, with `depth` levels still allowed; `lenField` is the field that declared its span. -/
def brcContainer (depth : Nat) (a : Array Byte) (c span lenField : Nat) (w : BrcWalk) : Dec BrcWalk :=
  match depth with
  | 0 => corrupt Reason.brcTooDeep c
  | d + 1 => do
    require (decide (32 ≤ span)) Reason.brcLengthContradiction lenField
    require (inLe a c 4 == 0x31435242) Reason.brcHeaderBad c
    require (inAt a (c + 5) == 1) Reason.brcHeaderBad (c + 4)
    let rsv := ((List.range 2).map (fun i => c + 6 + i) ++ (List.range 8).map (fun i => c + 20 + i)).find? (fun i => inAt a i != 0)
    require rsv.isNone Reason.brcHeaderBad (rsv.getD c)
    require (inLe a (c + 28) 4 == crc32c (inBytes a c 28)) Reason.brcHeaderBad (c + 28)
    require (inLe a (c + 8) 8 == span) Reason.brcLengthContradiction (c + 8)
    let n := inLe a (c + 16) 4
    require (decide (1 ≤ n) && decide (n ≤ 65535)) Reason.brcRecordBad (c + 16)
    brcRecords n (brcContainer d a) a c span (c + 32) w

/-- PARSE_BRC (R266 to R268): p0 is MAX_DEPTH. -/
def parseBrc (maxDepth : Nat) (bs : List Byte) : Dec Value := do
  let a := bs.toArray
  let w ← brcContainer maxDepth a 0 a.size 0 { count := 0, primary := none }
  match w.primary with
  | none => corrupt Reason.brcNoData a.size
  | some (o, n, fld) => do
    require (n != 0) Reason.brcNoData fld
    .ok (Value.ofBytes (inBytes a o n))

/-! ### ustar -/

/-- The value of octal digits in bytes `b` to `b + n - 1`, with leading spaces allowed when `sp`, ended by NUL or space. -/
def octalField (a : Array Byte) (sp : Bool) (b n : Nat) : Option Nat :=
  let f := (inBytes a b n).map (fun x => x.toNat)
  let f := if sp then f.dropWhile (fun x => x == 0x20) else f
  let ds := f.takeWhile (fun x => decide (0x30 ≤ x ∧ x ≤ 0x37))
  match f.drop ds.length with
  | t :: _ => if (t = 0 || t = 0x20) && !ds.isEmpty then some (ds.foldl (fun v x => 8 * v + (x - 0x30)) 0) else none
  | [] => none

/-- The sum of a header's bytes with its checksum field counted as spaces. -/
def ustarSum (a : Array Byte) (b : Nat) : Nat :=
  sumNat ((List.range 512).map (fun i => if 148 ≤ i ∧ i < 156 then 0x20 else inAt a (b + i)))

/-- The members of an archive from byte `b`: the data ranges of its regular files, in order. -/
def ustarMembers (fuel : Nat) (a : Array Byte) (b n : Nat) (acc : List (Nat × Nat)) : Dec (List (Nat × Nat)) :=
  match fuel with
  | 0 => .ok acc.reverse
  | f + 1 =>
    if b = a.size then .ok acc.reverse
    else do
      require (decide (b + 512 ≤ a.size)) Reason.ustarTruncated a.size
      let zero := fun (o : Nat) => (List.range 512).all (fun i => inAt a (o + i) == 0)
      if zero b && decide (b + 1024 ≤ a.size) && zero (b + 512) then .ok acc.reverse
      else do
        require (octalField a false (b + 148) 8 == some (ustarSum a b)) Reason.ustarChecksumBad (b + 148)
        require (inBytes a (b + 257) 6 == [0x75, 0x73, 0x74, 0x61, 0x72, 0x00]) Reason.ustarHeaderBad (b + 257)
        require (inBytes a (b + 263) 2 == [0x30, 0x30]) Reason.ustarHeaderBad (b + 263)
        let size := octalField a true (b + 124) 12
        require size.isSome Reason.ustarHeaderBad (b + 124)
        require (decide (n < 65536)) Reason.ustarLimit b
        let sz := size.getD 0
        let e := b + 512 + roundUp sz 512
        require (decide (e ≤ a.size)) Reason.ustarTruncated a.size
        let t := inAt a (b + 156)
        ustarMembers f a e (n + 1) (if t = 0x30 || t = 0 then (b + 512, sz) :: acc else acc)

/-- PARSE_USTAR (R269 to R271, R287): p0 is MEMBERS. -/
def parseUstar (members : Nat) (bs : List Byte) (outMax : Nat) : Dec Value := do
  let a := bs.toArray
  let fs ← ustarMembers (a.size / 512 + 2) a 0 0 []
  require (!fs.isEmpty) Reason.ustarNoMember a.size
  let take := if members = 0 then fs.take 1 else fs
  let data := (take.map (fun p => inBytes a p.1 p.2)).flatten
  -- The input offset of the byte at which the output first passes OUT_MAX.
  let at' := (take.foldl (fun (s : Nat × Option Nat) p =>
    match s.2 with
    | some _ => s
    | none => if outMax < s.1 + p.2 then (s.1, some (p.1 + (outMax - s.1))) else (s.1 + p.2, none)) (0, none)).2
  match at' with
  | some o => corrupt Reason.outMaxExceeded o
  | none => .ok (Value.ofBytes data)

/-! ### Text and JSON Lines -/

/-- Bytes of a leading byte-order mark. -/
def bomLen (a : Array Byte) : Nat := if a.size ≥ 3 ∧ inAt a 0 = 0xEF ∧ inAt a 1 = 0xBB ∧ inAt a 2 = 0xBF then 3 else 0

/-- DECODE_TEXT (R284, R287): p0 is MAX_BYTES. -/
def decodeText (maxBytes : Nat) (bs : List Byte) (outMax : Nat) : Dec Value :=
  let b := bomLen bs.toArray
  let n := bs.length - b
  if maxBytes < n ∧ maxBytes ≤ outMax then corrupt Reason.textLimit (b + maxBytes)
  else if outMax < n then corrupt Reason.outMaxExceeded (b + outMax)
  else .ok (Value.ofBytes (bs.drop b))

/-- The length of the well-formed UTF-8 sequence at byte `p` (Unicode table 3-7), none where there is none. -/
def utf8Len (a : Array Byte) (p : Nat) : Option Nat :=
  let b0 := inAt a p
  let c := fun (i lo hi : Nat) => decide (p + i < a.size) && decide (lo ≤ inAt a (p + i)) && decide (inAt a (p + i) ≤ hi)
  if b0 < 0x80 then some 1
  else if 0xC2 ≤ b0 ∧ b0 ≤ 0xDF then (if c 1 0x80 0xBF then some 2 else none)
  else if 0xE0 ≤ b0 ∧ b0 ≤ 0xEF then
    let lo := if b0 = 0xE0 then 0xA0 else 0x80
    let hi := if b0 = 0xED then 0x9F else 0xBF
    if c 1 lo hi && c 2 0x80 0xBF then some 3 else none
  else if 0xF0 ≤ b0 ∧ b0 ≤ 0xF4 then
    let lo := if b0 = 0xF0 then 0x90 else 0x80
    let hi := if b0 = 0xF4 then 0x8F else 0xBF
    if c 1 lo hi && c 2 0x80 0xBF && c 3 0x80 0xBF then some 4 else none
  else none

/-- The UTF-8 bytes of a scalar value. -/
def utf8Enc (c : Nat) : List Byte :=
  if c < 0x80 then [byteOf c]
  else if c < 0x800 then [byteOf (0xC0 + c / 64), byteOf (0x80 + c % 64)]
  else if c < 0x10000 then [byteOf (0xE0 + c / 4096), byteOf (0x80 + c / 64 % 64), byteOf (0x80 + c % 64)]
  else [byteOf (0xF0 + c / 262144), byteOf (0x80 + c / 4096 % 64), byteOf (0x80 + c / 64 % 64), byteOf (0x80 + c % 64)]

/-- The value of a hexadecimal digit. -/
def hexVal (x : Nat) : Option Nat :=
  if 0x30 ≤ x ∧ x ≤ 0x39 then some (x - 0x30)
  else if 0x41 ≤ x ∧ x ≤ 0x46 then some (x - 0x37)
  else if 0x61 ≤ x ∧ x ≤ 0x66 then some (x - 0x57)
  else none

/-- The code unit of the four hexadecimal digits at byte `p`. -/
def hex4 (a : Array Byte) (p : Nat) : Option Nat :=
  (List.range 4).foldl (fun o i => o.bind (fun v =>
    if p + i < a.size then (hexVal (inAt a (p + i))).map (fun d => 16 * v + d) else none)) (some 0)

/-- A JSON string whose opening quote is at `p - 1`: its unescaped bytes, newest first, each with the offset it comes from, and the byte after it. -/
def jsonString (fuel : Nat) (a : Array Byte) (p : Nat) (acc : List (Byte × Nat)) : Dec (List (Byte × Nat) × Nat) :=
  match fuel with
  | 0 => corrupt Reason.jsonSyntax p
  | f + 1 =>
    if a.size ≤ p then corrupt Reason.jsonSyntax a.size
    else
      let x := inAt a p
      let add := fun (bs : List Byte) => (bs.map (fun b => (b, p))).reverse ++ acc
      if x = 0x22 then .ok (acc, p + 1)
      else if x < 0x20 then corrupt Reason.jsonSyntax p
      else if x = 0x5C then
        let y := if p + 1 < a.size then inAt a (p + 1) else 0
        let simple := [(0x22, 0x22), (0x5C, 0x5C), (0x2F, 0x2F), (0x62, 8), (0x66, 12), (0x6E, 10), (0x72, 13), (0x74, 9)].find?
          (fun (q : Nat × Nat) => q.1 == y)
        match simple with
        | some q => jsonString f a (p + 2) (add [byteOf q.2])
        | none =>
          if y = 0x75 then
            match hex4 a (p + 2) with
            | none => corrupt Reason.jsonSyntax p
            | some u =>
              if 0xDC00 ≤ u ∧ u ≤ 0xDFFF then corrupt Reason.jsonSyntax p
              else if 0xD800 ≤ u ∧ u ≤ 0xDBFF then
                if p + 7 < a.size ∧ inAt a (p + 6) = 0x5C ∧ inAt a (p + 7) = 0x75 then
                  match hex4 a (p + 8) with
                  | some v =>
                    if 0xDC00 ≤ v ∧ v ≤ 0xDFFF then
                      jsonString f a (p + 12) (add (utf8Enc (0x10000 + (u - 0xD800) * 1024 + (v - 0xDC00))))
                    else corrupt Reason.jsonSyntax p
                  | none => corrupt Reason.jsonSyntax p
                else corrupt Reason.jsonSyntax p
              else jsonString f a (p + 6) (add (utf8Enc u))
          else corrupt Reason.jsonSyntax p
      else
        match utf8Len a p with
        | none => corrupt Reason.jsonSyntax p
        | some n => jsonString f a (p + n) (add (inBytes a p n))

/-- The byte after the run of digits from `p`. -/
def digitsEnd (fuel : Nat) (a : Array Byte) (p : Nat) : Nat :=
  match fuel with
  | 0 => p
  | f + 1 => if p < a.size ∧ 0x30 ≤ inAt a p ∧ inAt a p ≤ 0x39 then digitsEnd f a (p + 1) else p

/-- The byte after the JSON number at `p` (RFC 8259, section 6). -/
def jsonNumber (a : Array Byte) (p : Nat) : Dec Nat := do
  let q := if inAt a p = 0x2D then p + 1 else p
  let e := digitsEnd (a.size + 1) a q
  require (decide (q < e) && (inAt a q != 0x30 || e == q + 1)) Reason.jsonSyntax p
  let e1 ← (if e < a.size ∧ inAt a e = 0x2E then do
      let d := digitsEnd (a.size + 1) a (e + 1)
      require (decide (e + 1 < d)) Reason.jsonSyntax p
      .ok d
    else .ok e : Dec Nat)
  if e1 < a.size ∧ (inAt a e1 = 0x65 ∨ inAt a e1 = 0x45) then do
    let s := if inAt a (e1 + 1) = 0x2B ∨ inAt a (e1 + 1) = 0x2D then e1 + 2 else e1 + 1
    let d := digitsEnd (a.size + 1) a s
    require (decide (s < d)) Reason.jsonSyntax p
    .ok d
  else .ok e1

/-- What the JSON reader awaits. -/
inductive JsonMode where
  | value | valueOrEnd | key | keyOrEnd | colon | after
  deriving DecidableEq

/-- The JSON reader: open containers (true for an object), and the member's string once found. -/
structure JsonState where
  mode : JsonMode
  stack : List Bool
  /-- The name just read is the wanted one, at the top level. -/
  hit : Bool
  found : Option (List (Byte × Nat))

/-- Whether a byte is JSON whitespace. -/
def jsonWs (x : Nat) : Bool := x == 0x20 || x == 0x09 || x == 0x0A || x == 0x0D

/-- The byte after the literal `lit` at `p`. -/
def jsonLit (a : Array Byte) (p : Nat) (lit : List Nat) : Dec Nat :=
  if (List.range lit.length).all (fun i => decide (p + i < a.size) && inAt a (p + i) == lit.getD i 0) then .ok (p + lit.length)
  else corrupt Reason.jsonSyntax p

/-- What follows a value that ends: the top-level value, or an element of a container. -/
def JsonState.done (s : JsonState) : JsonState := { s with mode := .after, hit := false }

/-- One token of the JSON reader at byte `p`, which is no whitespace. -/
def jsonToken (a : Array Byte) (key : List Byte) (outMax p : Nat) (s : JsonState) : Dec (JsonState × Nat) :=
  let x := inAt a p
  match s.mode with
  | .colon => do
    require (x == 0x3A) Reason.jsonSyntax p
    .ok ({ s with mode := .value }, p + 1)
  | .after =>
    match s.stack with
    | [] => corrupt Reason.jsonSyntax p
    | true :: r =>
      if x = 0x2C then .ok ({ s with mode := .key }, p + 1)
      else if x = 0x7D then .ok ({ s with stack := r, mode := .after }, p + 1)
      else corrupt Reason.jsonSyntax p
    | false :: r =>
      if x = 0x2C then .ok ({ s with mode := .value }, p + 1)
      else if x = 0x5D then .ok ({ s with stack := r, mode := .after }, p + 1)
      else corrupt Reason.jsonSyntax p
  | .key | .keyOrEnd =>
    if x = 0x22 then do
      let (str, q) ← jsonString (a.size + 1) a (p + 1) []
      let hit := decide (s.stack.length = 1) && s.found.isNone && (str.reverse.map (fun b => b.1) == key)
      .ok ({ s with mode := .colon, hit := hit }, q)
    else if x = 0x7D ∧ s.mode = .keyOrEnd then .ok ({ s with stack := s.stack.drop 1, mode := .after }, p + 1)
    else corrupt Reason.jsonSyntax p
  | .value | .valueOrEnd =>
    if x = 0x5D ∧ s.mode = .valueOrEnd then .ok ({ s with stack := s.stack.drop 1, mode := .after }, p + 1)
    else if x = 0x7B then do
      require (!s.hit) Reason.jsonType p
      require (decide (s.stack.length < 64)) Reason.jsonLimit p
      .ok ({ s with stack := true :: s.stack, mode := .keyOrEnd }, p + 1)
    else if x = 0x5B then do
      require (!s.hit && !s.stack.isEmpty) Reason.jsonType p
      require (decide (s.stack.length < 64)) Reason.jsonLimit p
      .ok ({ s with stack := false :: s.stack, mode := .valueOrEnd }, p + 1)
    else if x = 0x22 then do
      require (!s.stack.isEmpty) Reason.jsonType p
      let (str, q) ← jsonString (a.size + 1) a (p + 1) []
      let str := str.reverse
      if s.hit then do
        require (decide (str.length ≤ outMax)) Reason.outMaxExceeded ((str.getD outMax (0, p)).2)
        .ok ({ s.done with found := some str }, q)
      else .ok (s.done, q)
    else do
      let q ← (if x = 0x74 then jsonLit a p [0x74, 0x72, 0x75, 0x65]
        else if x = 0x66 then jsonLit a p [0x66, 0x61, 0x6C, 0x73, 0x65]
        else if x = 0x6E then jsonLit a p [0x6E, 0x75, 0x6C, 0x6C]
        else if x = 0x2D ∨ (0x30 ≤ x ∧ x ≤ 0x39) then jsonNumber a p
        else corrupt Reason.jsonSyntax p : Dec Nat)
      require (!s.hit && !s.stack.isEmpty) Reason.jsonType p
      .ok (s.done, q)

/-- The JSON reader from byte `p` to the end of the text (R285, Table 07-7). -/
def jsonRun (fuel : Nat) (a : Array Byte) (key : List Byte) (outMax p : Nat) (s : JsonState) : Dec JsonState :=
  match fuel with
  | 0 => .ok s
  | f + 1 =>
    if 16777216 ≤ p ∧ p < a.size then corrupt Reason.jsonLimit 16777216
    else if a.size ≤ p then
      (if s.mode = .after ∧ s.stack = [] then .ok s else corrupt Reason.jsonSyntax a.size)
    else if jsonWs (inAt a p) then jsonRun f a key outMax (p + 1) s
    else do
      let (s, q) ← jsonToken a key outMax p s
      jsonRun f a key outMax q s

/-- PARSE_JSONL (R285): `key` is the member's name from the constants section. -/
def parseJsonl (key bs : List Byte) (outMax : Nat) : Dec Value := do
  let a := bs.toArray
  let s ← jsonRun (a.size + 2) a key outMax (bomLen a) { mode := .value, stack := [], hit := false, found := none }
  match s.found with
  | none => corrupt Reason.jsonKeyMissing a.size
  | some str => .ok (Value.ofBytes (str.map (fun b => b.1)))

end Sys2Proof.Machine
end

