-- ==== Sys2Proof/Machine/Sha2.lean ====
section
/-!
DEFINITION. Machine/Sha2.lean: SHA-256 and SHA-384 of FIPS 180-4, which the spec takes over binaries, extents, images and logs (R182, R232, R679, R681).
The round constants are the fractional parts of the cube roots of the first primes, computed here from that definition.
-/
namespace Sys2Proof.Machine

/-- The greatest `r` with `r ^ k ≤ n`, found bit by bit from `2 ^ (bits - 1)`. -/
def iroot (k n bits : Nat) : Nat :=
  (List.range bits).foldl (fun r i => let t := r + 2 ^ (bits - 1 - i); if t ^ k ≤ n then t else r) 0

/-- The first 80 primes. -/
def primes80 : List Nat :=
  [2, 3, 5, 7, 11, 13, 17, 19, 23, 29, 31, 37, 41, 43, 47, 53, 59, 61, 67, 71] ++
  [73, 79, 83, 89, 97, 101, 103, 107, 109, 113, 127, 131, 137, 139, 149, 151, 157, 163, 167, 173] ++
  [179, 181, 191, 193, 197, 199, 211, 223, 227, 229, 233, 239, 241, 251, 257, 263, 269, 271, 277, 281] ++
  [283, 293, 307, 311, 313, 317, 331, 337, 347, 349, 353, 359, 367, 373, 379, 383, 389, 397, 401, 409]

/-- The first `w` fractional bits of the cube root of `p`. -/
def cubeRootFrac (w p : Nat) : Nat := iroot 3 (p * 2 ^ (3 * w)) (w + 4) % 2 ^ w

/-- The first `w` fractional bits of the square root of `p`. -/
def sqrtFrac (w p : Nat) : Nat := iroot 2 (p * 2 ^ (2 * w)) (w + 5) % 2 ^ w

/-- Rotation right by `n` of a `w`-bit word. -/
def rotr (w n x : Nat) : Nat := (x / 2 ^ n) ||| (x * 2 ^ (w - n) % 2 ^ w)

/-- The shift and rotation counts of one SHA-2 variant: word width, rounds, and the counts of Σ0, Σ1, σ0, σ1. -/
structure Sha2Kind where
  w : Nat
  rounds : Nat
  s0 : Nat × Nat × Nat
  s1 : Nat × Nat × Nat
  g0 : Nat × Nat × Nat
  g1 : Nat × Nat × Nat

/-- The variant of SHA-256. -/
def sha256Kind : Sha2Kind := ⟨32, 64, (2, 13, 22), (6, 11, 25), (7, 18, 3), (17, 19, 10)⟩

/-- The variant of SHA-384. -/
def sha512Kind : Sha2Kind := ⟨64, 80, (28, 34, 39), (14, 18, 41), (1, 8, 7), (19, 61, 6)⟩

/-- Σ: the XOR of three rotations. -/
def bigSigma (w : Nat) (c : Nat × Nat × Nat) (x : Nat) : Nat := rotr w c.1 x ^^^ rotr w c.2.1 x ^^^ rotr w c.2.2 x

/-- σ: the XOR of two rotations and a shift. -/
def smallSigma (w : Nat) (c : Nat × Nat × Nat) (x : Nat) : Nat := rotr w c.1 x ^^^ rotr w c.2.1 x ^^^ (x / 2 ^ c.2.2)

/-- The message schedule, newest word first. -/
def sha2Schedule (k : Sha2Kind) (ws : List Nat) (n : Nat) : List Nat :=
  (List.range n).foldl (fun (s : List Nat) _ =>
    ((smallSigma k.w k.g1 (s.getD 1 0) + s.getD 6 0 + smallSigma k.w k.g0 (s.getD 14 0) + s.getD 15 0) % 2 ^ k.w) :: s) ws.reverse

/-- The eight working words of a round. -/
structure Sha2Regs where
  a : Nat
  b : Nat
  c : Nat
  d : Nat
  e : Nat
  f : Nat
  g : Nat
  h : Nat

/-- One round with the sum of its constant and schedule word. -/
def sha2Round (k : Sha2Kind) (r : Sha2Regs) (kw : Nat) : Sha2Regs :=
  let m := 2 ^ k.w
  let ch := (r.e &&& r.f) ^^^ ((r.e ^^^ (m - 1)) &&& r.g)
  let t1 := r.h + bigSigma k.w k.s1 r.e + ch + kw
  let maj := (r.a &&& r.b) ^^^ (r.a &&& r.c) ^^^ (r.b &&& r.c)
  let t2 := bigSigma k.w k.s0 r.a + maj
  { a := (t1 + t2) % m, b := r.a, c := r.b, d := r.c, e := (r.d + t1) % m, f := r.e, g := r.f, h := r.g }

/-- The state after one block of 16 words. -/
def sha2Block (k : Sha2Kind) (consts : List Nat) (r : Sha2Regs) (ws : List Nat) : Sha2Regs :=
  let sched := (sha2Schedule k ws (k.rounds - 16)).reverse
  let t := (List.zip consts sched).foldl (fun r p => sha2Round k r (p.1 + p.2)) r
  let m := 2 ^ k.w
  { a := (r.a + t.a) % m, b := (r.b + t.b) % m, c := (r.c + t.c) % m, d := (r.d + t.d) % m,
    e := (r.e + t.e) % m, f := (r.f + t.f) % m, g := (r.g + t.g) % m, h := (r.h + t.h) % m }

/-- The padded message, cut into blocks of 16 big-endian words. -/
def sha2Blocks (k : Sha2Kind) (bs : List Byte) : List (List Nat) :=
  let wb := k.w / 8
  let blk := 16 * wb
  let used := (bs.length + 1 + 2 * wb) % blk
  let padLen := if used = 0 then 0 else blk - used
  let msg := bs ++ [(0x80 : Byte)] ++ zeros padLen ++ beBytes (2 * wb) (8 * bs.length)
  (List.range (msg.length / blk)).map (fun i => (List.range 16).map (fun j => beAt msg (i * blk + j * wb) wb))

/-- A SHA-2 digest with its initial words, as a list of words. -/
def sha2 (k : Sha2Kind) (init : List Nat) (bs : List Byte) : List Nat :=
  let consts := (primes80.take k.rounds).map (cubeRootFrac k.w)
  let r0 : Sha2Regs := ⟨init.getD 0 0, init.getD 1 0, init.getD 2 0, init.getD 3 0, init.getD 4 0, init.getD 5 0, init.getD 6 0, init.getD 7 0⟩
  let r := (sha2Blocks k bs).foldl (sha2Block k consts) r0
  [r.a, r.b, r.c, r.d, r.e, r.f, r.g, r.h]

/-- SHA-256 of a byte string, 32 bytes (FIPS 180-4). -/
def sha256 (bs : List Byte) : List Byte :=
  ((sha2 sha256Kind ((primes80.take 8).map (sqrtFrac 32)) bs).map (beBytes 4)).flatten

/-- SHA-384 of a byte string, 48 bytes (FIPS 180-4): its initial words come from the ninth to the sixteenth primes. -/
def sha384 (bs : List Byte) : List Byte :=
  (((sha2 sha512Kind (((primes80.drop 8).take 8).map (sqrtFrac 64)) bs).take 6).map (beBytes 8)).flatten

end Sys2Proof.Machine
end

