-- ==== Sys2Proof/Machine/Screen.lean ====
section
/-!
DEFINITION. Machine/Screen.lean: Screen tables, their decisions, builds, swaps and updates (file 12 of the spec).
-/
namespace Sys2Proof.Machine

/-! ### Generations (R401, R407, R411, R414) -/

/-- The kinds of table (R396). -/
def TableKind.rules : Nat := 0
def TableKind.exact : Nat := 1
def TableKind.near : Nat := 2

/-- The key of table `n` of tenant `t`, and of an epoch's partition of it by stream. -/
def tableKey (t n : Nat) : Nat := t * 1024 + n

/-- An empty generation. -/
def Gen.empty (num capacity dfltAction bandLog maxHamming : Nat) : Gen :=
  { num := num, capacity := capacity, dfltAction := dfltAction, bandLog := bandLog, maxHamming := maxHamming, rules := [], exact := [], near := [],
    bands := [], fresh := 0, freed := [] }

/-- VALID entries of a dedup generation. -/
def Gen.count (g : Gen) : Nat := g.exact.length + g.near.length

/-- An entry of an image or an update. -/
def EntryOwner.ofBase : EntryOwner := { base := true, stream := 0, epoch := 0, pos := 0, dead := false }

/-- A run entry. -/
def EntryOwner.run (stream epoch pos : Nat) : EntryOwner := { base := false, stream := stream, epoch := epoch, pos := pos, dead := false }

/-- Whether an entry is in the scope of a sample (R408). -/
def EntryOwner.sees (o : EntryOwner) (stream epoch : Nat) : Bool := o.base || (!o.dead && o.stream == stream && o.epoch == epoch)

/-- The two candidate buckets of a key (R407). -/
def exactBuckets (capacity : Nat) (key : List Byte) : Nat × Nat :=
  let nb := capacity / 4
  let b1 := leAt key 0 4 % nb
  let b2 := leAt key 4 4 % nb
  (b1, if b2 = b1 then (b1 + 1) % nb else b2)

/-- VALID entries of a bucket. -/
def Gen.bucketLoad (g : Gen) (b : Nat) : Nat := g.exact.countP (fun e => e.bucket == b)

/-- A key inserted into an exact generation; none when it finds no room (R411). -/
def Gen.insertExact (g : Gen) (key : List Byte) (o : EntryOwner) : Option Gen :=
  let (b1, b2) := exactBuckets g.capacity key
  let n1 := g.bucketLoad b1
  let n2 := g.bucketLoad b2
  let b := if n2 < n1 then b2 else b1
  if g.capacity ≤ g.count || 8 ≤ min n1 n2 then none
  else some { g with exact := g.exact ++ [{ bucket := b, key := key, owner := o }] }

/-- Whether an entry matches a content hash (R408). -/
def Gen.hasExact (g : Gen) (key : List Byte) (p : EntryOwner → Bool) : Bool := g.exact.any (fun e => e.key == key && p e.owner)

/-- BANDS. -/
def Gen.bandCount (g : Gen) : Nat := 2 ^ g.bandLog

/-- The value of band `b` of a signature (R415). -/
def bandValue (bands : Nat) (sig : List Byte) (b : Nat) : Nat := bitField (leNat sig) (b * (256 / bands)) (256 / bands)

/-- The bucket of a band value (R415): the band tables hold 2 × BANDS × CAPACITY entries in buckets of 16. -/
def Gen.bandBucket (g : Gen) (b v : Nat) : Nat := (v * 0x9E3779B1 + b * 0x85EBCA77) % 2 ^ 32 % (2 * g.bandCount * g.capacity / 16)

/-- The first record of the free list (R414). -/
def Gen.takeRecord (g : Gen) : Option (Nat × Gen) :=
  if g.fresh < g.capacity then some (g.fresh, { g with fresh := g.fresh + 1 })
  else match g.freed with
    | [] => none
    | i :: r => some (i, { g with freed := r })

/-- One band entry inserted, or left out when its bucket is full: the generation, and how many were left out (R416). -/
def Gen.insertBand (r : Nat) (sig : List Byte) (acc : Gen × Nat) (b : Nat) : Gen × Nat :=
  let (g, skipped) := acc
  let v := bandValue g.bandCount sig b
  let bk := g.bandBucket b v
  if 16 ≤ g.bands.countP (fun e => e.bucket == bk) then (g, skipped + 1)
  else ({ g with bands := g.bands ++ [{ bucket := bk, band := b, value := v, record := r }] }, skipped)

/-- A signature inserted: none when no record is free; the second part counts the band entries left out (R416). -/
def Gen.insertNear (g : Gen) (sig : List Byte) (o : EntryOwner) : Option (Gen × Nat) :=
  if g.capacity ≤ g.count then none
  else match g.takeRecord with
    | none => none
    | some (r, g) =>
      let g := { g with near := g.near ++ [{ index := r, sig := sig, owner := o }] }
      some ((List.range g.bandCount).foldl (Gen.insertBand r sig) (g, 0))

/-- The records that band entries of the signature name, in scope (R416). -/
def Gen.candidates (g : Gen) (sig : List Byte) (p : EntryOwner → Bool) : List NearRec :=
  let n := g.bandCount
  g.near.filter (fun r => p r.owner && g.bands.any (fun e => e.record == r.index && decide (e.band < n) && e.value == bandValue n sig e.band))

/-- Bits in which two signatures differ. -/
def hamming (a b : List Byte) : Nat := popCount256 (leNat a ^^^ leNat b)
where
  /-- Bits set of a 256-bit number. -/
  popCount256 (x : Nat) : Nat := (List.range 256).countP (bitOf x)

/-- Every entry for which `p` holds removed; freed records join the free list (R413, R414). -/
def Gen.remove (g : Gen) (pe : ExactEntry → Bool) (pn : NearRec → Bool) : Gen :=
  let gone := (g.near.filter pn).map NearRec.index
  { g with
    exact := g.exact.filter (fun e => !pe e)
    near := g.near.filter (fun e => !pn e)
    bands := g.bands.filter (fun e => !gone.contains e.record)
    freed := g.freed ++ gone }

/-- The run entries of a stream's epoch marked as over (R413). -/
def Gen.endEpoch (g : Gen) (stream epoch : Nat) : Gen :=
  let f := fun (o : EntryOwner) => if !o.base && o.stream == stream && o.epoch == epoch then { o with dead := true } else o
  { g with exact := g.exact.map (fun e => { e with owner := f e.owner }), near := g.near.map (fun e => { e with owner := f e.owner }) }

/-! ### Rules (R401 to R403) -/

/-- Whether a rule entry is valid (Table 12-1). -/
def ruleOk (b : List Byte) : Bool :=
  let kind := leAt b 0 1
  let keyLen := leAt b 3 1
  decide (kind ≤ 5) && decide (leAt b 1 1 ≤ 1) && decide (leAt b 2 1 ≤ 1) && allZero (bytesAt b 56 8) &&
  (if kind = 4 || kind = 5 then decide (1 ≤ keyLen && keyLen ≤ 32) else keyLen == 0) &&
  (kind == 2 || leAt b 6 2 == 0) && (kind == 1 || kind == 2 || (leAt b 8 8 == 0 && leAt b 16 8 == 0)) &&
  allZero (if kind = 3 then bytesAt b 40 16 else if kind = 4 || kind = 5 then bytesAt b (24 + keyLen) (32 - keyLen) else bytesAt b 24 32)

/-- Whether a rule entry counts towards the limit of R401. -/
def ruleCounts (b : List Byte) : Bool := leAt b 0 1 != 0 && leAt b 0 1 != 3

/-- Entries of a rule generation that count towards the limit of R401. -/
def Gen.ruleLoad (g : Gen) : Nat := g.rules.countP (fun p => ruleCounts p.2)

/-- A rule entry written at an index; an EMPTY one leaves no entry. -/
def Gen.setRule (g : Gen) (i : Nat) (b : List Byte) : Gen :=
  { g with rules := if leAt b 0 1 = 0 then AMap.del g.rules i else AMap.set g.rules i b }

/-- Whether `key` occurs in `bs` as a contiguous run. -/
def occursIn (key : List Byte) : List Byte → Bool
  | [] => key.isEmpty
  | b :: r => key.isPrefixOf (b :: r) || occursIn key r

/-- The content hash (R400). -/
def contentHash (bs : List Byte) : List Byte := (sha256 bs).take 16

/-- What a rule sees of a sample: its dataset id (0xFFFE for a live-ingest frame), its index, its content and the content hash. -/
structure RuleView where
  dataset : Nat
  index : Nat
  content : List Byte
  hash : List Byte

/-- Whether a rule entry matches (R402). -/
def ruleMatches (v : RuleView) (b : List Byte) : Bool :=
  let kind := leAt b 0 1
  let lo := leAt b 8 8
  let hi := leAt b 16 8
  let key := bytesAt b 24 (leAt b 3 1)
  let holds :=
    if kind = 1 then decide (lo ≤ v.content.length && v.content.length ≤ hi)
    else if kind = 2 then v.dataset == leAt b 6 2 && decide (lo ≤ v.index && v.index ≤ hi)
    else if kind = 3 then v.hash == bytesAt b 24 16
    else if kind = 4 then key.isPrefixOf v.content
    else occursIn key v.content
  kind != 0 && (if bitOf (leAt b 2 1) 0 then !holds else holds)

/-- Whether the rules of a generation drop a sample (R403): the greatest PRIORITY decides, then the lowest index. -/
def Gen.drops (g : Gen) (v : RuleView) : Bool :=
  match argMax (fun (p : Nat × List Byte) => leAt p.2 4 2) (g.rules.filter (fun p => ruleMatches v p.2)) with
  | some p => leAt p.2 1 1 == 1
  | none => g.dfltAction == 1

/-! ### Tables of the device -/

/-- Table `n` of tenant `t`. -/
def Dev.table? (d : Dev) (t n : Nat) : Option ScrTable := AMap.get? d.screen.tables (tableKey t n)

/-- The device with a table changed, where it exists. -/
def Dev.modTable (d : Dev) (k : Nat) (f : ScrTable → ScrTable) : Dev :=
  { d with screen := { d.screen with tables := AMap.mod d.screen.tables k f } }

/-- The current generation of a table, while it exists. -/
def Dev.currentGen (d : Dev) (k : Nat) : Option Gen := (AMap.get? d.screen.tables k).bind ScrTable.current

/-- A generation of a table by number. -/
def ScrTable.gen? (x : ScrTable) (n : Nat) : Option Gen :=
  match x.current with
  | some g => if g.num = n then some g else x.retired.find? (fun g => g.num == n)
  | none => x.retired.find? (fun g => g.num == n)

/-- A change made to the generation of a table with number `n`. -/
def ScrTable.modGen (x : ScrTable) (n : Nat) (f : Gen → Gen) : ScrTable :=
  { x with
    current := x.current.map (fun g => if g.num = n then f g else g)
    retired := x.retired.map (fun g => if g.num = n then f g else g) }

/-- Whether a stream has generation `n` of table `k` pinned. -/
def Dev.isPinned (d : Dev) (k n : Nat) : Bool := d.streams.any (fun p => p.2.pins.contains (k, n))

/-- The owner number of a generation's pages. -/
def genOwner (k n : Nat) : Nat := k * 2 ^ 32 + n

/-- The owner number of a partition's pages. -/
def partKey (sid table : Nat) : Nat := sid * 1024 + table

/-- Bytes of a dedup generation (R407, R417). -/
def genBytes (kind capacity bandLog : Nat) : Nat := if kind = 1 then 64 * capacity else 64 * capacity + 32 * 2 ^ bandLog * capacity

/-- Pages of a generation in each in-service region (R417). -/
def Dev.genPages (d : Dev) (kind capacity bandLog : Nat) : Nat :=
  if kind = 0 then 2 else ceilDiv (genBytes kind capacity bandLog) (d.regionsIn.length * 2097152)

/-- Whether every in-service region has `n` free pages. -/
def Dev.pagesEverywhere (d : Dev) (n : Nat) : Bool := d.regionsIn.all (fun r => decide (n ≤ d.pagesFree r))

/-- `n` pages of every in-service region taken for an owner. -/
def Dev.takeEverywhere (d : Dev) (kind owner n : Nat) : Dev := d.regionsIn.foldl (fun d r => d.takePages kind owner r n) d

/-! ### Decisions -/

/-- DEDUP_FULL, and the event of the first failure on a table in a tick (R411, R427). -/
def Dev.dedupFull (d : Dev) (t n valid : Nat) : Dev :=
  let d := d.count Counter.dedupFull t 1
  match d.table? t n with
  | none => d
  | some x =>
    if x.fullPosted then d
    else (d.modTable (tableKey t n) (fun x => { x with fullPosted := true })).event t EventCode.dedupTableFull 0 [(20, 2, n), (24, 8, valid)]

/-- Where a lookup reads and writes: the base generation, and the partition of an Exact-mode epoch (R398, R412). -/
structure Lookup where
  tenant : Nat
  table : Nat
  stream : Nat
  epoch : Nat
  pos : Nat
  exactMode : Bool

/-- The generation that a sample of an epoch reads: the pinned one in Exact mode and in recorded form, else the current one (R398, R580). -/
def Dev.lookupGen (d : Dev) (l : Lookup) : Option Gen :=
  let k := tableKey l.tenant l.table
  match AMap.get? d.screen.tables k with
  | none => none
  | some x =>
    match ((AMap.get? d.streams l.stream).map Stream.pins).bind (fun ps => ps.find? (fun p => p.1 == k)) with
    | some p => x.gen? p.2
    | none => x.current

/-- The outcome of a Screen op on a sample: it passes with marks, or is screened out (R405, R406). -/
inductive ScreenVerdict where
  | pass (marks : Nat)
  | screened
  deriving DecidableEq, Repr

/-- What ACTION does with a repeat (R406, R408). -/
def repeatVerdict (action bit : Nat) : ScreenVerdict := if action = 1 then .pass bit else .screened

/-- A run insertion of an Open-mode stream, into the current generation and into one being built (R419). -/
def Dev.runInsert (d : Dev) (k : Nat) (ins : Gen → Option Gen) : Option Dev :=
  match d.currentGen k with
  | none => none
  | some g => match ins g with
    | none => none
    | some g' => some (d.modTable k (fun x =>
        { x with current := some g', build := x.build.map (fun b => if b.built then { b with gen := (ins b.gen).getD b.gen } else b) }))

/-- An insertion for a lookup: into the epoch's partition in Exact mode, else into the table (R412, R419). -/
def Dev.lookupInsert (d : Dev) (l : Lookup) (ins : Gen → Option Gen) : Dev :=
  let k := tableKey l.tenant l.table
  if l.exactMode then
    match AMap.get? d.screen.parts (partKey l.stream l.table) with
    | none => d
    | some g => match ins g with
      | some g' => { d with screen := { d.screen with parts := AMap.set d.screen.parts (partKey l.stream l.table) g' } }
      | none => d.dedupFull l.tenant l.table g.count
  else
    let pin := ((AMap.get? d.streams l.stream).map Stream.pins).bind (fun ps => ps.find? (fun p => p.1 == k))
    let isCurrent : Bool := match pin with | some p => (d.currentGen k).any (fun g => g.num == p.2) | none => true
    if isCurrent then
      match d.runInsert k ins with
      | some d => d
      | none => d.dedupFull l.tenant l.table (((d.currentGen k).map Gen.count).getD 0)
    else match d.lookupGen l with
      | none => d
      | some g => match ins g with
        | some g' => d.modTable k (fun x => x.modGen g.num (fun _ => g'))
        | none => d.dedupFull l.tenant l.table g.count

/-- The scope of the base generation: in Exact mode only its BASE entries are read (R412). -/
def Lookup.scope (l : Lookup) (o : EntryOwner) : Bool := if l.exactMode then o.base else o.sees l.stream l.epoch

/-- DEDUP_EXACT on a sample (R408 to R412). -/
def Dev.dedupExact (d : Dev) (l : Lookup) (action : Nat) (content : List Byte) : ScreenVerdict × Dev :=
  let key := contentHash content
  let part := AMap.get? d.screen.parts (partKey l.stream l.table)
  let hit := ((d.lookupGen l).map (fun g => g.hasExact key l.scope)).getD false ||
    (l.exactMode && (part.map (fun g => g.hasExact key (fun o => o.sees l.stream l.epoch))).getD false)
  if hit then (repeatVerdict action 1, d.count Counter.dupExact l.tenant 1)
  else (.pass 0, d.lookupInsert l (fun g => g.insertExact key (.run l.stream l.epoch l.pos)))

/-- DEDUP_NEAR on a sample (R416). -/
def Dev.dedupNear (d : Dev) (l : Lookup) (action : Nat) (sig : List Byte) : ScreenVerdict × Dev :=
  let g := d.lookupGen l
  let part := if l.exactMode then AMap.get? d.screen.parts (partKey l.stream l.table) else none
  let cs := ((g.map (fun g => g.candidates sig l.scope)).getD []) ++ ((part.map (fun g => g.candidates sig (fun o => o.sees l.stream l.epoch))).getD [])
  let ordered := sortByKey (fun r => r.owner.pos) (sortByKey NearRec.index cs)
  let d := if 32 < cs.length then d.count Counter.nearCandidateCap l.tenant 1 else d
  let most := ((g.orElse (fun _ => part)).map Gen.maxHamming).getD 0
  if (ordered.take 32).any (fun r => decide (hamming r.sig sig ≤ most)) then (repeatVerdict action 2, d.count Counter.dupNear l.tenant 1)
  else
    let o := EntryOwner.run l.stream l.epoch l.pos
    let into := if l.exactMode then part else g
    let skipped := ((into.bind (fun g => g.insertNear sig o)).map Prod.snd).getD 0
    (.pass 0, (d.lookupInsert l (fun g => (g.insertNear sig o).map Prod.fst)).count Counter.bandSkip l.tenant skipped)

/-- SCREEN_RULES on a sample (R403). -/
def Dev.screenRules (d : Dev) (l : Lookup) (v : RuleView) : ScreenVerdict × Dev :=
  match d.lookupGen l with
  | none => (.pass 0, d)
  | some g => if g.drops v then (.screened, d.count Counter.ruleDrop l.tenant 1) else (.pass 0, d)

/-- Whether SCREEN_GATE keeps a score, both as binary32 patterns (R404). -/
def gateKeeps (threshold sense score : Nat) : Bool :=
  match fmt32.decode score with
  | .nan => false
  | .inf neg => if sense = 0 then !neg else neg
  | .fin n m =>
    let s := (FV.fin n m).toRat
    let t := (fmt32.decode threshold).toRat
    if sense = 0 then decide (t ≤ s) else decide (s < t)

/-- SCREEN_GATE on a score (R404). -/
def Dev.screenGate (d : Dev) (tenant threshold sense score : Nat) : ScreenVerdict × Dev :=
  if gateKeeps threshold sense score then (.pass 0, d) else (.screened, d.count Counter.gateDrop tenant 1)

/-! ### Tables that programs name (R200, R399) -/

/-- The tables that an op names: its TABLE, of a Screen op that reads one. -/
def OpRec.table? (o : OpRec) : Option (Nat × Nat) :=
  if o.opcode = 0x0501 then some (leAt o.params 0 2, TableKind.rules)
  else if o.opcode = 0x0503 then some (leAt o.params 0 2, TableKind.exact)
  else if o.opcode = 0x0504 then some (leAt o.params 0 2, TableKind.near)
  else none

/-- The tables that a program names, each once, with its kind. -/
def Prog.tables (p : Prog) : List (Nat × Nat) := (p.ops.filterMap OpRec.table?).eraseDups

/-- Whether a LOADING or LOADED program of tenant `t` names table `n` (R200). -/
def Dev.tableHeld (d : Dev) (t n : Nat) : Bool :=
  d.progs.any (fun p => p.2.tenant == t && p.2.state != .unloading && p.2.tables.any (fun q => q.1 == n)) ||
  d.streams.any (fun p => p.2.pins.any (fun q => q.1 == tableKey t n))

/-! ### Pins and partitions (R398, R412, R413) -/

/-- The largest CAPACITY of a kind (Table 12-4). -/
def capacityMax (kind bandLog : Nat) : Nat := if kind = 1 then 2147483648 else min 268435456 (2 ^ 31 / 2 ^ bandLog)

/-- CAPACITY of the partition of an epoch of `size` samples (R412). -/
def partCapacity (kind size : Nat) : Nat := if kind = 1 then 4 * ceilDiv size 4 else size

/-- The dedup tables among a program's tables. -/
def Prog.dedupTables (p : Prog) : List (Nat × Nat) := p.tables.filter (fun q => q.2 != TableKind.rules)

/-- BAND_LOG of a table's current generation. -/
def Dev.bandLogOf (d : Dev) (t n : Nat) : Nat := ((d.currentGen (tableKey t n)).map Gen.bandLog).getD 0

/-- Pages per region of the partitions of an Exact-mode epoch (R412). -/
def Dev.partPages (d : Dev) (t : Nat) (p : Prog) (size : Nat) : Nat :=
  sumNat (p.dedupTables.map (fun q => d.genPages q.2 (partCapacity q.2 size) (d.bandLogOf t q.1)))

/-- What refuses the partitions of an Exact-mode epoch (R412). -/
def Dev.partRefusal (d : Dev) (t : Nat) (p : Prog) (size : Nat) : Option Status :=
  if p.dedupTables.any (fun q => decide (capacityMax q.2 (d.bandLogOf t q.1) < partCapacity q.2 size)) then some Status.dedupNoRoom
  else needs (d.pagesEverywhere (d.partPages t p size)) Status.noStockpile

/-- The partitions of an Exact-mode epoch made, with their pages (R412). -/
def Dev.makeParts (d : Dev) (sid t : Nat) (p : Prog) (size : Nat) : Dev :=
  p.dedupTables.foldl (fun d q =>
    let bl := d.bandLogOf t q.1
    let mh := ((d.currentGen (tableKey t q.1)).map Gen.maxHamming).getD 0
    let cap := partCapacity q.2 size
    let d := { d with screen := { d.screen with parts := AMap.set d.screen.parts (partKey sid q.1) (Gen.empty 0 cap 0 bl mh) } }
    d.takeEverywhere PageKind.shadow (partKey sid q.1) (d.genPages q.2 cap bl)) d

/-- The partitions of a stream freed (R412). -/
def Dev.dropParts (d : Dev) (sid : Nat) : Dev :=
  { d with
    screen := { d.screen with parts := d.screen.parts.filter (fun p => p.1 / 1024 != sid) }
    tongs := { d.tongs with pages := d.tongs.pages.filter (fun p => !(p.kind == PageKind.shadow && p.owner / 1024 == sid)) } }

/-- The pins of an epoch that begins: every table its program names, at its current generation in Exact mode (R398). -/
def Dev.pinsFor (d : Dev) (t : Nat) (p : Prog) (exact : Bool) : List (Nat × Nat) :=
  if exact then p.tables.filterMap (fun q => (d.currentGen (tableKey t q.1)).map (fun g => (tableKey t q.1, g.num))) else []

/-- A generation of every state of a table changed by `f`. -/
def ScrTable.everyGen (x : ScrTable) (f : Gen → Gen) : ScrTable :=
  { x with current := x.current.map f, retired := x.retired.map f, build := x.build.map (fun b => { b with gen := f b.gen }) }

/-- The Screen's part in the end of a stream's epoch, or in the stop of its stream: pins and partitions go, and an Open-mode epoch's run entries are due a sweep (R398, R412, R413). -/
def Dev.screenEpochEnd (d : Dev) (sid : Nat) (st : Stream) : Dev :=
  let d := d.dropParts sid
  let d := { d with streams := AMap.mod d.streams sid (fun s => { s with pins := [] }) }
  if st.mode then d
  else
    let names := ((AMap.get? d.progs st.slot).map Prog.dedupTables).getD []
    names.foldl (fun d q =>
      let k := tableKey st.tenant q.1
      match AMap.get? d.screen.tables k with
      | none => d
      | some x =>
        let gens := (x.current.toList ++ x.retired).filter (fun g =>
          g.exact.any (fun e => !e.owner.base && e.owner.stream == sid && e.owner.epoch == st.epoch) ||
          g.near.any (fun e => !e.owner.base && e.owner.stream == sid && e.owner.epoch == st.epoch))
        let d := d.modTable k (fun x => x.everyGen (fun g => g.endEpoch sid st.epoch))
        { d with screen := { d.screen with sweeps := d.screen.sweeps ++ gens.map (fun g => { table := k, gen := g.num, stream := sid, epoch := st.epoch }) } }) d

/-- A generation without the lines of the buckets for which `p` holds; a near record goes with its line, and the band entries that name it with it. -/
def Gen.dropLines (g : Gen) (p : Nat → Bool) : Gen :=
  let gone := (g.near.filter (fun e => p e.index)).map NearRec.index
  { g with
    exact := g.exact.filter (fun e => !p e.bucket), near := g.near.filter (fun e => !p e.index)
    bands := g.bands.filter (fun e => !p e.bucket && !gone.contains e.record), freed := g.freed ++ gone }

/-- The lines of the buckets for which `p` holds that hold entries in the current generation. -/
def ScrTable.linesIn (x : ScrTable) (p : Nat → Bool) : Nat :=
  match x.current with
  | none => 0
  | some g => (((g.exact.map ExactEntry.bucket ++ g.near.map NearRec.index ++ g.bands.map BandEntry.bucket).filter p).eraseDups).length

/-- The sweep of one generation frees the run entries of epochs that are over (R413). -/
def Dev.sweepDone (d : Dev) (k n : Nat) : Dev :=
  match d.screen.sweeps.find? (fun s => s.table == k && s.gen == n) with
  | none => d
  | some w =>
    let mine := fun (o : EntryOwner) => !o.base && o.dead && o.stream == w.stream && o.epoch == w.epoch
    let f := fun (g : Gen) => g.remove (fun e => mine e.owner) (fun e => mine e.owner)
    let d := d.modTable k (fun x =>
      let x := x.modGen n f
      { x with build := x.build.map (fun b => if b.built then { b with gen := f b.gen } else b) })
    { d with screen := { d.screen with sweeps := d.screen.sweeps.erase w } }

/-- DEDUP_SWEEP_DONE (R413): `slot` is the table's key, tenant × 1,024 + TABLE. -/
def execDedupSweepDone (slot gen : Nat) (s : State) : Out := s.onRunning (fun d => d.sweepDone slot gen)

/-- A retired generation freed, once no stream has it pinned (R422). -/
def Dev.retireGen (d : Dev) (k n : Nat) : Dev :=
  match AMap.get? d.screen.tables k with
  | none => d
  | some x =>
    if x.retired.any (fun g => g.num == n) && !d.isPinned k n then
      let d := d.modTable k (fun x => { x with retired := x.retired.filter (fun g => g.num != n) })
      let d := { d with screen := { d.screen with sweeps := d.screen.sweeps.filter (fun s => !(s.table == k && s.gen == n)) } }
      d.freePages PageKind.screen (genOwner k n)
    else d

/-- GENERATION_RETIRE (R422): `slot` is the table's key, tenant × 1,024 + TABLE. -/
def execGenerationRetire (slot gen : Nat) (s : State) : Out := s.onRunning (fun d => d.retireGen slot gen)

/-! ### SCREEN_TABLE_LOAD (R417 to R421) -/

/-- Fields of SCREEN_TABLE_LOAD (Table 12-4). -/
structure TableLoad where
  table : Nat
  kind : Nat
  delete : Bool
  tenant : Nat
  bandLog : Nat
  hamming : Nat
  capacity : Nat
  action : Nat
  count : Nat

/-- The fields of a request. -/
def tableLoad (x : Ctx) : TableLoad :=
  { table := x.get 0 2, kind := x.get 2 1, delete := bitOf (x.get 3 1) 0, tenant := bitField (x.get 4 2) 0 10, bandLog := x.get 6 1, hamming := x.get 7 1,
    capacity := x.get 8 4, action := x.get 12 1, count := x.get 16 4 }

/-- APPLIED (Table 12-4). -/
def TableLoad.applied (l : TableLoad) : Nat :=
  if l.kind = 0 then 65536 else clampParam l.capacity 65536 (capacityMax l.kind l.bandLog) 65536

/-- Bytes of an image entry. -/
def imageEntry (kind : Nat) : Nat := if kind = 0 then 64 else if kind = 1 then 16 else 32

/-- The number of the generation that a load builds: one above the one it replaces (R397). -/
def Dev.nextGen (d : Dev) (k : Nat) : Nat := ((d.currentGen k).map Gen.num).getD 0 + 1

/-- Tables of a tenant that exist or are being built. -/
def Dev.tablesOf (d : Dev) (t : Nat) : List (Nat × ScrTable) := d.screen.tables.filter (fun p => p.1 / 1024 == t)

/-- Whether the tenant may hold the table that a load names (R396, R418). -/
def Dev.tableRefusal (d : Dev) (l : TableLoad) : Option Status :=
  let k := tableKey l.tenant l.table
  let x := AMap.get? d.screen.tables k
  let pages := d.genPages l.kind l.applied l.bandLog
  firstFail [
    needs ((x.bind ScrTable.build).isNone) Status.operationBusy,
    needs ((x.map (fun x => x.current.isNone || x.kind == l.kind)).getD true) Status.tableKindMismatch,
    needs (l.delete || x.isSome || decide ((d.tablesOf l.tenant).length < 32)) Status.tableLimit,
    needs ((x.map (fun x => x.retired.isEmpty)).getD true) Status.generationLimit,
    needs (!l.delete || (d.currentGen k).isSome) Status.noSuchTable,
    needs (!l.delete || !d.tableHeld l.tenant l.table) Status.tableHeld,
    needs (l.delete || d.pagesEverywhere pages) Status.noStockpile]

/-- SCREEN_TABLE_LOAD accepted (R417, R419): a build begins, or the table is deleted. -/
def Dev.startBuild (d : Dev) (l : TableLoad) (w n : Nat) : Dev × List Byte :=
  let k := tableKey l.tenant l.table
  let g := Gen.empty (d.nextGen k) l.applied l.action l.bandLog l.hamming
  let pages := if l.delete then 0 else d.genPages l.kind l.applied l.bandLog
  let d := if l.delete then d else d.takeEverywhere PageKind.screen (genOwner k g.num) pages
  let b : Build := { gen := g, ticket := (w, n), built := false, delete := l.delete, updates := [] }
  let x := (AMap.get? d.screen.tables k).getD { kind := l.kind, current := none, build := none, retired := [], updates := [], fullPosted := false }
  let x := { x with kind := l.kind, build := some b }
  let resp := if l.delete then zeros 16 else leBytes 4 l.applied ++ leBytes 4 (pages * d.regionsIn.length) ++ leBytes 4 g.num ++ zeros 4
  ({ d with screen := { d.screen with tables := AMap.set d.screen.tables k x } }, resp)

/-- SCREEN_TABLE_LOAD (R417, R418). -/
def cmdScreenTableLoad : Cmd :=
  { opcode := 0x0304
    ticketed := true
    check := fun d x =>
      let l := tableLoad x
      let near := l.kind == 2
      { lenOk := x.r.len == 24
        sgl := !l.delete && l.count != 0
        rsvOk := bitField (x.get 0 2) 10 6 == 0 && bitField (x.get 3 1) 1 7 == 0 && bitField (x.get 4 2) 10 6 == 0 && x.rsv 13 3 && x.rsv 20 4
        field := needs (decide (l.kind ≤ 2) &&
          (if l.delete then x.rsv 6 7 && l.count == 0
           else (if near then decide (3 ≤ l.bandLog && l.bandLog ≤ 6) else l.bandLog == 0 && l.hamming == 0) &&
             (if l.kind = 0 then decide (l.action ≤ 1) else l.action == 0) && decide (l.count ≤ l.applied))) Status.fieldInvalid
        object := d.tenantObject x l.tenant
        sglOk := l.delete || decide (l.count * imageEntry l.kind ≤ sglBytes x.r.sgl)
        state := d.ownerEnabled l.tenant
        own := d.tableRefusal l
        subject := tableKey l.tenant l.table }
    run := fun d x n =>
      let (d, p) := d.startBuild (tableLoad x) x.w n
      { dev := d, payload := p } }

/-- SCREEN_TABLE_LOAD (R417). -/
def execScreenTableLoad (w : Window) (r : Request) (s : State) : Out := s.onDoorbell cmdScreenTableLoad w r

/-- The status that an image of rules ends with, if it is bad (R418). -/
def rulesBad (l : List (List Byte)) : Bool := !l.all ruleOk || decide (4096 < l.countP ruleCounts)

/-- An add of an update or of an image to a generation: none when it finds no room (R424). -/
def Gen.addEntry (g : Gen) (kind : Nat) (e : List Byte) : Option Gen :=
  if kind = 0 then
    let g' := g.setRule (leAt e 0 4) (bytesAt e 8 64)
    if g'.ruleLoad ≤ 4096 then some g' else none
  else if kind = 1 then (if g.hasExact e EntryOwner.base then some g else g.insertExact e .ofBase)
  else if g.near.any (fun r => r.owner.base && r.sig == e) then some g else (g.insertNear e .ofBase).map Prod.fst

/-- A remove of an update. -/
def Gen.removeEntry (g : Gen) (kind : Nat) (e : List Byte) : Gen :=
  if kind = 0 then g.setRule (leAt e 0 4) (zeros 64)
  else if kind = 1 then g.remove (fun x => x.owner.base && x.key == e) (fun _ => false)
  else g.remove (fun _ => false) (fun x => x.owner.base && x.sig == e)

/-- An update applied; an add that finds no room changes nothing. -/
def Gen.applyUpdate (kind : Nat) (g : Gen) (u : Nat × List Byte) : Gen :=
  if u.1 = 0 then (g.addEntry kind u.2).getD g else g.removeEntry kind u.2

/-- The image's entries written in order: none when one finds no room. -/
def Gen.writeImage (kind : Nat) (g : Gen) : List (List Byte) → Option Gen
  | [] => some g
  | e :: r => match g.addEntry kind e with
    | none => none
    | some g => Gen.writeImage kind g r

/-- The run entries that a build copies: those of the current epochs of Open-mode streams (R419). -/
def Dev.copies (d : Dev) (o : EntryOwner) : Bool :=
  !o.base && !o.dead && (match AMap.get? d.streams o.stream with
    | some st => !st.mode && st.epoch == o.epoch
    | none => false)

/-- The run entries of a generation copied into another: none when one finds no room (R418, R419). -/
def Dev.copyRun (d : Dev) (src : Gen) (g : Gen) : Option Gen :=
  let step1 := (src.exact.filter (fun e => d.copies e.owner)).foldl (fun (o : Option Gen) e => o.bind (fun g => g.insertExact e.key e.owner)) (some g)
  (src.near.filter (fun e => d.copies e.owner)).foldl (fun (o : Option Gen) e => o.bind (fun g => (g.insertNear e.sig e.owner).map Prod.fst)) step1

/-- The entries of an image, rules with their index as an update holds them. -/
def imageEntries (kind count : Nat) (data : List Byte) : List (List Byte) :=
  (List.range count).map (fun i =>
    let e := bytesAt data (i * imageEntry kind) (imageEntry kind)
    if kind = 0 then leBytes 4 i ++ zeros 4 ++ e else e)

/-- A build that ended without success: its pages go, and the table when it has no generation (R418). -/
def Dev.dropBuild (d : Dev) (k : Nat) (b : Build) : Dev :=
  let d := d.freePages PageKind.screen (genOwner k b.gen.num)
  let d := d.modTable k (fun x => { x with build := none })
  { d with screen := { d.screen with tables := d.screen.tables.filter (fun p => !(p.1 == k && p.2.current.isNone)) } }

/-- A build ended with a status (R418). -/
def Dev.failBuild (d : Dev) (k : Nat) (b : Build) (s : Status) : Dev := (d.dropBuild k b).completeTicket b.ticket.1 b.ticket.2 s 0

/-- The build behind a ticket of SCREEN_TABLE_LOAD. -/
def Dev.buildOf (d : Dev) (w n : Nat) : Option (Nat × ScrTable × Build) :=
  d.screen.tables.findSome? (fun p => match p.2.build with
    | some b => if b.ticket = (w, n) then some (p.1, p.2, b) else none
    | none => none)

/-- The build of a table ends: the image is checked and written, and the swap is due at the next boundary (R418, R419, R421); a deletion completes. -/
def Dev.buildDone (d : Dev) (w n : Nat) : Dev :=
  match d.buildOf w n, d.ticketOf w n 0x0304 with
  | some (k, x, b), some t =>
    if b.built then d
    else if b.delete then
      let gens := x.current.toList ++ x.retired
      let d := gens.foldl (fun d g => d.freePages PageKind.screen (genOwner k g.num)) d
      let d := { d with screen := { d.screen with tables := AMap.del d.screen.tables k, sweeps := d.screen.sweeps.filter (fun s => s.table != k) } }
      d.completeTicket w n Status.success 0
    else
      let es := imageEntries x.kind (leAt t.req 16 4) t.data
      if x.kind = 0 && rulesBad (es.map (fun e => bytesAt e 8 64)) then d.failBuild k b Status.tableImageBad
      else
        let upd := fun (g : Gen) => b.updates.foldl (Gen.applyUpdate x.kind) g
        let built := (b.gen.writeImage x.kind es).bind (fun g => match x.current with
          | none => some g
          | some c => d.copyRun c g)
        match built with
        | none => d.failBuild k b Status.tableFull
        | some g => d.modTable k (fun x => { x with build := some { b with gen := upd g, built := true, updates := [] } })
  | _, _ => d

/-- SCREEN_BUILD_DONE (R418, R419). -/
def execScreenBuildDone (w : Window) (ticket : Nat) (s : State) : Out := s.onRunning (fun d => d.buildDone w.num ticket)

/-- Builds that run ended by the fence of a region (R418). -/
def Dev.interruptBuilds (d : Dev) : Dev :=
  d.screen.tables.foldl (fun d p => match p.2.build with
    | some b => if b.built || b.delete then d else d.failBuild p.1 b Status.buildInterrupted
    | none => d) d

/-- What a boundary does with a table: the updates due, then the swap of a build that has completed (R420, R421). -/
def Dev.tableBoundary (d : Dev) (k : Nat) : Dev :=
  match AMap.get? d.screen.tables k with
  | none => d
  | some x =>
    let us := x.updates
    let apply := fun (g : Gen) => us.foldl (Gen.applyUpdate x.kind) g
    let x : ScrTable := { x with
      current := x.current.map apply, updates := [], fullPosted := false
      build := x.build.map (fun b => if b.built then { b with gen := apply b.gen } else { b with updates := b.updates ++ us }) }
    match x.build with
    | some b =>
      if b.built then
        let x : ScrTable := { x with current := some b.gen, build := none, retired := x.retired ++ x.current.toList }
        (d.modTable k (fun _ => x)).completeTicket b.ticket.1 b.ticket.2 Status.success 0
      else d.modTable k (fun _ => x)
    | none => d.modTable k (fun _ => x)

/-- Updates and swaps of every table at a boundary. -/
def Dev.screenBoundary (d : Dev) : Dev := (d.screen.tables.map Prod.fst).foldl Dev.tableBoundary d

/-! ### SCREEN_TABLE_UPDATE (R420, R424) -/

/-- Bytes of an entry of SCREEN_TABLE_UPDATE. -/
def updateEntry (kind : Nat) : Nat := if kind = 0 then 72 else if kind = 1 then 16 else 32

/-- The most entries of SCREEN_TABLE_UPDATE. -/
def updateMax (kind : Nat) : Nat := if kind = 0 then 27 else if kind = 1 then 122 else 61

/-- The kind of the table that a request names, while it exists. -/
def Dev.updateKind (d : Dev) (x : Ctx) : Option Nat :=
  let k := tableKey (bitField (x.get 4 2) 0 10) (bitField (x.get 0 2) 0 10)
  ((AMap.get? d.screen.tables k).filter (fun t => t.current.isSome)).map ScrTable.kind

/-- The entries of a request. -/
def updateEntries (x : Ctx) (kind : Nat) : List (List Byte) :=
  (List.range (x.get 3 1)).map (fun i => x.raw (8 + i * updateEntry kind) (updateEntry kind))

/-- Whether an add finds room, after the updates that wait (R424). -/
def Dev.updateRoom (d : Dev) (k kind : Nat) (us : List (Nat × List Byte)) : Bool :=
  match AMap.get? d.screen.tables k with
  | none => false
  | some t => match t.current with
    | none => false
    | some g =>
      let g := t.updates.foldl (Gen.applyUpdate kind) g
      (us.foldl (fun (o : Option Gen) u => o.bind (fun g => if u.1 = 0 then g.addEntry kind u.2 else some (g.removeEntry kind u.2))) (some g)).isSome

/-- SCREEN_TABLE_UPDATE (R420, R424). -/
def cmdScreenTableUpdate : Cmd :=
  { opcode := 0x0305
    check := fun d x =>
      let t := bitField (x.get 4 2) 0 10
      let k := tableKey t (bitField (x.get 0 2) 0 10)
      let op := x.get 2 1
      let n := x.get 3 1
      let kinds := match d.updateKind x with
        | some kd => [kd]
        | none => [0, 1, 2]
      let kind := kinds.headD 0
      let es := updateEntries x kind
      { lenOk := kinds.any (fun kd => x.r.len == 8 + n * updateEntry kd)
        rsvOk := bitField (x.get 0 2) 10 6 == 0 && bitField (x.get 4 2) 10 6 == 0 && x.rsv 6 2 && (kind != 0 || es.all (fun e => leAt e 4 4 == 0))
        field := needs (decide (op ≤ 1) && kinds.any (fun kd => decide (1 ≤ n && n ≤ updateMax kd)) &&
          (kind != 0 || (d.updateKind x).isNone || es.all (fun e => decide (leAt e 0 4 ≤ 65535) &&
            (if op = 0 then ruleOk (bytesAt e 8 64) else allZero (bytesAt e 8 64))))) Status.fieldInvalid
        object := d.tenantObject x t
        state := d.ownerEnabled t
        own := firstFail [
          needs (d.updateKind x).isSome Status.noSuchTable,
          needs (!((d.currentGen k).map (fun g => d.isPinned k g.num)).getD false) Status.tableExactInUse,
          needs (op == 1 || d.updateRoom k kind (es.map (fun e => (op, e)))) Status.tableFull] }
    run := fun d x _ =>
      let t := bitField (x.get 4 2) 0 10
      let k := tableKey t (bitField (x.get 0 2) 0 10)
      let es := (updateEntries x ((d.updateKind x).getD 0)).map (fun e => (x.get 2 1, e))
      { dev := d.modTable k (fun y => { y with updates := y.updates ++ es }), payload := leBytes 8 (d.tick.count + 1) } }

/-- SCREEN_TABLE_UPDATE (R424). -/
def execScreenTableUpdate (w : Window) (r : Request) (s : State) : Out := s.onDoorbell cmdScreenTableUpdate w r

end Sys2Proof.Machine
end

