-- ==== Sys2Proof/Machine/Wedge.lean ====
section
/-!
DEFINITION. Machine/Wedge.lean: vocabularies, tokenisation and the audit path (file 13 of the spec).
-/
namespace Sys2Proof.Machine

/-! ### UTF-8 (R442) -/

/-- A character of a text: its scalar value, or none for a byte kept as it is, and its bytes. -/
structure WChar where
  cp : Option Nat
  bytes : List Byte
  deriving DecidableEq, Repr

/-- The range of byte `i` after a lead byte (Unicode table 3-7), none beyond the sequence. -/
def contRange (lead i : Nat) : Option (Nat × Nat) :=
  let n := if 0xC2 ≤ lead ∧ lead ≤ 0xDF then 1 else if 0xE0 ≤ lead ∧ lead ≤ 0xEF then 2 else if 0xF0 ≤ lead ∧ lead ≤ 0xF4 then 3 else 0
  if i < 1 ∨ n < i then none
  else if i = 1 then
    some (if lead = 0xE0 then 0xA0 else if lead = 0xF0 then 0x90 else 0x80, if lead = 0xED then 0x9F else if lead = 0xF4 then 0x8F else 0xBF)
  else some (0x80, 0xBF)

/-- Bytes of the sequence that a lead byte begins. -/
def leadLen (lead : Nat) : Nat :=
  if lead < 0x80 then 1 else if 0xC2 ≤ lead ∧ lead ≤ 0xDF then 2 else if 0xE0 ≤ lead ∧ lead ≤ 0xEF then 3 else if 0xF0 ≤ lead ∧ lead ≤ 0xF4 then 4 else 0

/-- How many of the bytes that follow a lead byte continue it. -/
def contLen (lead i : Nat) : List Byte → Nat
  | [] => 0
  | b :: r => match contRange lead i with
    | none => 0
    | some (lo, hi) => if lo ≤ b.toNat ∧ b.toNat ≤ hi then 1 + contLen lead (i + 1) r else 0

/-- The first unit of a byte string: its length, and whether it is a well-formed character; an ill-formed one is a maximal subpart. -/
def utf8Unit (bs : List Byte) : Nat × Bool :=
  match bs with
  | [] => (0, true)
  | b :: r =>
    let lead := b.toNat
    let n := leadLen lead
    if n = 0 then (1, false)
    else
      let k := contLen lead 1 (r.take (n - 1))
      (1 + k, 1 + k == n)

/-- The scalar value of a well-formed sequence. -/
def utf8Value (bs : List Byte) : Nat :=
  match bs with
  | [] => 0
  | b :: r =>
    let n := leadLen b.toNat
    let head := if n = 1 then b.toNat else if n = 2 then b.toNat % 32 else if n = 3 then b.toNat % 16 else b.toNat % 8
    r.foldl (fun v c => v * 64 + c.toNat % 64) head

/-- A well-formed character. -/
def WChar.ofCp (c : Nat) : WChar := { cp := some c, bytes := utf8Enc c }

/-- The text under the UTF-8 policy, and how many maximal ill-formed subparts it had (R442). -/
def utf8Policy (fuel policy : Nat) (bs : List Byte) : List WChar × Nat :=
  match fuel, bs with
  | 0, _ => ([], 0)
  | _, [] => ([], 0)
  | f + 1, bs =>
    let (n, ok) := utf8Unit bs
    let part := bs.take n
    let (r, k) := utf8Policy f policy (bs.drop n)
    if ok then ({ cp := some (utf8Value part), bytes := part } :: r, k)
    else if policy = 0 then (WChar.ofCp 0xFFFD :: r, k + 1)
    else (part.map (fun b => { cp := none, bytes := [b] }) ++ r, k + 1)

/-! ### The vocabulary image (R438, R439) -/

/-- A vocabulary image as an array of bytes, with its header's fields (Table 13-3). -/
structure VocabImg where
  a : Array Byte
  presplit : Nat
  policy : Nat
  ids : Nat
  merges : Nat
  specials : Nat
  maxPiece : Nat
  bos : Nat
  eos : Nat
  unicode : Nat
  forms : Nat
  byteOff : Nat
  mergeOff : Nat
  idOff : Nat
  poolOff : Nat
  poolLen : Nat
  specialOff : Nat
  normOff : Nat
  normLen : Nat
  imageLen : Nat

/-- The fields of an image. -/
def vocabImg (bs : List Byte) : VocabImg :=
  let a := bs.toArray
  { a := a, presplit := inAt a 6, policy := inAt a 7, ids := inLe a 8 4, merges := inLe a 12 4, specials := inLe a 16 2, maxPiece := inLe a 18 2,
    bos := inLe a 20 4, eos := inLe a 24 4, unicode := inLe a 28 4, forms := inAt a 32, byteOff := inLe a 40 8, mergeOff := inLe a 48 8,
    idOff := inLe a 56 8, poolOff := inLe a 64 8, poolLen := inLe a 72 4, specialOff := inLe a 80 8, normOff := inLe a 88 8, normLen := inLe a 96 4,
    imageLen := inLe a 104 8 }

/-- No special. -/
def noId : Nat := 0xFFFFFFFF

/-- The id of byte value `v`. -/
def VocabImg.byteId (v : VocabImg) (b : Nat) : Nat := inLe v.a (v.byteOff + 4 * b) 4

/-- LEFT, RIGHT and RESULT of a merge. -/
def VocabImg.merge (v : VocabImg) (i : Nat) : Nat × Nat × Nat :=
  (inLe v.a (v.mergeOff + 12 * i) 4, inLe v.a (v.mergeOff + 12 * i + 4) 4, inLe v.a (v.mergeOff + 12 * i + 8) 4)

/-- LEN of an id. -/
def VocabImg.idLen (v : VocabImg) (i : Nat) : Nat := inAt v.a (v.idOff + 8 * i + 4)

/-- POOL_OFF of an id. -/
def VocabImg.idPool (v : VocabImg) (i : Nat) : Nat := inLe v.a (v.idOff + 8 * i) 4

/-- The string of an id. -/
def VocabImg.idBytes (v : VocabImg) (i : Nat) : List Byte := if i < v.ids then inBytes v.a (v.poolOff + v.idPool i) (v.idLen i) else []

/-- The id of special `k`. -/
def VocabImg.specialId (v : VocabImg) (k : Nat) : Nat := inLe v.a (v.specialOff + 8 * k) 4

/-- MATCH_IN_TEXT of special `k`. -/
def VocabImg.specialMatch (v : VocabImg) (k : Nat) : Bool := bitOf (inAt v.a (v.specialOff + 8 * k + 4)) 0

/-- The indices of the specials. -/
def VocabImg.specialList (v : VocabImg) : List Nat := List.range v.specials

/-- The normalisation tables (R439), as lists. -/
structure NormTables where
  ccc : List (Nat × Nat × Nat)
  decomp : List (Nat × Bool × List Nat)
  comp : List (Nat × Nat × Nat)

/-- Code point of 3 bytes at `o`. -/
def cp3 (a : Array Byte) (o : Nat) : Nat := inLe a o 3

/-- Counts of the normalisation section (Table 13-4). -/
def VocabImg.normCounts (v : VocabImg) : Nat × Nat × Nat × Nat :=
  (inLe v.a v.normOff 4, inLe v.a (v.normOff + 4) 4, inLe v.a (v.normOff + 8) 4, inLe v.a (v.normOff + 12) 4)

/-- Offsets of the four parts of the normalisation section. -/
def VocabImg.normOffsets (v : VocabImg) : Nat × Nat × Nat × Nat :=
  let (c, d, m, _) := v.normCounts
  let o := v.normOff + 32
  (o, o + 8 * c, o + 8 * c + 8 * d, o + 8 * c + 8 * d + 12 * m)

/-- The normalisation tables of an image. -/
def VocabImg.norm (v : VocabImg) : NormTables :=
  let (nc, nd, nm, _) := v.normCounts
  let (oc, od, om, op) := v.normOffsets
  { ccc := (List.range nc).map (fun i => (cp3 v.a (oc + 8 * i), cp3 v.a (oc + 8 * i + 3), inAt v.a (oc + 8 * i + 6)))
    decomp := (List.range nd).map (fun i =>
      let o := od + 8 * i
      let first := inLe v.a (o + 4) 4
      (cp3 v.a o, bitOf (inAt v.a (o + 3)) 7, (List.range (inAt v.a (o + 3) % 32)).map (fun k => inLe v.a (op + 4 * (first + k)) 4)))
    comp := (List.range nm).map (fun i => let o := om + 12 * i; (inLe v.a o 4, inLe v.a (o + 4) 4, inLe v.a (o + 8) 4)) }

/-! ### Checks (Table 13-5) -/

/-- Whether sections of an image lie within it, apart from one another. -/
def spansOk (len : Nat) : List (Nat × Nat) → Bool
  | [] => true
  | (o, n) :: r => decide (o + n ≤ len) && r.all (fun p => decide (n = 0) || decide (p.2 = 0) || decide (o + n ≤ p.1) || decide (p.1 + p.2 ≤ o)) && spansOk len r

/-- The header row. -/
def VocabImg.headerOk (v : VocabImg) (len : Nat) : Bool :=
  inLe v.a 0 4 == 0x434F5642 && inAt v.a 5 == 1 && decide (v.presplit ≤ 1) && decide (v.policy ≤ 1) && decide (256 ≤ v.ids && v.ids ≤ 1048576) &&
  decide (v.merges ≤ v.ids - 256) && decide (v.specials ≤ 256) && decide (16 ≤ v.maxPiece && v.maxPiece ≤ 4096) && decide (v.unicode < 2 ^ 24) &&
  decide (v.forms ≤ 3) && (v.forms != 0 || (v.unicode == 0 && v.normOff == 0)) && inLe v.a 33 7 == 0 && decide (v.poolLen ≤ 268435456) &&
  inLe v.a 76 4 == 0 && decide (v.normLen ≤ 16777216) && inLe v.a 100 4 == 0 && inLe v.a 112 16 == 0 && v.imageLen == len &&
  [v.byteOff, v.mergeOff, v.idOff, v.poolOff, v.specialOff, v.normOff].all (fun o => o % 64 == 0) &&
  spansOk len [(0, 128), (v.byteOff, 1024), (v.mergeOff, 12 * v.merges), (v.idOff, 8 * v.ids), (v.poolOff, v.poolLen),
    (v.specialOff, 8 * v.specials), (v.normOff, v.normLen)]

/-- The ids of the byte table. -/
def VocabImg.byteIds (v : VocabImg) : List Nat := (List.range 256).map v.byteId

/-- Whether the elements of a list are distinct. -/
def distinct : List Nat → Bool
  | [] => true
  | x :: r => !r.contains x && distinct r

/-- The byte table row. -/
def VocabImg.bytesOk (v : VocabImg) : Bool :=
  distinct v.byteIds && (List.range 256).all (fun b => decide (v.byteId b < v.ids) && v.idBytes (v.byteId b) == [byteOf b])

/-- The merges row. -/
def VocabImg.mergesOk (v : VocabImg) : Bool :=
  let specials := v.specialList.map v.specialId
  (List.range v.merges).all (fun i =>
    let (l, r, x) := v.merge i
    let before := (List.range i).map v.merge
    let known := fun id => v.byteIds.contains id || before.any (fun m => m.2.2 == id)
    known l && known r && decide (x < v.ids) && !v.byteIds.contains x && !before.any (fun m => m.2.2 == x) && !specials.contains x &&
    v.idBytes x == v.idBytes l ++ v.idBytes r && !before.any (fun m => m.1 == l && m.2.1 == r))

/-- The ids row. -/
def VocabImg.idsOk (v : VocabImg) : Bool :=
  let specials := v.specialList.map v.specialId
  let results := (List.range v.merges).map (fun i => (v.merge i).2.2)
  (List.range v.ids).all (fun i =>
    inLe v.a (v.idOff + 8 * i + 5) 3 == 0 && decide (v.idPool i + v.idLen i ≤ v.poolLen) &&
    (v.idLen i == 0 || v.byteIds.contains i || results.contains i || specials.contains i))

/-- The specials row. -/
def VocabImg.specialsOk (v : VocabImg) : Bool :=
  let l := v.specialList.map v.specialId
  distinct l && v.specialList.all (fun k => decide (v.specialId k < v.ids) && decide (inAt v.a (v.specialOff + 8 * k + 4) ≤ 1) &&
    inLe v.a (v.specialOff + 8 * k + 5) 3 == 0 && (!v.specialMatch k || decide (1 ≤ v.idLen (v.specialId k)))) &&
  (v.bos == noId || l.contains v.bos) && (v.eos == noId || l.contains v.eos)

/-- Whether a code point may stand in a table. -/
def cpOk (c : Nat) : Bool := decide (c ≤ 0x10FFFF) && !(decide (0xD800 ≤ c && c ≤ 0xDFFF))

/-- Whether a list of numbers rises strictly. -/
def rises : List Nat → Bool
  | [] => true
  | [_] => true
  | a :: b :: r => decide (a < b) && rises (b :: r)

/-- Whether ranges rise without overlap. -/
def rangesRise : List (Nat × Nat × Nat) → Bool
  | [] => true
  | [p] => decide (p.1 ≤ p.2.1)
  | p :: q :: r => decide (p.1 ≤ p.2.1) && decide (p.2.1 < q.1) && rangesRise (q :: r)

/-- The normalisation row. -/
def VocabImg.normOk (v : VocabImg) : Bool :=
  v.forms == 0 ||
  (let (nc, nd, nm, np) := v.normCounts
   let (oc, od, _, op) := v.normOffsets
   let t := v.norm
   decide (32 ≤ v.normLen) && 32 + 8 * nc + 8 * nd + 12 * nm + 4 * np == v.normLen && inLe v.a (v.normOff + 16) 16 == 0 &&
   (List.range nc).all (fun i => inAt v.a (oc + 8 * i + 7) == 0) &&
   (List.range nd).all (fun i =>
     let k := inAt v.a (od + 8 * i + 3)
     bitField k 5 2 == 0 && decide (1 ≤ k % 32 && k % 32 ≤ 18) && decide (inLe v.a (od + 8 * i + 4) 4 + k % 32 ≤ np)) &&
   rangesRise t.ccc && t.ccc.all (fun p => cpOk p.1 && cpOk p.2.1) && rises (t.decomp.map Prod.fst) && t.decomp.all (fun p => cpOk p.1) &&
   rises (t.comp.map (fun p => p.1 * 2 ^ 32 + p.2.1)) && t.comp.all (fun p => cpOk p.1 && cpOk p.2.1 && cpOk p.2.2) &&
   (List.range np).all (fun i => cpOk (inLe v.a (op + 4 * i) 4)))

/-- The checks of Table 13-5. -/
def vocabOk (bs : List Byte) : Bool :=
  let v := vocabImg bs
  v.headerOk bs.length && v.bytesOk && v.mergesOk && v.idsOk && v.specialsOk && v.normOk

/-! ### Normalisation (R444) -/

/-- The canonical combining class of a character. -/
def NormTables.cc (t : NormTables) (c : WChar) : Nat :=
  match c.cp with
  | none => 0
  | some x => ((t.ccc.find? (fun p => decide (p.1 ≤ x) && decide (x ≤ p.2.1))).map (fun p => p.2.2)).getD 0

/-- The Hangul decomposition of a syllable (Unicode chapter 3). -/
def hangulParts (x : Nat) : Option (List Nat) :=
  if 0xAC00 ≤ x ∧ x < 0xAC00 + 11172 then
    let s := x - 0xAC00
    let t := s % 28
    some ([0x1100 + s / 588, 0x1161 + s % 588 / 28] ++ (if t = 0 then [] else [0x11A7 + t]))
  else none

/-- The full decomposition of a code point; `compat` takes the compatibility ones too. -/
def NormTables.parts (t : NormTables) (compat : Bool) (fuel x : Nat) : List Nat :=
  match fuel with
  | 0 => [x]
  | f + 1 => match hangulParts x with
    | some l => l
    | none => match t.decomp.find? (fun p => p.1 == x) with
      | some (_, k, l) => if k && !compat then [x] else l.flatMap (fun y => if y = x then [y] else t.parts compat f y)
      | none => [x]

/-- A character decomposed. -/
def NormTables.decompose (t : NormTables) (compat : Bool) (c : WChar) : List WChar :=
  match c.cp with
  | none => [c]
  | some x => (t.parts compat 4 x).map WChar.ofCp

/-- U+034F inserted after every 30 consecutive non-starters, by the process of UAX #15; `n` counts the non-starters before (R444). -/
def streamSafe (t : NormTables) (n : Nat) : List WChar → List WChar × Nat
  | [] => ([], 0)
  | c :: r =>
    let ds := t.decompose true c
    let lead := (ds.takeWhile (fun d => t.cc d != 0)).length
    let trail := (ds.reverse.takeWhile (fun d => t.cc d != 0)).length
    let all := lead == ds.length
    let cut := decide (30 < n + lead)
    let n' := if all then (if cut then 0 else n) + lead else trail
    let (o, k) := streamSafe t n' r
    if cut then (WChar.ofCp 0x034F :: c :: o, k + 1) else (c :: o, k)

/-- The canonical order: within each run of non-starters, a stable sort by class; `run` holds the run so far. -/
def canonOrder (t : NormTables) (run : List WChar) : List WChar → List WChar
  | [] => sortByKey t.cc run
  | c :: r => if t.cc c = 0 then sortByKey t.cc run ++ c :: canonOrder t [] r else canonOrder t (run ++ [c]) r

/-- The composite of a pair, by the Hangul algorithm or the table. -/
def NormTables.compose (t : NormTables) (a b : Nat) : Option Nat :=
  if 0x1100 ≤ a ∧ a < 0x1100 + 19 ∧ 0x1161 ≤ b ∧ b < 0x1161 + 21 then some (0xAC00 + ((a - 0x1100) * 21 + (b - 0x1161)) * 28)
  else if 0xAC00 ≤ a ∧ a < 0xAC00 + 11172 ∧ (a - 0xAC00) % 28 = 0 ∧ 0x11A7 < b ∧ b < 0x11A7 + 28 then some (a + (b - 0x11A7))
  else (t.comp.find? (fun p => p.1 == a && p.2.1 == b)).map (fun p => p.2.2)

/-- Canonical composition: `starter` and the characters after it, newest first, are still open (UAX #15). -/
def composeFrom (t : NormTables) (starter : Option WChar) (after : List WChar) : List WChar → List WChar
  | [] => starter.toList ++ after.reverse
  | c :: r =>
    let k := t.cc c
    let blocked := match after with
      | [] => false
      | p :: _ => decide (k ≤ t.cc p)
    let made := match starter.bind WChar.cp, c.cp with
      | some a, some b => if blocked then none else t.compose a b
      | _, _ => none
    match made with
    | some x => composeFrom t (some (WChar.ofCp x)) after r
    | none =>
      if k = 0 then (starter.toList ++ after.reverse) ++ composeFrom t (some c) [] r
      else composeFrom t starter (c :: after) r

/-- A segment normalised: NORM 1 gives NFC, 2 gives NFKC; the second part counts the insertions of U+034F (R444). -/
def normalise (t : NormTables) (form : Nat) (cs : List WChar) : List WChar × Nat :=
  let (s, k) := streamSafe t 0 cs
  (composeFrom t none [] (canonOrder t [] (s.flatMap (t.decompose (form == 2)))), k)

/-! ### From text to tokens (R441 to R447) -/

/-- The bytes of a text. -/
def wBytes (cs : List WChar) : List Byte := cs.flatMap WChar.bytes

/-- A text without its first `n` bytes; a character divided by the cut leaves its bytes as they are. -/
def dropBytes (n : Nat) : List WChar → List WChar
  | [] => []
  | c :: r =>
    if n = 0 then c :: r
    else if c.bytes.length ≤ n then dropBytes (n - c.bytes.length) r
    else (c.bytes.drop n).map (fun b => { cp := none, bytes := [b] }) ++ r

/-- The special that matches at the start of a text: the longest, then the lowest index (R443). -/
def VocabImg.matchSpecial (v : VocabImg) (bs : List Byte) : Option Nat :=
  argMax (fun k => v.idLen (v.specialId k)) (v.specialList.filter (fun k => v.specialMatch k && (v.idBytes (v.specialId k)).isPrefixOf bs))

/-- A part of a text: a segment, or a special token. -/
inductive TextPart where
  | seg (cs : List WChar)
  | special (id : Nat)

/-- A text divided into segments and special tokens; `cur` holds the segment so far (R443). -/
def VocabImg.segments (v : VocabImg) (fuel : Nat) (cur : List WChar) (cs : List WChar) : List TextPart :=
  let flush := if cur.isEmpty then [] else [TextPart.seg cur]
  match fuel, cs with
  | 0, _ => flush
  | _, [] => flush
  | f + 1, c :: r => match v.matchSpecial (wBytes (c :: r)) with
    | some k =>
      let id := v.specialId k
      flush ++ .special id :: v.segments f [] (dropBytes (v.idLen id) (c :: r))
    | none => v.segments f (cur ++ [c]) r

/-- A segment pre-split into pieces; `cur` holds the piece so far, `prev` the character before (R445). -/
def preSplit (mode : Nat) (prev : Option Nat) (cur : List WChar) : List WChar → List (List WChar)
  | [] => if cur.isEmpty then [] else [cur]
  | c :: r =>
    let starts := mode == 1 && ((c.cp == some 0x20 && prev != some 0x20) || c.cp == some 0x0A || prev == some 0x0A)
    let here := c.cp.orElse (fun _ => some (2 ^ 32))
    if starts && !cur.isEmpty then cur :: preSplit mode here [c] r else preSplit mode here (cur ++ [c]) r

/-- The characters that fit in `n` bytes, and the rest. -/
def fitBytes (n : Nat) : List WChar → List WChar × List WChar
  | [] => ([], [])
  | c :: r => if n < c.bytes.length then ([], c :: r) else let (a, b) := fitBytes (n - c.bytes.length) r; (c :: a, b)

/-- A piece cut at MAX_PIECE (R445). -/
def cutPiece (fuel most : Nat) (p : List WChar) : List (List WChar) :=
  match fuel with
  | 0 => [p]
  | f + 1 =>
    if (wBytes p).length ≤ most then [p]
    else
      let (a, b) := fitBytes most p
      if a.isEmpty then [p] else a :: cutPiece f most b

/-- The rank and result of a pair, the lowest rank that merges it. -/
def VocabImg.rank (v : VocabImg) (a b : Nat) : Option (Nat × Nat) :=
  (List.range v.merges).findSome? (fun i => let (l, r, x) := v.merge i; if l = a ∧ r = b then some (i, x) else none)

/-- The leftmost lowest-ranked pair of a list of ids: its place, its rank and its result. -/
def VocabImg.bestPair (v : VocabImg) (ids : List Nat) : Option (Nat × Nat × Nat) :=
  argMin (fun p => p.2.1) ((List.range (ids.length - 1)).filterMap (fun i => (v.rank (ids.getD i 0) (ids.getD (i + 1) 0)).map (fun p => (i, p.1, p.2))))

/-- The merging procedure of R446. -/
def VocabImg.mergeIds (v : VocabImg) (fuel : Nat) (ids : List Nat) : List Nat :=
  match fuel with
  | 0 => ids
  | f + 1 => match v.bestPair ids with
    | none => ids
    | some (i, _, x) => v.mergeIds f (ids.take i ++ x :: ids.drop (i + 2))

/-- The ids of a segment (R445, R446). -/
def VocabImg.segmentIds (v : VocabImg) (cs : List WChar) : List Nat :=
  let pieces := (preSplit v.presplit none [] cs).flatMap (fun p => cutPiece (wBytes p).length v.maxPiece p)
  pieces.flatMap (fun p => let bs := wBytes p; v.mergeIds bs.length (bs.map (fun b => v.byteId b.toNat)))

/-- What a tokenise op gives: its ids, its tokenised text, and what it counts. -/
structure Tokens where
  ids : List Nat
  text : List Byte
  invalid : Nat
  cgj : Nat

/-- The parts of a text turned into ids and tokenised text (R441). -/
def VocabImg.emitParts (v : VocabImg) (norm : Nat) : List TextPart → Tokens
  | [] => { ids := [], text := [], invalid := 0, cgj := 0 }
  | p :: r =>
    let t := v.emitParts norm r
    match p with
    | .special id => { t with ids := id :: t.ids, text := v.idBytes id ++ t.text }
    | .seg cs =>
      let (cs, k) := if norm = 0 then (cs, 0) else normalise v.norm norm cs
      { t with ids := v.segmentIds cs ++ t.ids, text := wBytes cs ++ t.text, cgj := t.cgj + k }

/-- The tokens of TOKENISE_VOCAB (R441). -/
def VocabImg.tokens (v : VocabImg) (norm : Nat) (bs : List Byte) : Tokens :=
  let (cs, bad) := utf8Policy (bs.length + 1) v.policy bs
  let t := v.emitParts norm (v.segments (bs.length + 1) [] cs)
  { t with
    ids := (if v.bos = noId then [] else [v.bos]) ++ t.ids ++ (if v.eos = noId then [] else [v.eos])
    invalid := bad }

/-- A token record (Table 13-1). -/
def tokenRecord (width vocab flags count textLen check : Nat) : List Byte :=
  leBytes 1 width ++ leBytes 1 vocab ++ leBytes 1 flags ++ zeros 1 ++ leBytes 4 count ++ leBytes 4 textLen ++ leBytes 4 check

/-- The output of a Wedge op: ids of `width` bytes, with their token record (R431). -/
def tokenValue (width vocab flags : Nat) (ids : List Nat) (textLen check : Nat) : Value :=
  let data := ids.flatMap (leBytes width)
  { shape := Shape.flatBytes data.length, data := data, token := some (tokenRecord width vocab flags ids.length textLen check) }

/-- What a Wedge op counts for its tenant (Table 13-8), by counter. -/
abbrev WedgeCounts := List (Nat × Nat)

/-- The output held to OUT_MAX (R430). -/
def wedgeOut (opcode outMax : Nat) (input : List Byte) (v : Value) : Dec Value :=
  if outMax < v.data.length then corrupt Reason.outMaxExceeded (Config.failOffset opcode input) else .ok v

/-- OUT_WIDTH in bytes. -/
def outWidth (p : Nat) : Nat := if p = 0 then 2 else 4

/-- TOKENISE_BYTES (R448). -/
def tokeniseBytes (width outMax : Nat) (bs : List Byte) : Dec Value × WedgeCounts :=
  let o := wedgeOut 0x0601 outMax bs (tokenValue width 0xFF 0 (bs.map (fun b => b.toNat)) bs.length (crc32c bs))
  (o, if o.isOk then [(Counter.wedgeTokens, bs.length)] else [])

/-- TOKENISE_VOCAB (R441 to R447). -/
def tokeniseVocab (image : List Byte) (slot norm width outMax : Nat) (bs : List Byte) : Dec Value × WedgeCounts :=
  let t := (vocabImg image).tokens norm bs
  let o := wedgeOut 0x0602 outMax bs (tokenValue width slot 0 t.ids t.text.length (crc32c t.text))
  (o, [(Counter.utf8Invalid, t.invalid), (Counter.normCgj, t.cgj)] ++ (if o.isOk then [(Counter.wedgeTokens, t.ids.length)] else []))

/-! ### The audit path (R449 to R452) -/

/-- A record of a stop list: its string and its ACTION. -/
structure StopRec where
  str : List Byte
  action : Nat

/-- The records of a stop list, none when they do not fill it as R449 says. -/
def parseStops (fuel : Nat) (b : List Byte) : Option (List StopRec) :=
  match fuel with
  | 0 => none
  | f + 1 =>
    if b.isEmpty then some []
    else
      let n := leAt b 0 1
      let size := 4 + roundUp n 4
      if decide (1 ≤ n && n ≤ 64) && decide (leAt b 1 1 ≤ 2) && leAt b 2 2 == 0 && decide (size ≤ b.length) && allZero (bytesAt b (4 + n) (size - 4 - n)) then
        (parseStops f (b.drop size)).map (fun r => { str := bytesAt b 4 n, action := leAt b 1 1 } :: r)
      else none

/-- The stop list of a DETOK_AUDIT op, none when it breaks R449. -/
def stopList (params consts : List Byte) : Option (List StopRec) :=
  let off := leAt params 0 4
  let len := leAt params 4 2
  if off % 4 ≠ 0 ∨ consts.length < off + len then none
  else (parseStops 257 (bytesAt consts off len)).filter (fun l => !l.isEmpty && decide (l.length ≤ 256))

/-- A byte that decoding adds: its value, and the index of the id that added it. -/
structure HeldByte where
  byte : Byte
  id : Nat

/-- A byte released: its value, the id that added it, and the id after which it is released. -/
structure RelByte where
  byte : Byte
  id : Nat
  rel : Nat

/-- Bytes of a holding buffer that can be released: whole characters, and maximal subparts that the bytes held show to be ill-formed (R450). -/
def releasable (fuel : Nat) (bs : List Byte) : Nat :=
  match fuel with
  | 0 => 0
  | f + 1 => match bs with
    | [] => 0
    | _ =>
      let (n, ok) := utf8Unit bs
      if ok || decide (n < bs.length) || leadLen ((bs.headD 0).toNat) == 0 then n + releasable f (bs.drop n) else 0

/-- The bytes that an id adds (R450). -/
def detokBytes (img : Option VocabImg) (id : Nat) : List Byte :=
  match img with
  | none => [byteOf id]
  | some v =>
    if id = v.bos ∨ id = v.eos ∨ v.specialList.any (fun k => v.specialId k == id && !v.specialMatch k) then [] else v.idBytes id

/-- The ids decoded in order: what is released, and what is still held. -/
def releaseAll (img : Option VocabImg) (i : Nat) (buf : List HeldByte) : List Nat → List RelByte × List HeldByte
  | [] => ([], buf)
  | id :: r =>
    let buf := buf ++ (detokBytes img id).map (fun b => { byte := b, id := i })
    let n := releasable (buf.length + 1) (buf.map HeldByte.byte)
    let out := (buf.take n).map (fun h => ({ byte := h.byte, id := h.id, rel := i } : RelByte))
    let (o, h) := releaseAll img (i + 1) (buf.drop n) r
    (out ++ o, h)

/-- A match of a stop string: its record, and the places of its first and last bytes. -/
structure StopMatch where
  action : Nat
  first : Nat
  last : Nat

/-- The first match found: the one whose last byte lies earliest, then the longest, then the lowest record (R451). -/
def firstStop (stops : List StopRec) (bs : List Byte) : Option StopMatch :=
  (List.range bs.length).findSome? (fun e =>
    let here := stops.filter (fun s => decide (s.str.length ≤ e + 1) && bytesAt bs (e + 1 - s.str.length) s.str.length == s.str)
    (argMax (fun s => s.str.length) here).map (fun s => { action := s.action, first := e + 1 - s.str.length, last := e }))

/-- The ids of a token output. -/
def valueIds (v : Value) : Nat × List Nat :=
  let w := leAt (v.token.getD []) 0 1
  let w := if w = 0 then 2 else w
  (w, (List.range (v.data.length / w)).map (fun i => leAt v.data (w * i) w))

/-- DETOK_AUDIT (R450 to R452). -/
def detokAudit (img : Option VocabImg) (stops : List StopRec) (outMax : Nat) (v : Value) : Dec Value × WedgeCounts :=
  let tr := v.token.getD []
  let (w, ids) := valueIds v
  let (rel, held) := releaseAll img 0 [] ids
  let all := rel ++ held.map (fun h => ({ byte := h.byte, id := h.id, rel := ids.length - 1 } : RelByte))
  let bytes := all.map RelByte.byte
  let tail := !held.isEmpty
  let mismatch := bytes.length != leAt tr 8 4 || crc32c bytes != leAt tr 12 4
  let hit := firstStop stops bytes
  let eos := match img with
    | some i => if i.eos = noId then [] else [i.eos]
    | none => []
  let bos := match img with
    | some i => i.bos != noId && ids.head? == some i.bos
    | none => false
  let (kept, flags) := match hit with
    | none => (ids, 0)
    | some m =>
      if m.action = 2 then (ids, 2)
      else
        let n := if m.action = 0 then ((all[m.first]?).map RelByte.id).getD 0 else ((all[m.last]?).map (fun b => b.rel + 1)).getD 0
        (ids.take (if bos then max 1 n else n) ++ eos, 1)
  let flags := leAt tr 2 1 ||| flags ||| 16 ||| (if tail then 8 else 0) ||| (if mismatch then 4 else 0)
  let o := wedgeOut 0x0603 outMax v.data (tokenValue w (leAt tr 1 1) flags kept (leAt tr 8 4) (leAt tr 12 4))
  (o, [(Counter.stopHit, bitNat hit.isSome), (Counter.auditMismatch, bitNat mismatch), (Counter.incompleteTail, bitNat tail)])

/-! ### VOCAB_LOAD (R432 to R436) -/

/-- The bytes that a vocabulary slot holds or is loading, for the limit of R432. -/
def Vocab.bytes (v : Vocab) : Nat :=
  match v.load with
  | some (_, _, some b) => b.length
  | _ => (v.image.map List.length).getD 0

/-- RESIDENT_BYTES of every slot but `s`. -/
def Dev.vocabBytes (d : Dev) (s : Nat) : Nat := sumNat ((d.vocabs.filter (fun p => p.1 != s)).map (fun p => p.2.bytes))

/-- The vocabulary slots that an op names. -/
def OpRec.vocab? (o : OpRec) : Option Nat := if o.opcode = 0x0602 then some (leAt o.params 0 1) else none

/-- Whether a LOADING or LOADED program names a slot (R200). -/
def Dev.vocabHeld (d : Dev) (s : Nat) : Bool :=
  d.progs.any (fun p => p.2.state != .unloading && p.2.ops.any (fun o => o.vocab? == some s))

/-- The owner number of the pages of a slot: its resident image, or the one that loads. -/
def vocabOwner (s : Nat) (loading : Bool) : Nat := 2 * s + bitNat loading

/-- VOCAB_LOAD (R434, R435). -/
def cmdVocabLoad : Cmd :=
  { opcode := 0x0303
    ticketed := true
    check := fun d x =>
      let s := bitField (x.get 0 1) 0 4
      let del := bitOf (x.get 1 1) 0
      let t := bitField (x.get 2 2) 0 10
      let n := x.get 8 8
      { lenOk := x.r.len == 16
        sgl := !del
        rsvOk := bitField (x.get 0 1) 4 4 == 0 && bitField (x.get 1 1) 1 7 == 0 && bitField (x.get 2 2) 10 6 == 0 && x.rsv 4 4
        field := needs (if del then n == 0 else decide (256 ≤ n && n ≤ 536870912)) Status.fieldInvalid
        object := d.tenantObject x t
        sglOk := del || decide (n ≤ sglBytes x.r.sgl)
        state := d.ownerEnabled t
        own := firstFail [
          needs (((AMap.get? d.vocabs s).bind Vocab.load).isNone) Status.operationBusy,
          needs (((AMap.get? d.vocabs s).map (fun v => v.tenant == t)).getD true) Status.vocabSlotOwned,
          needs (!del || AMap.has d.vocabs s) Status.vocabEmpty,
          needs (!d.vocabHeld s) Status.vocabHeld,
          needs (del || decide (d.vocabBytes s + n ≤ 536870912)) Status.vocabSpace,
          needs (del || d.pagesEverywhere (pagesFor n)) Status.noStockpile]
        subject := s }
    run := fun d x n =>
      let s := bitField (x.get 0 1) 0 4
      let del := bitOf (x.get 1 1) 0
      let t := bitField (x.get 2 2) 0 10
      let len := x.get 8 8
      let old := (AMap.get? d.vocabs s).bind Vocab.image
      let v : Vocab := { tenant := t, image := old, load := some (x.w, n, if del then none else some (bytesAt x.r.data 0 len)) }
      let d := if del then d else d.takeEverywhere PageKind.vocab (vocabOwner s true) (pagesFor len)
      { dev := { d with vocabs := AMap.set d.vocabs s v },
        payload := leBytes 4 (if del then 0 else pagesFor len) ++ leBytes 4 (d.vocabBytes s + (if del then 0 else len)) } }

/-- VOCAB_LOAD (R434). -/
def execVocabLoad (w : Window) (r : Request) (s : State) : Out := s.onDoorbell cmdVocabLoad w r

/-- A load that ended without success: the new pages go, and the slot is as it was (R436). -/
def Dev.vocabFail (d : Dev) (s w n : Nat) (st : Status) : Dev :=
  let d := d.freePages PageKind.vocab (vocabOwner s true)
  let d := { d with vocabs := (AMap.mod d.vocabs s (fun v => { v with load := none })).filter (fun p => !(p.1 == s && p.2.image.isNone)) }
  d.completeTicket w n st 0

/-- The vocabulary slot that ticket `n` of window `w` loads or deletes. -/
def Dev.vocabOf (d : Dev) (w n : Nat) : Option (Nat × Vocab) :=
  d.vocabs.find? (fun p => match p.2.load with
    | some (a, b, _) => a == w && b == n
    | none => false)

/-- The load or the deletion of a vocabulary ends (R436). -/
def Dev.vocabDone (d : Dev) (w n : Nat) : Dev :=
  match d.vocabOf w n with
  | none => d
  | some (s, v) => match v.load with
    | some (_, _, none) =>
      let d := d.freePages PageKind.vocab (vocabOwner s false)
      Dev.completeTicket { d with vocabs := AMap.del d.vocabs s } w n Status.success 0
    | some (_, _, some img) =>
      if !vocabOk img then d.vocabFail s w n Status.vocabImageBad
      else
        let d := d.freePages PageKind.vocab (vocabOwner s false)
        let pages := d.tongs.pages.map (fun p => if p.kind == PageKind.vocab && p.owner == vocabOwner s true then { p with owner := vocabOwner s false } else p)
        Dev.completeTicket { d with
          tongs := { d.tongs with pages := pages }
          vocabs := AMap.set d.vocabs s { v with image := some img, load := none } } w n Status.success 0
    | none => d

/-- VOCAB_LOAD_DONE (R436). -/
def execVocabLoadDone (w : Window) (ticket : Nat) (s : State) : Out := s.onRunning (fun d => d.vocabDone w.num ticket)

/-- Loads of vocabularies that run ended by the fence of a region (R436). -/
def Dev.interruptVocabs (d : Dev) : Dev :=
  d.vocabs.foldl (fun d p => match p.2.load with
    | some (w, n, some _) => d.vocabFail p.1 w n Status.vocabInterrupted
    | _ => d) d

/-- Whether a vocabulary passes step 13 of a load (R433). -/
def Dev.vocabFits (d : Dev) (t : Nat) (o : OpRec) : Bool :=
  match o.vocab? with
  | none => true
  | some s => match AMap.get? d.vocabs s with
    | none => false
    | some v => match v.image with
      | none => false
      | some img =>
        let i := vocabImg img
        let norm := leAt o.params 1 1
        v.load.isNone && v.tenant == t && (leAt o.params 2 1 != 0 || decide (i.ids ≤ 65536)) &&
        (norm == 0 || bitOf i.forms (norm - 1))

end Sys2Proof.Machine
end

