-- ==== Sys2Proof/Machine/Programs.lean ====
section
/-!
DEFINITION. Machine/Programs.lean: stage programs: their binaries, their load, its validation, and their unload (file 05 of the spec).
-/
namespace Sys2Proof.Machine

/-! ### The op catalogue (Table 05-4) -/

/-- How an op's VARY bit is evaluated: never; always, without or with an exact variant; or as an Anvil op's parameters say. -/
inductive VaryRule where
  | no | always | variant | anvil
  deriving DecidableEq, Repr

/-- A row of the op catalogue: opcode, class, first format, VARY rule, and the PARAMS bytes it names. -/
structure OpDef where
  opcode : Nat
  cls : Nat
  since : Nat
  vary : VaryRule
  named : Nat
  deriving DecidableEq, Repr

/-- Table 05-4; `named` counts the leading PARAMS bytes that are not reserved. -/
def opTable : List OpDef :=
  [⟨0x0101, 0, 0x0100, .no, 1⟩, ⟨0x0102, 7, 0x0202, .always, 0⟩, ⟨0x0201, 1, 0x0100, .no, 1⟩, ⟨0x0202, 1, 0x0100, .no, 1⟩,
   ⟨0x0203, 1, 0x0100, .no, 1⟩, ⟨0x0204, 1, 0x0100, .no, 6⟩, ⟨0x0205, 1, 0x0100, .no, 8⟩, ⟨0x0206, 1, 0x0100, .no, 8⟩,
   ⟨0x0207, 1, 0x0100, .no, 4⟩, ⟨0x0208, 1, 0x0101, .no, 6⟩, ⟨0x0301, 5, 0x0100, .no, 5⟩, ⟨0x0302, 5, 0x0100, .no, 5⟩,
   ⟨0x0303, 5, 0x0100, .no, 5⟩, ⟨0x0401, 2, 0x0100, .anvil, 4⟩, ⟨0x0402, 2, 0x0100, .anvil, 4⟩, ⟨0x0403, 2, 0x0201, .anvil, 4⟩,
   ⟨0x0404, 2, 0x0100, .no, 4⟩, ⟨0x0501, 5, 0x0100, .no, 2⟩, ⟨0x0502, 5, 0x0100, .no, 5⟩, ⟨0x0503, 5, 0x0100, .variant, 3⟩,
   ⟨0x0504, 5, 0x0201, .variant, 3⟩, ⟨0x0601, 6, 0x0100, .no, 1⟩, ⟨0x0602, 6, 0x0100, .no, 3⟩, ⟨0x0603, 6, 0x0203, .no, 6⟩,
   ⟨0x0701, 7, 0x0100, .no, 0⟩, ⟨0x0702, 3, 0x0100, .variant, 4⟩, ⟨0x0703, 3, 0x0100, .no, 4⟩, ⟨0x0704, 3, 0x0100, .no, 8⟩,
   ⟨0x0801, 4, 0x0100, .no, 0⟩]

/-- The row of an opcode. -/
def opDef (c : Nat) : Option OpDef := opTable.find? (fun o => o.opcode == c)

/-- Opcodes of the ops that other rules name. -/
def Op.readSample : Nat := 0x0101
def Op.ingestFrame : Nat := 0x0102
def Op.windowPut : Nat := 0x0701
def Op.bucket : Nat := 0x0702
def Op.packTensor : Nat := 0x0703
def Op.packSequence : Nat := 0x0704
def Op.emit : Nat := 0x0801
def Op.gate : Nat := 0x0502
def Op.dedupNear : Nat := 0x0504
def Op.detok : Nat := 0x0603

/-- Whether an op is one of the three that run a model. -/
def OpRec.isAnvil (o : OpRec) : Bool := decide (0x0401 ≤ o.opcode && o.opcode ≤ 0x0403)

/-- Whether an op is a Screen op. -/
def OpRec.isScreen (o : OpRec) : Bool := decide (0x0501 ≤ o.opcode && o.opcode ≤ 0x0504)

/-- The parameter of `w` bytes at pN. -/
def OpRec.p (o : OpRec) (n w : Nat) : Nat := leAt o.params n w

/-- An op record from its 64 bytes (Table 05-2). -/
def parseOp (b : List Byte) : OpRec :=
  { opcode := leAt b 0 2, vary := bitOf (leAt b 2 1) 7, exactAlt := bitOf (leAt b 2 1) 6, grain := bitField (leAt b 2 1) 4 2, cls := leAt b 3 1 % 8,
    inA := leAt b 4 2, inB := leAt b 6 2, costK := leAt b 8 4, exactK := leAt b 12 4, outMax := leAt b 16 4, placeGroup := leAt b 20 2,
    stateOff := leAt b 22 1, stateLen := leAt b 23 1, params := bytesAt b 32 32 }

/-- No op, and no placement. -/
def noOp : Nat := 0xFFFF

/-! ### The header (Table 05-1) -/

/-- A program header. -/
structure ProgHdr where
  magic : Nat
  format : Nat
  total : Nat
  ops : Nat
  models : Nat
  variant : Nat
  blocks : Nat
  minPeriod : Nat
  fitFw : Nat
  constLen : Nat
  opOff : Nat
  constOff : Nat
  modelOff : Nat
  placeOff : Nat
  placeLen : Nat
  pages : Nat
  tag : Nat
  digest : List Byte
  rsvOk : Bool
  deriving DecidableEq, Repr

/-- The header of a binary. -/
def progHdr (b : List Byte) : ProgHdr :=
  { magic := leAt b 0 4, format := leAt b 4 2, total := leAt b 8 8, ops := leAt b 16 2, models := leAt b 18 1, variant := leAt b 19 1,
    blocks := leAt b 20 1, minPeriod := leAt b 22 2, fitFw := leAt b 24 4, constLen := leAt b 28 4, opOff := leAt b 32 8, constOff := leAt b 40 8,
    modelOff := leAt b 48 8, placeOff := leAt b 56 8, placeLen := leAt b 64 4, pages := leAt b 68 4, tag := leAt b 72 8, digest := bytesAt b 80 32,
    rsvOk := leAt b 6 2 == 0 && leAt b 21 1 == 0 && allZero (bytesAt b 112 16) }

/-- Offset, length and reserved field of each model table entry (R182). -/
def modelEntries (b : List Byte) (h : ProgHdr) : List (Nat × Nat × Nat) :=
  (List.range h.models).map (fun i => let o := h.modelOff + 32 * i; (leAt b o 8, leAt b (o + 8) 8, leAt b (o + 16) 16))

/-- The ops of a binary. -/
def progOps (b : List Byte) (h : ProgHdr) : List OpRec := (List.range h.ops).map (fun i => parseOp (bytesAt b (h.opOff + 64 * i) 64))

/-- An optional section's offset: a multiple of 64, and 0 when the section is empty. -/
def offsetOk (o n : Nat) : Bool := o % 64 == 0 && (n != 0 || o == 0)

/-- Whether two spans are apart or one of them is empty. -/
def apart (p q : Nat × Nat) : Bool := p.2 == 0 || q.2 == 0 || decide (p.1 + p.2 ≤ q.1) || decide (q.1 + q.2 ≤ p.1)

/-- Step 3 of Table 05-7. -/
def layoutOk (b : List Byte) (h : ProgHdr) (binaryLen : Nat) : Bool :=
  let fixed := [(0, 128), (h.opOff, 64 * h.ops), (h.constOff, h.constLen), (h.modelOff, 32 * h.models), (h.placeOff, h.placeLen)]
  let es := modelEntries b h
  let images := es.map (fun e => (e.1, e.2.1))
  h.total == binaryLen && decide (3 ≤ h.ops && h.ops ≤ 1024) && decide (h.models ≤ 16) && decide (h.constLen ≤ 16777216) &&
  decide (h.placeLen ≤ 4096) && h.placeLen % 16 == 0 && decide (100 ≤ h.minPeriod && h.minPeriod ≤ 1600) && h.opOff % 64 == 0 &&
  offsetOk h.constOff h.constLen && offsetOk h.modelOff h.models && offsetOk h.placeOff h.placeLen && sectionsOk binaryLen fixed && h.rsvOk &&
  es.all (fun e => e.1 % 64 == 0 && e.2.2 == 0 && decide (e.1 + e.2.1 ≤ binaryLen)) &&
  images.all (fun p => fixed.all (apart p) && images.all (fun q => p == q || apart p q))

/-- Formats that the device accepts (Table 05-9). -/
def progFormats : List Nat := [0x0100, 0x0101, 0x0102, 0x0200, 0x0201, 0x0202, 0x0203, 0x0204]

/-! ### Op checks (steps 8 and 9) -/

/-- Whether VARY evaluates to 1 for an op (R188). -/
def OpRec.varies (o : OpRec) : Bool :=
  match (opDef o.opcode).map OpDef.vary with
  | some .always | some .variant => true
  | some .anvil => (o.p 1 1 == 4 || o.p 1 1 == 5) && o.p 2 1 == 1
  | _ => false

/-- Whether an op has an exact variant. -/
def OpRec.hasVariant (o : OpRec) : Bool :=
  match (opDef o.opcode).map OpDef.vary with
  | some .variant => true
  | some .anvil => o.varies
  | _ => false

/-- A parameter that lies in a range. -/
def inRange (v lo hi : Nat) : Bool := decide (lo ≤ v) && decide (v ≤ hi)

/-- Whether an op's parameters have defined values (Table 05-4 and the chapters of the units). -/
def OpRec.paramsOk (o : OpRec) (fmt models : Nat) (consts : List Byte) : Bool :=
  let q := o.p
  match o.opcode with
  | 0x0101 => inRange (q 0 1) 0 1
  | 0x0201 => inRange (q 0 1) 1 8
  | 0x0202 => inRange (q 0 1) 0 1
  | 0x0203 => inRange (q 0 1) 0 5
  | 0x0204 => inRange (q 0 1) 0 2 && inRange (q 1 1) 0 1 && inRange (q 2 2) 1 16384 && inRange (q 4 2) 1 16384
  | 0x0205 => inRange (q 0 1) 0 2 && inRange (q 1 1) 0 1 && inRange (q 2 1) 0 1 && q 3 1 == 0 && inRange (q 4 2) 1 16384 && inRange (q 6 2) 1 16384
  | 0x0206 => inRange (q 0 1) 0 1 && inRange (q 1 1) 1 8 && q 2 2 == 0 && inRange (q 4 4) 1 (2 ^ 32 - 1)
  | 0x0207 => inRange (q 0 4) 1 16777216
  | 0x0208 => inRange (q 4 2) 1 256 && decide (q 0 4 + q 4 2 ≤ consts.length)
  | 0x0301 | 0x0302 | 0x0303 => swageOpOk o.opcode o.params consts
  | 0x0401 | 0x0402 | 0x0403 =>
    decide (q 0 1 < models) && inRange (q 1 1) 0 5 && inRange (q 2 1) 0 1 && inRange (q 3 1) 0 1 && (q 2 1 == 0 || decide (4 ≤ q 1 1)) &&
    (q 3 1 == 0 || q 1 1 == 0) && (decide (0x0204 ≤ fmt) || (q 3 1 == 0 && q 1 1 != 2))
  | 0x0404 => decide (q 0 4 < consts.length)
  | 0x0501 => inRange (q 0 2) 0 1023
  | 0x0502 => finite32 (q 0 4) && inRange (q 4 1) 0 1
  | 0x0503 | 0x0504 => inRange (q 0 2) 0 1023 && inRange (q 2 1) 0 1
  | 0x0601 => inRange (q 0 1) 0 1
  | 0x0602 => inRange (q 0 1) 0 15 && inRange (q 1 1) 0 (if 0x0102 ≤ fmt then 2 else 1) && inRange (q 2 1) 0 1
  | 0x0603 => (stopList o.params consts).isSome
  | 0x0702 => inRange (q 0 1) 1 64 && q 1 1 == 0 && inRange (q 2 2) 1 65535
  | 0x0703 => inRange (q 0 4) 1 65536
  | 0x0704 => inRange (q 0 4) 16 1048576 && inRange (q 4 4) 1 65536
  | _ => true

/-- Step 8 (R205). -/
def OpRec.known (o : OpRec) (fmt : Nat) : Bool := ((opDef o.opcode).map (fun d => decide (d.since ≤ fmt))).getD false

/-- Step 9 for the op whose record is `b`. -/
def opFieldsOk (o : OpRec) (b : List Byte) (fmt models : Nat) (consts : List Byte) : Bool :=
  match opDef o.opcode with
  | none => false
  | some d =>
    let free := o.opcode == Op.emit || o.opcode == Op.ingestFrame || o.opcode == Op.windowPut
    bitField (leAt b 2 1) 0 4 == 0 && leAt b 3 1 < 8 && decide (o.grain ≤ 1) && leAt b 24 8 == 0 && o.cls == d.cls && o.vary == o.varies &&
    (!o.exactAlt || (o.varies && o.hasVariant && decide (0x0200 ≤ fmt))) && (o.exactK != 0) == o.exactAlt && (o.costK == 0) == free &&
    decide (1 ≤ o.outMax) && (o.isAnvil || o.placeGroup == noOp) && (o.inB == noOp || o.opcode == Op.gate || o.opcode == Op.dedupNear) &&
    allZero (o.params.drop d.named) && o.paramsOk fmt models consts

/-! ### The op graph (steps 10 and 11) -/

/-- Whether an op is one of those that begin a sample. -/
def OpRec.isFirst (o : OpRec) : Bool := o.opcode == Op.readSample || o.opcode == Op.ingestFrame

/-- The opcode of the op at an index. -/
def opcodeAt (ops : List OpRec) (i : Nat) : Nat := ((ops[i]?).map OpRec.opcode).getD 0

/-- What op `i` can break on its own before the sequence is looked at (R189, R399, R449). -/
def OpRec.graphOk (o : OpRec) (ops : List OpRec) (i : Nat) : Bool :=
  if i = 0 then o.isFirst && o.inA == noOp && o.inB == noOp
  else !o.isFirst && decide (o.inA < i) && (decide (o.inB < i) || o.inB == noOp) &&
    (o.opcode != Op.gate || opcodeAt ops o.inB == 0x0402) && (o.opcode != Op.dedupNear || opcodeAt ops o.inB == 0x0403) &&
    (o.opcode != Op.detok || opcodeAt ops o.inA == 0x0601 || opcodeAt ops o.inA == 0x0602)

/-- The walk of step 10: `stage` is 0 before WINDOW_PUT, 1 after it, 2 after BUCKET, 3 after the pack op, 4 after EMIT; the op at which it stops, or none. -/
def graphWalk (ops : List OpRec) (i stage : Nat) : List OpRec → Option Nat × Nat
  | [] => (none, stage)
  | o :: r =>
    if !o.graphOk ops i then (some i, stage)
    else
      let pack := o.opcode == Op.packTensor || o.opcode == Op.packSequence
      let next :=
        if stage = 0 then (if o.grain ≠ 0 then none else if o.opcode = Op.windowPut then some 1 else some 0)
        else if stage = 1 && o.opcode == Op.bucket && o.grain == 0 then some 2
        else if (stage == 1 || stage == 2) && pack && o.grain == 1 then some 3
        else if stage == 3 && o.opcode == Op.emit && o.grain == 1 then some 4
        else none
      match next with
      | none => (some i, stage)
      | some s => graphWalk ops (i + 1) s r

/-- The index of WINDOW_PUT. -/
def windowIndex (ops : List OpRec) : Nat := (ops.findIdx? (fun o => o.opcode == Op.windowPut)).getD 0

/-- Ops below `w` that are needed, marked from WINDOW_PUT downward: an op is needed when an op that is needed names it. -/
def neededOps (ops : List OpRec) (w : Nat) : List Nat :=
  (List.range (w + 1)).foldl (fun acc k =>
    let j := w - k
    if acc.contains j then
      match ops[j]? with
      | some o => acc ++ [o.inA, o.inB].filter (fun x => decide (x < j) && !acc.contains x)
      | none => acc
    else acc) [w]

/-- The producer of an op's input: Screen ops are passed through (R189). -/
def producer (fuel : Nat) (ops : List OpRec) (i : Nat) : Nat :=
  match fuel with
  | 0 => i
  | f + 1 => match ops[i]? with
    | some o => if o.isScreen then producer f ops o.inA else i
    | none => i

/-- Step 10: the op that breaks the graph, or none (R189, R195, R199). -/
def graphFailure (ops : List OpRec) : Option Nat :=
  match graphWalk ops 0 0 ops with
  | (some i, _) => some i
  | (none, stage) =>
    if stage ≠ 4 then some (ops.length - 1)
    else
      let w := windowIndex ops
      let need := neededOps ops w
      match (List.range w).find? (fun i => !need.contains i) with
      | some i => some i
      | none =>
        let src := opcodeAt ops (producer ops.length ops (((ops[w]?).map OpRec.inA).getD 0))
        if ops.any (fun o => o.opcode == Op.packSequence && o.grain == 1) && !(src == 0x0601 || src == 0x0602 || src == 0x0603) then some w else none

/-- Step 11: the op whose share of STAGE_STATE fails, or none. -/
def stateFailure (ops : List OpRec) : Option Nat :=
  (List.range ops.length).find? (fun i => match ops[i]? with
    | none => false
    | some o =>
      decide (40 < o.stateOff + o.stateLen) || (o.stateLen == 0 && o.stateOff != 0) ||
      (ops.take i).any (fun q => !apart (q.stateOff, q.stateLen) (o.stateOff, o.stateLen)))

/-! ### Steps 12 to 18 -/

/-- A failure: status and FAILED_OP. -/
abbrev LoadFail := Nat × Nat

/-- No op failed. -/
def wholeProgram : Nat := 0xFFFF

/-- Steps 12 to 15 for one op. -/
def Dev.opStep (d : Dev) (p : Prog) (i : Nat) (o : OpRec) : Option LoadFail :=
  let pls := placements p.placement
  let image := p.models.getD (o.p 0 1) []
  let modelFine := !o.isAnvil ||
    (match pls[o.placeGroup]? with
     | none => false
     | some pl => modelOk d.fwMajor o.opcode (o.p 1 1) (o.p 3 1) o.outMax image && pl.ok p.models.length (o.p 0 1) &&
         p.ops.countP (fun q => q.isAnvil && q.placeGroup == o.placeGroup) == 1 &&
         (List.range pls.length).all (fun k => p.ops.any (fun q => q.isAnvil && q.placeGroup == k)) &&
         decide (sumNat (pls.map (fun x => imagePages (p.models.getD x.model []) * (maskBits x.regions 8).length)) ≤ p.pages))
  let tableFine := match o.table? with
    | none => true
    | some (n, kind) => ((d.table? p.tenant n).map (fun t => t.current.isSome && t.kind == kind)).getD false
  if !modelFine then some (Status.modelInvalid, i)
  else if !d.vocabFits p.tenant o then some (Status.vocabMissing, i)
  else if !tableFine then some (Status.tableMissing, i)
  else if p.requireExact && o.varies && !o.exactAlt then some (Status.varyNoExact, i)
  else none

/-- The first failure of an op by a check. -/
def firstOp (ops : List OpRec) (f : Nat → OpRec → Option LoadFail) : Option LoadFail :=
  (List.range ops.length).findSome? (fun i => (ops[i]?).bind (f i))

/-- Ring shares that programs reserve in region `r`: those past step 17 and not EMPTY (R380). -/
def Dev.ringUsed (d : Dev) (r : Nat) : Nat :=
  sumNat (d.progs.map (fun q => if q.2.state == .loading && q.2.verdict != some (0, wholeProgram) then 0
    else sumNat ((placements q.2.placement).map (fun pl => if bitOf pl.regions r then pl.shares else 0))))

/-- Step 17 (R380). -/
def Dev.ringFits (d : Dev) (p : Prog) : Bool :=
  (List.range 8).all (fun r =>
    decide (d.ringUsed r + sumNat ((placements p.placement).map (fun pl => if bitOf pl.regions r then pl.shares else 0)) ≤ 240))

/-- Pages of a program's image copies, by region (R377). -/
def Prog.copyPages (p : Prog) (r : Nat) : Nat :=
  sumNat ((placements p.placement).map (fun pl => if bitOf pl.regions r then imagePages (p.models.getD pl.model []) else 0))

/-- Pages taken from the in-service regions in ascending index, each giving all it has first (Table 05-7, step 18). -/
def Dev.spreadPages (d : Dev) (owner n : Nat) : List Nat → Option Dev
  | [] => if n = 0 then some d else none
  | r :: rest =>
    let k := min n (d.pagesFree r)
    Dev.spreadPages (d.takePages PageKind.program owner r k) owner (n - k) rest

/-- Step 18: the device with the program's pages taken, or none. -/
def Dev.programPages (d : Dev) (slot : Nat) (p : Prog) : Option Dev :=
  let copies := (List.range 8).map (fun r => (r, p.copyPages r))
  if copies.all (fun c => decide (c.2 ≤ d.pagesFree c.1)) then
    let d := copies.foldl (fun d c => d.takePages PageKind.program slot c.1 c.2) d
    d.spreadPages slot (p.pages - sumNat (copies.map Prod.snd)) d.regionsIn
  else none

/-- Steps 1 to 6: what a binary breaks before the period is looked at, or none. -/
def Dev.headerStep (d : Dev) (b : List Byte) (h : ProgHdr) : Option Status :=
  firstFail [
    needs (h.magic == 0x47505342) Status.progMagicBad,
    needs (progFormats.contains h.format) Status.progFormatUnsupported,
    needs (layoutOk b h b.length) Status.progLayoutBad,
    needs (sha256 (b.take 80 ++ zeros 32 ++ b.drop 112) == h.digest) Status.progDigestBad,
    needs (h.variant == d.boot.fuses.variant && h.blocks == d.B) Status.variantMismatch,
    needs (h.fitFw / 2 ^ 24 == d.fwMajor && decide (h.fitFw / 2 ^ 16 % 256 ≤ d.fwMinor)) Status.fwMismatch]

/-- Step 7 (PERIOD_PENDING included). -/
def Dev.periodFits (d : Dev) (h : ProgHdr) : Bool :=
  decide (h.minPeriod ≤ d.tick.periodUs) && (match d.tick.change with | some (p, _) => decide (h.minPeriod ≤ p) | none => true)

/-- Steps 8 to 11 (R195, phases 2 and 3). -/
def opsFailure (b : List Byte) (h : ProgHdr) (ops : List OpRec) (consts : List Byte) : Option LoadFail :=
  match firstOp ops (fun i o =>
    if !o.known h.format then some (Status.opUnknown, i)
    else if !opFieldsOk o (bytesAt b (h.opOff + 64 * i) 64) h.format h.models consts then some (Status.opFieldInvalid, i)
    else none) with
  | some f => some f
  | none => match graphFailure ops with
    | some i => some (Status.graphInvalid, i)
    | none => (stateFailure ops).map (fun i => (Status.stateOverflow, i))

/-- The validation of a LOADING slot's binary (R195, R197): the device with its pages taken and the slot filled, and the verdict kept. -/
def Dev.validateSlot (d : Dev) (slot : Nat) : Dev :=
  match AMap.get? d.progs slot with
  | none => d
  | some p =>
    let b := p.binary
    let h := progHdr b
    let put := fun (d : Dev) (p : Prog) (v : LoadFail) => ({ d with progs := AMap.set d.progs slot { p with verdict := some v } } : Dev)
    match d.headerStep b h with
    | some s => put d p (s, wholeProgram)
    | none =>
      if !d.periodFits h then put d p (Status.periodTooShort, wholeProgram)
      else
        let ops := progOps b h
        let consts := bytesAt b h.constOff h.constLen
        let p : Prog := { p with
          format := h.format, ops := ops, consts := consts, models := (modelEntries b h).map (fun e => bytesAt b e.1 e.2.1)
          placement := bytesAt b h.placeOff h.placeLen, digest := h.digest, tag := h.tag, minPeriod := h.minPeriod, bounding := true
          exactCapable := ops.all (fun o => !o.varies || o.exactAlt), pages := h.pages }
        match opsFailure b h ops consts with
        | some f => put d p f
        | none => match firstOp ops (d.opStep p) with
          | some f => put d p f
          | none => match firstOp ops (fun i o => if o.isAnvil && !((placements p.placement)[o.placeGroup]?).any (modelFits (p.models.getD (o.p 0 1) [])) then
                some (Status.activationOverflow, i) else none) with
            | some f => put d p f
            | none =>
              if !d.ringFits p then put d p (Status.ringOversubscribed, wholeProgram)
              else match d.programPages slot p with
                | none => put d p (Status.noStockpile, wholeProgram)
                | some d => put d p (Status.success, wholeProgram)

/-- Loads validated in their order of acceptance, up to one (R142, R380). -/
def Dev.validateThrough (d : Dev) (seq : Nat) : Dev :=
  let slots := (sortByKey (fun (p : Nat × Prog) => p.2.loadSeq)
    (d.progs.filter (fun p => p.2.state == .loading && p.2.verdict.isNone && decide (p.2.loadSeq ≤ seq)))).map Prod.fst
  slots.foldl Dev.validateSlot d

/-! ### PROGRAM_LOAD and PROGRAM_UNLOAD (R193 to R201) -/

/-- Program slots. -/
def progSlots : Nat := 256

/-- Slots that a tenant holds (R192). -/
def Dev.slotsOf (d : Dev) (t : Nat) : Nat := d.progs.countP (fun p => p.2.tenant == t)

/-- PROGRAM_LOAD (R193, R194). -/
def cmdProgramLoad : Cmd :=
  { opcode := 0x0301
    ticketed := true
    check := fun d x =>
      let t := bitField (x.get 0 2) 0 10
      let n := x.get 8 8
      { lenOk := x.r.len == 16
        sgl := true
        rsvOk := bitField (x.get 0 2) 10 6 == 0 && bitField (x.get 2 1) 1 7 == 0 && x.rsv 3 5
        object := d.tenantObject x t
        state := d.ownerEnabled t
        own := firstFail [
          needs (decide (256 ≤ n && n ≤ 68719476672) && sglBytes x.r.sgl == n + 64) Status.progLengthBad,
          needs (decide (d.slotsOf t < 16)) Status.programLimit,
          needs (AMap.firstFree d.progs progSlots).isSome Status.noProgramSlot]
        subject := 0 }
    run := fun d x n =>
      match AMap.firstFree d.progs progSlots with
      | none => { dev := d }
      | some slot =>
        let p := Prog.loadingFor (bitField (x.get 0 2) 0 10) (bitOf (x.get 2 1) 0)
        let p : Prog := { p with
          ticket := some (x.w, n), binary := bytesAt x.r.data 0 (x.get 8 8), loadSeq := maxNat (d.progs.map (fun q => q.2.loadSeq)) + 1 }
        { dev := { d with progs := AMap.set d.progs slot p }, payload := leBytes 2 slot ++ zeros 6 } }

/-- PROGRAM_LOAD (R193). -/
def execProgramLoad (w : Window) (r : Request) (s : State) : Out := s.onDoorbell cmdProgramLoad w r

/-- The load report (Table 05-8). -/
def loadReport (status slot failed : Nat) (p : Prog) : List Byte :=
  if status = Status.success then
    leBytes 2 status ++ leBytes 2 slot ++ leBytes 2 failed ++ leBytes 1 (bitNat p.exactCapable) ++ zeros 1 ++ leBytes 4 p.pages ++
    leBytes 2 p.minPeriod ++ zeros 2 ++ padTo p.digest 32 ++ leBytes 8 p.tag ++ leBytes 8 p.loadTick
  else leBytes 2 status ++ zeros 2 ++ leBytes 2 failed ++ zeros 58

/-- A load ended without success: the slot is EMPTY and its pages free (R195). -/
def Dev.failLoad (d : Dev) (slot w n status failed : Nat) (p : Prog) : Dev :=
  let d := d.freePages PageKind.program slot
  Dev.completeReport { d with progs := AMap.del d.progs slot } w n status (loadReport status slot failed p)

/-- The slot whose outstanding ticket is `n` of window `w`. -/
def Dev.progOf (d : Dev) (w n : Nat) : Option (Nat × Prog) := d.progs.find? (fun p => p.2.ticket == some (w, n))

/-- A load ends: LOADED, or EMPTY with the status of the check that failed (R195, R196, R199). -/
def Dev.loadDone (d : Dev) (w n : Nat) : Dev :=
  match d.progOf w n with
  | none => d
  | some (slot, p) =>
    if p.state != .loading then d
    else
      let d := d.validateThrough p.loadSeq
      match AMap.get? d.progs slot with
      | none => d
      | some p => match p.verdict with
        | none => d
        | some (st, failed) =>
          if st ≠ Status.success then d.failLoad slot w n st failed p
          else
            let p : Prog := { p with state := .loaded, ticket := none, loadTick := d.tick.count, binary := [] }
            Dev.completeReport { d with progs := AMap.set d.progs slot p } w n st (loadReport st slot failed p)

/-- PROGRAM_LOAD_DONE (R195, R196). -/
def execProgramLoadDone (w : Window) (ticket : Nat) (s : State) : Out := s.onRunning (fun d => d.loadDone w.num ticket)

/-- Loads that run ended by the fence of a region (R198). -/
def Dev.interruptLoads (d : Dev) : Dev :=
  d.progs.foldl (fun d p => match p.2.state, p.2.ticket with
    | .loading, some (w, n) => d.failLoad p.1 w n Status.loadInterrupted wholeProgram p.2
    | _, _ => d) d

/-- The object check of a program slot. -/
def Dev.slotObject (d : Dev) (x : Ctx) (slot : Nat) : Option Status :=
  match AMap.get? d.progs slot with
  | none => some Status.noSuchProgram
  | some p => needs (x.mayName p.tenant) Status.notOwner

/-- PROGRAM_UNLOAD (R201). -/
def cmdProgramUnload : Cmd :=
  { opcode := 0x0302
    ticketed := true
    check := fun d x =>
      let slot := x.get 0 2
      let p := AMap.get? d.progs slot
      { lenOk := x.r.len == 8
        rsvOk := x.rsv 2 6
        field := needs (decide (slot < progSlots)) Status.fieldInvalid
        object := d.slotObject x slot
        state := (p.map (fun p => d.ownerEnabled p.tenant)).getD none
        own := firstFail [
          needs ((p.map (fun p => p.state == .loaded)).getD true) Status.programBusy,
          needs (!d.streams.any (fun q => q.2.slot == slot)) Status.programInUse]
        subject := slot }
    run := fun d x n =>
      { dev := { d with progs := AMap.mod d.progs (x.get 0 2) (fun p => { p with state := .unloading, ticket := some (x.w, n) }) } } }

/-- PROGRAM_UNLOAD (R201). -/
def execProgramUnload (w : Window) (r : Request) (s : State) : Out := s.onDoorbell cmdProgramUnload w r

/-- The pages of an UNLOADING slot are free: it reads EMPTY (R201). -/
def Dev.unloadDone (d : Dev) (w n : Nat) : Dev :=
  match d.progOf w n with
  | none => d
  | some (slot, p) =>
    if p.state != .unloading then d
    else
      let d := d.freePages PageKind.program slot
      Dev.completeTicket { d with progs := AMap.del d.progs slot } w n Status.success 0

/-- PROGRAM_UNLOAD_DONE (R201). -/
def execProgramUnloadDone (w : Window) (ticket : Nat) (s : State) : Out := s.onRunning (fun d => d.unloadDone w.num ticket)

end Sys2Proof.Machine
end

