-- ==== Sys2Proof/Machine/Shuffle.lean ====
section
/-!
DEFINITION. Machine/Shuffle.lean: the global permutation, the draw sequence, buckets, packing and the billet format (R456 to R480), and the billet digest (R575).
-/
namespace Sys2Proof.Machine

/-! ### The permutation (R456 to R458) -/

/-- Half the width of the permutation's domain, h: the least h of at least 1 with 2^(2h) ≥ N. -/
def permHalf (n : Nat) : Nat := ((List.range 32).find? (fun h => decide (1 ≤ h) && decide (n ≤ 4 ^ h))).getD 32

/-- The round function of round `k` on `r`. -/
def permRound (key h k r : Nat) : Nat :=
  sipHash24 (key % 2 ^ 64) (key / 2 ^ 64) (leBytes 4 r ++ leBytes 1 k ++ leBytes 1 h ++ zeros 2) % 2 ^ h

/-- The pass E. -/
def permPass (key h x : Nat) : Nat :=
  let s := (List.range 6).foldl (fun (s : Nat × Nat) k => (s.2, s.1 ^^^ permRound key h k s.2)) (x / 2 ^ h, x % 2 ^ h)
  s.1 * 2 ^ h + s.2

/-- The inverse pass D. -/
def permBack (key h x : Nat) : Nat :=
  let s := (List.range 6).foldl (fun (s : Nat × Nat) k => (s.2 ^^^ permRound key h (5 - k) s.1, s.1)) (x / 2 ^ h, x % 2 ^ h)
  s.1 * 2 ^ h + s.2

/-- A walk by `f` to the first value below `n`. -/
def cycleWalk (fuel : Nat) (f : Nat → Nat) (n x : Nat) : Nat :=
  match fuel with
  | 0 => x
  | k + 1 => if x < n then x else cycleWalk k f n (f x)

/-- The index π(p) of position `p` in an epoch of `n` samples. -/
def permIndex (key n p : Nat) : Nat :=
  let h := permHalf n
  cycleWalk (4 ^ h) (permPass key h) n (permPass key h p)

/-- The position of index `i`. -/
def permPosition (key n i : Nat) : Nat :=
  let h := permHalf n
  cycleWalk (4 ^ h) (permBack key h) n (permBack key h i)

/-! ### The draw sequence (R459, R462) -/

/-- The slot that a draw takes among `occ` entries. -/
def drawSlot (ctr key occ : Nat) : Nat :=
  let x := philox4x32 [bitField ctr 0 32, bitField ctr 32 32, bitField ctr 64 32, bitField ctr 96 32] (key % 2 ^ 32) (key / 2 ^ 32)
  (x.getD 1 0 * 2 ^ 32 + x.getD 0 0) * occ / 2 ^ 64

/-- The frames among which an ingest stream draws: the resident ones of lowest sequence, up to WINDOW_DEPTH (R462). -/
def Stream.ingestWindow (st : Stream) : List Nat := ((st.samples.filter (fun p => p.2.isResident)).map Prod.fst).take st.depth

/-- The next draw: its position, and the stream after it; none when nothing is left to draw. -/
def Stream.drawNext (st : Stream) : Option (Nat × Stream) :=
  let w := if st.ingest.isSome then st.ingestWindow else st.window
  let k := drawSlot st.winCtr st.winKey w.length
  match w[k]? with
  | none => none
  | some p =>
    let ctr := (st.winCtr + 1) % 2 ^ 128
    if st.ingest.isSome then some (p, { st with winCtr := ctr, draws := st.draws + 1 })
    else if st.cursor < st.size then some (p, { st with winCtr := ctr, draws := st.draws + 1, window := w.set k st.cursor, cursor := st.cursor + 1 })
    else some (p, { st with winCtr := ctr, draws := st.draws + 1, window := (w.set k (w.getLast?.getD 0)).dropLast })

/-- The sample index of a position: π of it, or the ingest sequence itself. -/
def Stream.indexOf (st : Stream) (p : Nat) : Nat := if st.ingest.isSome then p else permIndex st.permKey st.size p

/-- DATASET_ID as samples and records carry it. -/
def Stream.datasetId (st : Stream) : Nat := if st.ingest.isSome then 0xFFFE else st.dataset

/-! ### What a program says of its billets -/

/-- The op of a program with an opcode. -/
def Prog.opOf (p : Prog) (opcode : Nat) : Option (Nat × OpRec) :=
  (p.ops.findIdx? (fun o => o.opcode == opcode)).bind (fun i => (p.ops[i]?).map (fun o => (i, o)))

/-- The pack op of a program. -/
def Prog.packOp (p : Prog) : Option (Nat × OpRec) := match p.opOf Op.packTensor with | some x => some x | none => p.opOf Op.packSequence

/-- Whether a program packs sequences. -/
def Prog.sequences (p : Prog) : Bool := (p.opOf Op.packSequence).isSome

/-- Rows and tokens per row of PACK_SEQUENCE. -/
def Prog.rowTokens (p : Prog) : Nat := match p.opOf Op.packSequence with | some (_, o) => leAt o.params 0 4 | none => 0
def Prog.rows (p : Prog) : Nat := match p.opOf Op.packSequence with | some (_, o) => leAt o.params 4 4 | none => 0

/-- OUT_MAX of the pack op. -/
def Prog.packMax (p : Prog) : Nat := (p.packOp.map (fun x => x.2.outMax)).getD 0

/-- The op whose output WINDOW_PUT carries. -/
def Prog.windowSource (p : Prog) : Nat := ((p.ops[windowIndex p.ops]?).map OpRec.inA).getD 0

/-- S_MAX (R468). -/
def Prog.sMax (p : Prog) : Nat := if p.sequences then p.rowTokens else ((p.ops[producer p.ops.length p.ops p.windowSource]?).map OpRec.outMax).getD 1

/-- Whether a tokenise op of the program has OUT_WIDTH 1 (R499). -/
def Prog.wide (p : Prog) : Bool :=
  p.ops.any (fun o => (o.opcode == 0x0601 && leAt o.params 0 1 == 1) || (o.opcode == 0x0602 && leAt o.params 2 1 == 1))

/-- L_MAX (R499). -/
def Prog.lMax (p : Prog) : Nat :=
  if p.sequences then
    let t := p.rows * p.rowTokens
    let r := fun (x : Nat) => roundUp x 64
    128 + 3145728 + r ((if p.wide then 4 else 2) * t) + r (2 * t) + r (16 * (65536 + p.rows))
  else p.packMax

/-- The size of a value for BUCKET (R468). -/
def Value.bucketSize (v : Value) : Nat := match v.token with | some t => leAt t 4 4 | none => v.data.length

/-- The bucket of a value (R468). -/
def Prog.bucketOf (p : Prog) (v : Value) : Nat :=
  match p.opOf Op.bucket with
  | none => 0
  | some (_, o) =>
    let n := leAt o.params 0 1
    let s := v.bucketSize
    if s = 0 then 0 else min (n - 1) ((s - 1) * n / max 1 p.sMax)

/-- AGE_LIMIT, of a program with BUCKET. -/
def Prog.ageLimit (p : Prog) : Option Nat := (p.opOf Op.bucket).map (fun x => leAt x.2.params 2 2)

/-! ### Sample identifiers and shapes (R475, Table 07-2) -/

/-- Flags of a sample identifier (Table 14-1). -/
def SampleFlag.subst : Nat := 1
def SampleFlag.deferred : Nat := 2
def SampleFlag.exact : Nat := 4
def SampleFlag.live : Nat := 32
def SampleFlag.trunc : Nat := 64

/-- A sample identifier (Table 14-1); formats before 2.1 carry neither TRUNC, LIVE nor the screen marks (R479). -/
def sampleId (st : Stream) (sid index flags fmt : Nat) : List Byte :=
  leBytes 2 st.datasetId ++ leBytes 3 st.epoch ++ leBytes 6 index ++ leBytes 1 (if fmt < 0x0201 then flags % 8 else flags) ++ leBytes 4 sid

/-- ELEM of a shape (Table 07-2). -/
def Elem.code : Elem → Nat
  | .u8 | .s8 => 0
  | .u16 | .bf16 | .f16 => 1
  | .s16 => 2
  | .s24 => 3
  | .f32 => 4
  | .bytes => 5

/-- A sample shape as its 16 bytes (Table 07-2). -/
def Shape.bytes (s : Shape) : List Byte :=
  let lay := match s.layout with | .hwc => 0 | .chw => 1 | .interleaved => 2 | .flat => 3
  let col := match s.colour with | .none => 0 | .grey => 1 | .greyAlpha => 2 | .rgb => 3 | .rgba => 4 | .ycbcr => 5
  leBytes 1 s.elem.code ++ leBytes 1 lay ++ leBytes 1 s.channels ++ leBytes 1 col ++ leBytes 4 s.width ++ leBytes 4 s.height ++ leBytes 4 s.rate

/-- SHAPE of a sample table entry: the token record when the sample carries one, its sample shape otherwise. -/
def Value.shapeBytes (v : Value) : List Byte := match v.token with | some t => padTo t 16 | none => v.shape.bytes

/-! ### Billets (R471 to R479) -/

/-- Bytes that fill a section up to the next multiple of 64. -/
def fill64 (n : Nat) : List Byte := zeros (roundUp n 64 - n)

/-- TOTAL_LEN of a TENSOR billet that holds values of these lengths (R476, R478). -/
def tensorLen (lens : List Nat) : Nat := sumNat (lens.map (fun n => roundUp n 64)) + 128 + roundUp (48 * lens.length) 64

/-- The segments of a row before one more is placed in it. -/
def Billet.rowSegments (b : Billet) (r : Nat) : Nat := b.segments.countP (fun s => s.row == r)

/-- A segment of `n` tokens placed in the lowest row that can hold it (R472, step 2). -/
def Billet.placeSegment (b : Billet) (n sample piece rowTokens rows : Nat) : Option Billet :=
  let fits := fun (r : Nat) => decide (n ≤ b.rows.getD r 0) && decide (b.rowSegments r < 65535)
  match (List.range b.rows.length).find? fits with
  | some r =>
    let s : Segment := { row := r, start := rowTokens - b.rows.getD r 0, length := n, sample := sample, piece := piece }
    some { b with segments := b.segments ++ [s], rows := b.rows.set r (b.rows.getD r 0 - n) }
  | none =>
    if b.rows.length < rows then
      let s : Segment := { row := b.rows.length, start := 0, length := n, sample := sample, piece := piece }
      some { b with segments := b.segments ++ [s], rows := b.rows ++ [rowTokens - n] }
    else none

/-- A whole piece placed in the lowest wholly empty row (R472, step 3). -/
def Billet.placePiece (b : Billet) (sample piece rowTokens rows : Nat) : Option Billet :=
  match (List.range b.rows.length).find? (fun r => b.rows.getD r 0 == rowTokens && b.rowSegments r == 0) with
  | some r =>
    let s : Segment := { row := r, start := 0, length := rowTokens, sample := sample, piece := piece }
    some { b with segments := b.segments ++ [s], rows := b.rows.set r 0 }
  | none =>
    if b.rows.length < rows then
      let s : Segment := { row := b.rows.length, start := 0, length := rowTokens, sample := sample, piece := piece }
      some { b with segments := b.segments ++ [s], rows := b.rows ++ [0] }
    else none

/-- The segments of a sample of `n` tokens placed in a billet, none when they do not all fit (R472). -/
def Billet.placeTokens (b : Billet) (n rowTokens rows : Nat) : Option Billet :=
  let sample := b.samples.length
  if n ≤ rowTokens then b.placeSegment n sample 0 rowTokens rows
  else
    let whole := n / rowTokens
    let rest := n % rowTokens
    let start := (List.range whole).foldl (fun (o : Option Billet) k => o.bind (fun c => c.placePiece sample k rowTokens rows)) (some b)
    if rest = 0 then start else start.bind (fun c => c.placeSegment rest sample whole rowTokens rows)

/-- Whether a SEQUENCE billet is full (R472, step 5). -/
def Billet.sequenceFull (b : Billet) (rows : Nat) : Bool :=
  decide (65536 ≤ b.samples.length) || (decide (rows ≤ b.rows.length) && b.rows.all (fun r => r == 0))

/-- The token and segment id of each place of a SEQUENCE billet, row by row (R473). -/
def Billet.tokenArrays (b : Billet) (rowTokens rows : Nat) : List Nat × List Nat :=
  let idsOf := fun (s : Segment) => match b.samples[s.sample]? with
    | some p => ((valueIds p.value).2.drop (s.piece * rowTokens)).take s.length
    | none => []
  let row := fun (r : Nat) =>
    let segs := b.segments.filter (fun s => s.row == r)
    let toks := segs.flatMap idsOf
    let ids := (segs.mapIdx (fun i s => List.replicate s.length (i + 1))).flatten
    (toks ++ List.replicate (rowTokens - toks.length) 0, ids ++ List.replicate (rowTokens - ids.length) 0)
  let all := (List.range rows).map row
  (all.flatMap Prod.fst, all.flatMap Prod.snd)

/-- The segment table, in order of row and then start (R478). -/
def Billet.segmentTable (b : Billet) : List Byte :=
  (sortByKey (fun s => s.row * 2 ^ 32 + s.start) b.segments).flatMap (fun s =>
    leBytes 4 s.row ++ leBytes 4 s.start ++ leBytes 4 s.length ++ leBytes 2 s.sample ++ leBytes 2 s.piece)

/-- What a billet's bytes are laid out for: its reservoir, sequence number and format, of which the canonical form reads 0 (R569). -/
structure BilletView where
  fmt : Nat
  formatField : Nat
  seq : Nat
  reservoir : Nat
  check : Bool

/-- A billet's bytes (R476 to R479). -/
def Billet.bytes (b : Billet) (v : BilletView) (sid : Nat) (st : Stream) (p : Prog) : List Byte :=
  let seqs := p.sequences
  let n := b.samples.length
  let tableEnd := 128 + 48 * n
  let dataOff := roundUp tableEnd 64
  let width := ((b.samples.head?).map (fun s => (valueIds s.value).1)).getD 2
  let vocab := ((b.samples.head?).map (fun s => leAt (s.value.token.getD []) 1 1)).getD 0
  let (toks, ids) := if seqs then b.tokenArrays p.rowTokens p.rows else ([], [])
  let tokBytes := toks.flatMap (leBytes width)
  let idOff := dataOff + roundUp tokBytes.length 64
  let idBytes := ids.flatMap (leBytes 2)
  let segOff := idOff + roundUp idBytes.length 64
  let segBytes := if seqs && decide (0x0200 ≤ v.fmt) then b.segmentTable else []
  let offs := (b.samples.foldl (fun (acc : List Nat × Nat) s => (acc.1 ++ [acc.2], acc.2 + roundUp s.value.data.length 64)) ([], dataOff)).1
  let entry := fun (i : Nat) (s : Placed) =>
    sampleId st sid s.index s.flags v.fmt ++ leBytes 8 (if seqs then 0 else offs.getD i 0) ++ leBytes 8 (if seqs then s.tokens else s.value.data.length) ++
    (if v.fmt < 0x0200 then zeros 16 else s.value.shapeBytes)
  let table := (b.samples.mapIdx entry).flatten
  let body := if seqs then tokBytes ++ fill64 tokBytes.length ++ idBytes ++ fill64 idBytes.length ++ segBytes ++ fill64 segBytes.length
    else b.samples.flatMap (fun s => s.value.data ++ fill64 s.value.data.length)
  let rest := table ++ fill64 tableEnd ++ body
  let flags := (if v.fmt < 0x0201 then 0 else bitNat b.aged * 8 + bitNat b.isPartial * 4) + bitNat b.isLast * 2 + bitNat st.mode
  let head := leBytes 4 0x544C4942 ++ leBytes 2 v.formatField ++ leBytes 1 (bitNat seqs) ++ leBytes 1 flags ++ leBytes 8 (128 + rest.length) ++
    leBytes 4 v.seq ++ leBytes 3 st.epoch ++ zeros 1 ++ leBytes 4 sid ++ leBytes 2 st.tenant ++ leBytes 1 v.reservoir ++
    leBytes 1 (if v.fmt < 0x0101 then 0 else b.bucket) ++ leBytes 8 b.num ++ leBytes 4 n ++
    leBytes 4 (if v.fmt < 0x0200 then 0 else b.segments.length) ++ leBytes 4 (if seqs then p.rows else 0) ++ leBytes 4 (if seqs then p.rowTokens else 0) ++
    leBytes 1 (if seqs then width else 0) ++ leBytes 1 (if seqs then vocab else 0) ++ zeros 6 ++ leBytes 8 128 ++ leBytes 8 dataOff ++
    leBytes 8 (if seqs then idOff else 0) ++ leBytes 8 (if seqs && decide (0x0200 ≤ v.fmt) then segOff else 0) ++
    (if v.fmt < 0x0201 then zeros 8 else padTo (p.digest.take 8) 8) ++ zeros 20
  head ++ leBytes 4 (if v.check then crc32c (head ++ rest) else 0) ++ rest

/-- TOTAL_LEN of a billet in a format. -/
def Billet.totalLen (b : Billet) (fmt : Nat) (p : Prog) : Nat :=
  if p.sequences then
    let t := p.rows * p.rowTokens
    let width := ((b.samples.head?).map (fun s => (valueIds s.value).1)).getD 2
    roundUp (128 + 48 * b.samples.length) 64 + roundUp (width * t) 64 + roundUp (2 * t) 64 + (if 0x0200 ≤ fmt then roundUp (16 * b.segments.length) 64 else 0)
  else tensorLen (b.samples.map (fun s => s.value.data.length))

/-- The canonical form of a billet (R569). -/
def Billet.canonical (b : Billet) (sid : Nat) (st : Stream) (p : Prog) : List Byte :=
  b.bytes { fmt := 0x0201, formatField := 0, seq := 0, reservoir := 0, check := false } sid st p

/-- The digest seed block (Table 17-3). -/
def Dev.digestSeed (d : Dev) (sid : Nat) (st : Stream) : List Byte :=
  let live := st.ingest.isSome
  let ds := AMap.get? d.face.datasets st.dataset
  let (size, rank) := match d.group.member with | some m => (m.groupSize, m.rank) | none => (1, 0)
  leBytes 4 0x47494442 ++ leBytes 2 0x0100 ++ leBytes 1 (bitNat st.mode) ++ zeros 1 ++ leBytes 4 (st.tenant * 2 ^ 20 + sid) ++ leBytes 3 st.epoch ++ zeros 1 ++
  leBytes 6 (if live then 0 else st.size) ++ zeros 2 ++ leBytes 4 st.depth ++ leBytes 4 size ++ leBytes 4 rank ++ leBytes 2 st.datasetId ++
  leBytes 2 st.dealing.length ++ padTo (((AMap.get? d.progs st.slot).map Prog.digest).getD []) 32 ++
  padTo (if live then [] else (ds.map Dataset.manifest).getD []) 32 ++ leBytes 16 (if live then 0 else st.permKey) ++ leBytes 8 (if live then 0 else st.winKey)

end Sys2Proof.Machine
end

