-- ==== Sys2Proof/Machine/ReplayLog.lean ====
section
/-!
DEFINITION. Machine/ReplayLog.lean: the records of a replay log, written while a stream is recorded and read while it is replayed (R579 to R586).
-/
namespace Sys2Proof.Machine

/-- Record types (Table 17-4). -/
def LogKind.header : Nat := 1
def LogKind.tickMark : Nat := 2
def LogKind.frame : Nat := 3
def LogKind.peer : Nat := 4
def LogKind.head : Nat := 5
def LogKind.defer : Nat := 6
def LogKind.reinsert : Nat := 7
def LogKind.dedup : Nat := 8
def LogKind.aged : Nat := 9
def LogKind.staleDraw : Nat := 10
def LogKind.logEnd : Nat := 11

/-- The bytes of a record (R582). -/
def LogRec.bytes (r : LogRec) : List Byte := leBytes 1 r.kind ++ zeros 3 ++ leBytes 4 r.body.length ++ leBytes 8 r.tick ++ r.body

/-- A field of a record's body. -/
def LogRec.get (r : LogRec) (o n : Nat) : Nat := leAt r.body o n

/-- A log changed. -/
def Dev.modLog (d : Dev) (id : Nat) (f : Log → Log) : Dev := { d with group := { d.group with logs := AMap.mod d.group.logs id f } }

/-- Whether a stream's epoch is being recorded. -/
def Stream.recording (st : Stream) : Bool := match st.log with | some (_, r) => r | none => false

/-- Whether an epoch runs in recorded form: it is recorded, or it is a replay (R580, R584). -/
def Stream.recordedForm (st : Stream) : Bool := st.recording || st.replayOf.isSome

/-- A record raised for a stream that is recorded (R582). -/
def Dev.logRec (d : Dev) (sid kind : Nat) (body : List Byte) : Dev :=
  match (AMap.get? d.streams sid).bind Stream.log with
  | some (id, true) => d.modLog id (fun l => { l with records := l.records ++ [{ kind := kind, tick := d.tick.count, body := body }] })
  | _ => d

/-- As `logRec`, of an Open-mode epoch only (R580). -/
def Dev.logOpen (d : Dev) (sid kind : Nat) (body : List Byte) : Dev :=
  if ((AMap.get? d.streams sid).map Stream.mode).getD true then d else d.logRec sid kind body

/-- The records of the log that a replay stream runs. -/
def Dev.replayRecs (d : Dev) (st : Stream) : List LogRec :=
  ((st.replayOf.bind (AMap.get? d.group.logs)).map Log.records).getD []

/-- Whether a stream replays an Open-mode log (R585). -/
def Stream.replaysOpen (st : Stream) : Bool := st.replayOf.isSome && !st.mode

/-- Whether an op of a stream's epoch runs its exact variant (R204, R580). -/
def Stream.runsExact (st : Stream) (o : OpRec) : Bool := o.exactAlt && (st.mode || (st.recordedForm && o.isAnvil))

/-- The draw at which a position comes up, from the draws yet to come (R459). -/
def Stream.seekDraw (fuel : Nat) (pos : Nat) (st : Stream) : Nat :=
  match fuel with
  | 0 => st.draws
  | f + 1 => match st.drawNext with
    | none => st.draws
    | some (p, st') => if p = pos then st.draws else Stream.seekDraw f pos st'

/-- DRAW of a position: its draw index, or the draws made so far of a live-ingest stream (R582). -/
def Stream.drawOf (st : Stream) (pos : Nat) : Nat :=
  match st.deferred.find? (fun x => x.pos == pos) with
  | some x => x.draw
  | none => if st.ingest.isSome then st.draws else Stream.seekDraw (st.size - st.draws) pos st

/-- The result that the log of a replay gives a dedup op for a sample: its DEDUP record; for a live-ingest stream, whose records carry no
position, the record in the place of the sample's sequence among those of the op. -/
def Dev.replayDedup (d : Dev) (st : Stream) (pos op : Nat) : Option Bool :=
  let rs := (d.replayRecs st).filter (fun r => r.kind == LogKind.dedup && r.get 8 2 == op)
  let r := if st.ingest.isSome then rs[pos]? else rs.find? (fun r => r.get 0 8 == st.drawOf pos)
  r.map (fun r => r.get 10 1 == 1)

/-- The compressor context of a new log (R581). -/
def Log.freshCtx : CmpCtx := CmpCtx.fresh 20 OwnerClass.hearth 0

/-- The records raised in a tick written to the stream and flushed (R309, R581). -/
def Dev.flushLog (d : Dev) (id : Nat) : Dev :=
  match AMap.get? d.group.logs id with
  | none => d
  | some l =>
    let new := l.records.drop l.fed
    let (d, c) := d.cmpFeed l.ctx (new.flatMap LogRec.bytes)
    let (d, c) := d.cmpFlush c
    d.modLog id (fun l => { l with ctx := c, fed := l.records.length })

/-- Bytes of every log: what dataset 0xFFFD holds (R581). -/
def Dev.logBytes (d : Dev) : Nat := sumNat (d.group.logs.map (fun p => p.2.ctx.out.length))

end Sys2Proof.Machine
end

