-- ==== Sys2Proof/Machine/Work.lean ====
section
/-!
DEFINITION. Machine/Work.lean: work items: their kinds, predicted costs, queues on units, and the marks of carries (R22 to R28, R54, R65, R186, R204, R429).
-/
namespace Sys2Proof.Machine

/-! ### Queues and kinds -/

/-- The queues that are no tenant's: the storage queue, and the reserves (R542). -/
def storageQueue : Nat := 1024
def peerQueue : Nat := 1026

/-- The kind of an op of a program slot, in its fast form or its exact variant (R204). -/
def opKind (slot op : Nat) (exact : Bool) : Nat := (slot * 65536 + op) * 2 + bitNat exact + 1

/-- The slot, op and form of a kind. -/
def kindSlot (k : Nat) : Nat := (k - 1) / 131072
def kindOp (k : Nat) : Nat := (k - 1) / 2 % 65536
def kindExact (k : Nat) : Bool := (k - 1) % 2 == 1

/-- The op record of a kind. -/
def Dev.kindRec (d : Dev) (k : Nat) : Option OpRec := (AMap.get? d.progs (kindSlot k)).bind (fun p => p.ops[kindOp k]?)

/-- The value that lpc fitted for a kind (R186). -/
def Dev.kindFitted (d : Dev) (k : Nat) : Nat :=
  match d.kindRec k with
  | none => 0
  | some o => if kindExact k then o.exactK else o.costK

/-- The coefficient k of a kind in force (R25). -/
def Dev.coef (d : Dev) (k : Nat) : Rat := AMap.getD d.tick.coefs k (d.kindFitted k : Rat)

/-- A predicted cost k × u / 65,536 µs, in ns, rounded up, at least 1 (R186). -/
def predictNs (k : Rat) (u : Nat × Nat) : Nat := max 1 (Rat.ceil (k * (u.1 : Rat) / (u.2 : Rat) * (1000 : Nat) / (65536 : Nat))).toNat

/-- The measured time of one unit of cost: the coefficient that would have predicted it. -/
def measuredCoef (ns : Nat) (u : Nat × Nat) : Rat := if u.1 = 0 then 0 else (ns : Rat) * (65536 : Nat) * (u.2 : Rat) / ((1000 : Nat) * (u.1 : Rat))

/-- The class of unit that runs a COST_CLASS (Table 05-3). -/
def classUnit (cls : Nat) : UnitClass :=
  if cls = 1 then .lane else if cls = 2 then .cell else if cls = 3 then .hammer else if cls = 6 then .wedge else if cls = 0 then .die else .swage

/-- The class of unit that runs an op. -/
def opUnit (opcode cls : Nat) : UnitClass := if cls = 5 then (if opcode / 256 = 5 then .screen else .swage) else classUnit cls

/-- The class of unit that holds an item. -/
def Dev.itemUnit (d : Dev) (i : Item) : UnitClass :=
  match d.kindRec i.kind with
  | some o => opUnit o.opcode i.cls
  | none => classUnit i.cls

/-- The period in ns. -/
def Dev.periodNs (d : Dev) : Nat := d.tick.periodUs * 1000

/-! ### The list of items -/

/-- An item by its id. -/
def Dev.item? (d : Dev) (id : Nat) : Option Item := d.tick.items.find? (fun i => i.id == id)

/-- An item changed. -/
def Dev.modItem (d : Dev) (id : Nat) (f : Item → Item) : Dev :=
  { d with tick := { d.tick with items := d.tick.items.map (fun i => if i.id = id then f i else i) } }

/-- Items changed. -/
def Dev.mapItems (d : Dev) (f : Item → Item) : Dev := { d with tick := { d.tick with items := d.tick.items.map f } }

/-- An item gone. -/
def Dev.dropItem (d : Dev) (id : Nat) : Dev := { d with tick := { d.tick with items := d.tick.items.filter (fun i => i.id != id) } }

/-- Whether an item holds units: it is in a plan, running or pending. -/
def Item.placed (i : Item) : Bool :=
  match i.phase with
  | .admitted | .running | .pending => true
  | _ => false

/-- Whether an item waits to be admitted. -/
def Item.waiting (i : Item) : Bool :=
  match i.phase with
  | .held | .reissue => true
  | _ => false

/-- A fresh item. -/
def Item.make (id queue : Nat) (job : Job) (cls kind op due order since cost : Nat) (measure : Nat × Nat) (dies : List (Nat × Nat)) : Item :=
  { id := id, queue := queue, job := job, cls := cls, kind := kind, measure := measure, cost := cost, dies := dies, due := due, op := op, order := order,
    since := since, tags := [], phase := .held, units := [], planStart := 0, planEnd := 0, planTick := 0, heat := 0, ringBound := false, ran := 0,
    startAt := 0, retry := false, probe := false, charged := 0, shape := 0, discard := false, out := none }

/-- A work item that becomes eligible; items carry the numbers of their creation. -/
def Dev.addItem (d : Dev) (queue : Nat) (job : Job) (cls kind op due cost : Nat) (measure : Nat × Nat) (dies : List (Nat × Nat)) : Nat × Dev :=
  let id := d.tick.nextItem
  let i := Item.make id queue job cls kind op due d.tick.nextOrder d.nextPlanTick cost measure dies
  (id, { d with tick := { d.tick with items := d.tick.items ++ [i], nextItem := id + 1, nextOrder := d.tick.nextOrder + 1 } })

/-! ### Units and their queues -/

/-- Whether two items share a unit. -/
def Dev.sharesUnit (d : Dev) (a b : Item) : Bool :=
  d.itemUnit a == d.itemUnit b && a.units.any (fun u => b.units.contains u)

/-- Whether item `a` comes before item `b` on a unit: items of one heat, and items of a die, run together. -/
def Item.before (a b : Item) : Bool :=
  if a.cls = 0 || a.cls = 4 then false
  else
    let ka := (if a.phase = .running then 0 else if a.phase = .pending then 1 else 2)
    let kb := (if b.phase = .running then 0 else if b.phase = .pending then 1 else 2)
    if ka ≠ kb then decide (ka < kb)
    else if a.planTick ≠ b.planTick then decide (a.planTick < b.planTick)
    else if a.planStart ≠ b.planStart then decide (a.planStart < b.planStart)
    else if a.cls = 2 then false
    else decide (a.order < b.order)

/-- Whether an item in a released plan can run: nothing before it holds its unit. -/
def Dev.canRun (d : Dev) (i : Item) : Bool :=
  d.tick.items.all (fun j => j.id == i.id || !(j.phase == .running || j.phase == .pending || (j.phase == .admitted && decide (j.planTick ≤ d.tick.count)))
    || !d.sharesUnit j i || !j.before i)

/-- Whether a cell that an item holds awaits its release (R391). -/
def Dev.awaitsRelease (d : Dev) (i : Item) : Bool := i.cls == 2 && i.units.any (fun c => d.tick.launch.contains c)

/-- Whether the drain of a tenant has stopped the start of its work (Table 16-7, step 2). -/
def Dev.queueStops (d : Dev) (q : Nat) : Bool :=
  match ((AMap.get? d.tenants q).bind Tenant.drain).bind Drain.b0 with
  | some b => decide (b ≤ d.tick.count)
  | none => false

/-- Whether the regions of an item's units take work: work that needs a region in a region reset waits (R77). -/
def Dev.unitsUp (d : Dev) (i : Item) : Bool := i.units.all (fun u => d.itemUnit i == .die || d.regionUp (d.regionOfUnit (d.itemUnit i) u))

/-- Whether an item of a BLOCK or REGION op has found no unit that it can take. -/
def Item.unplaced (i : Item) : Bool := i.units.isEmpty && (i.cls == 5 || i.cls == 6)

/-- Items of the released plan, and pending ones, that can start do so at `at_` ns after the boundary. -/
def Dev.startItems (d : Dev) (at_ : Nat) : Dev :=
  d.tick.items.foldl (fun d i =>
    if (i.phase = .pending || (i.phase = .admitted && decide (i.planTick ≤ d.tick.count))) && !d.awaitsRelease i && !i.unplaced && d.unitsUp i && !d.queueStops i.queue && d.canRun i then
      d.modItem i.id (fun i => { i with phase := .running, ran := 0, startAt := at_ })
    else d) d

/-- The time for which an item has run at `at_` ns after the boundary. -/
def Item.runFor (i : Item) (at_ : Nat) : Nat := i.ran + (at_ - i.startAt)

/-- Whether unit `i` of a class may take a probe: it, or its block, is demoted and due one, and nothing else keeps it from work (R65). -/
def Dev.probeable (d : Dev) (c : UnitClass) (i : Nat) : Bool :=
  let ok := fun (r : UnitRec) => !r.gated && !r.ungating && (r.service == .inService || (r.service == .demoted && r.probeDue))
  let u := d.unit c i
  let b := d.unit .block (blockOfUnit c i)
  let inBlock := match c with | .cell | .lane | .swage | .screen => true | _ => false
  d.unitIn c i && ok u && (!inBlock || ok b) && d.regionUp (d.regionOfUnit c i) && (u.service == .demoted || (inBlock && b.service == .demoted))

/-- A probe given to unit `i` of a class: neither it nor its block is due another before the next 64 ticks have passed (R65). -/
def Dev.takeProbe (d : Dev) (c : UnitClass) (i : Nat) : Dev :=
  let d := d.modUnit c i (fun r => { r with probeDue := false })
  match c with
  | .cell | .lane | .swage | .screen => d.modUnit .block (blockOfUnit c i) (fun r => { r with probeDue := false })
  | _ => d

/-- The unit that a BLOCK or REGION op of a sample takes: the placeable one of the producer's block or region whose queue is shortest, the
lowest index on a tie; else any placeable one (R54, R429). -/
def Dev.directUnit (d : Dev) (c : UnitClass) (near : Option Nat) (region : Nat) : Option Nat :=
  let all := d.placeables c
  let inRegion := all.filter (fun u => d.regionOfUnit c u == region)
  let pick := match near with
    | some b => if all.contains b && c != .wedge then [b] else if inRegion.isEmpty then all else inRegion
    | none => if inRegion.isEmpty then all else inRegion
  argMin (fun u => sumNat ((d.tick.items.filter (fun i => i.placed && d.itemUnit i == c && i.units.contains u)).map Item.cost)) pick

/-! ### Latency (R65, R66) -/

/-- A ratio of measured to predicted time, in thousandths. -/
def LatSample.ratio (l : LatSample) : Nat := 1000 * l.measured / max 1 l.predicted

/-- A unit's latency ratio in thousandths, doubled: the median of its items of the last 64 ticks (R65). -/
def UnitRec.ratioTwice (u : UnitRec) : Nat := medianTwice (u.lat.map LatSample.ratio)

/-- The median ratio of the in-service units of a class, in thousandths, times 4. -/
def Dev.classRatio4 (d : Dev) (c : UnitClass) : Nat :=
  medianTwice (((List.range (d.unitCount c)).filter (fun u => d.unitIn c u && !(d.unit c u).lat.isEmpty)).map (fun u => (d.unit c u).ratioTwice))

/-- A completed item noted on the unit that ran it (R65). -/
def Dev.noteLatency (d : Dev) (c : UnitClass) (u measured predicted : Nat) (probe : Bool) : Dev :=
  let l : LatSample := { tick := d.tick.count, measured := measured, predicted := predicted }
  d.modUnit c u (fun r => { r with
    lat := (l :: r.lat).filter (fun x => decide (d.tick.count < x.tick + 64))
    probes := if probe then (l :: r.probes).take 4 else r.probes })

/-- The trouble bit of a limping unit (R65). -/
def Dev.limpBit (d : Dev) (c : UnitClass) (u : Nat) : Dev :=
  match c with
  | .cell => d.cellTrouble (u / 16) CellBit.limp
  | .lane | .swage | .screen | .block => d.blockTrouble (d.regionOfUnit c u) BlockBit.limp
  | .wedge => d.blockTrouble (u / 8) BlockBit.wedgeLimp
  | .hammer => d.blockTrouble u BlockBit.hammerLimp
  | .die => d

/-- The state of a die, changed. -/
def Dev.setDie (d : Dev) (n : Nat) (s : DieState) : Dev :=
  { d with face := { d.face with dies := AMap.mod d.face.dies n (fun x => { x with state := s }) } }

/-- A unit demoted: its bit, and for a die its counter and event (R65, Table 06-3). -/
def Dev.demote (d : Dev) (c : UnitClass) (u : Nat) : Dev :=
  let r := (d.unit c u).ratioTwice / 2
  let d := d.modUnit c u (fun x => { x with service := .demoted, lastProbe := d.tick.count, probes := [] })
  let d := (d.limpBit c u).count Counter.limpDemote (if c = .die then 0 else d.regionOfUnit c u) (if c = .die then 0 else 1)
  if c = .die then ((d.setDie u .demoted).count Counter.dieDemote 0 1).event adminWin EventCode.dieDemoted 0 [(20, 2, u), (24, 4, r)] else d

/-- Whether a unit is limping (R65). -/
def Dev.limping (d : Dev) (c : UnitClass) (u : Nat) : Bool :=
  let x := d.unit c u
  x.service == .inService && !x.gated && decide (16 ≤ x.lat.length) && decide (3 * d.classRatio4 c < 2 * x.ratioTwice)

/-- Samples older than 64 ticks forgotten, and limping units demoted (R65). -/
def Dev.limpBoundary (d : Dev) : Dev :=
  let recs : AMap UnitRec := AMap.mapKV (fun _ (r : UnitRec) => { r with lat := r.lat.filter (fun x => decide (d.tick.count < x.tick + 64)) }) d.units.recs
  let d : Dev := { d with units := { d.units with recs := recs } }
  let bad := d.units.recs.filter (fun p => d.limping (UnitClass.ofCode (p.1 / 65536)) (p.1 % 65536))
  bad.foldl (fun d p => d.demote (UnitClass.ofCode (p.1 / 65536)) (p.1 % 65536)) d

/-- A demoted unit whose last 4 probes are fast enough returns to service (R66). -/
def Dev.limpRecover (d : Dev) (c : UnitClass) (u : Nat) : Dev :=
  let x := d.unit c u
  if x.service = .demoted && x.probes.length = 4 &&
      decide (4 * medianTwice (x.probes.map LatSample.ratio) ≤ 3 * d.classRatio4 c) then
    let d := d.modUnit c u (fun r => { r with service := .inService, probes := [], probeDue := false })
    if c = .die then d.setDie u .inService else d
  else d

/-- LIMP_PROBE: every 64 ticks a demoted unit is due one probe work item (R65). -/
def Dev.limpProbe (d : Dev) (key : Nat) : Dev :=
  let c := UnitClass.ofCode (key / 65536)
  let u := key % 65536
  let x := d.unit c u
  if x.service = .demoted && decide (x.lastProbe + 64 ≤ d.tick.count) then
    d.modUnit c u (fun r => { r with lastProbe := d.tick.count, probeDue := true })
  else d

/-- LIMP_PROBE (R65). -/
def execLimpProbe (unit : Nat) (s : State) : Out := s.onRunning (fun d => d.limpProbe unit)

end Sys2Proof.Machine
end

