-- ==== Sys2Proof/Machine/Assembly.lean ====
section
/-!
DEFINITION. Machine/Assembly.lean: samples skipped, assembly, buckets and ages, closed billets, deferral and the Open-mode trial (R31 to R43, R290 to R292, R405, R463 to R474).
-/
namespace Sys2Proof.Machine

/-! ### Samples of a stream -/

/-- A stream by its id. -/
def Dev.stream? (d : Dev) (sid : Nat) : Option Stream := AMap.get? d.streams sid

/-- The program of a stream. -/
def Dev.progOfStream (d : Dev) (st : Stream) : Option Prog := AMap.get? d.progs st.slot

/-- A sample of a stream changed. -/
def Dev.modSample (d : Dev) (sid pos : Nat) (f : Sample → Sample) : Dev :=
  d.modStream sid (fun st => { st with samples := AMap.mod st.samples pos f })

/-- A sample not started. -/
def Sample.make (index due : Nat) : Sample := { index := index, state := .flight, outs := [], marks := 0, capture := 0, done := [], due := due, dirHeld := false }

/-- Whether a sample is decided: skipped, screened out or passed over. -/
def Sample.decided (s : Sample) : Bool :=
  match s.state with
  | .corrupt _ | .screened => true
  | _ => false

/-- Whether position `pos` is decided. -/
def Stream.decidedAt (st : Stream) (pos : Nat) : Bool := ((AMap.get? st.samples pos).map Sample.decided).getD false

/-- Whether the sample at `pos` is resident. -/
def Stream.residentAt (st : Stream) (pos : Nat) : Bool := ((AMap.get? st.samples pos).map Sample.isResident).getD false

/-- Whether position `pos` is on the deferred list. -/
def Stream.isDeferred (st : Stream) (pos : Nat) : Bool := st.deferred.any (fun x => x.pos == pos)

/-- DEFERRED_NOW: the deferred samples of a tenant (R43). -/
def Dev.deferredNow (d : Dev) (t : Nat) : Nat := sumNat ((d.streamsOf t).map (fun p => p.2.deferred.length))

/-- The counter of a corrupt-sample reason (Table 07-10). -/
def corruptCounter (reason : Nat) : Nat :=
  if reason < 0x10 then Counter.corruptContainer
  else if reason < 0x20 then Counter.corruptImage
  else if reason < 0x30 then Counter.corruptCompressed
  else if reason < 0x38 then Counter.corruptAudio
  else if reason < 0x50 then Counter.corruptText
  else Counter.corruptOther

/-- SAMPLE_CORRUPT, at most 16 for a stream in a tick (R292). -/
def Dev.corruptEvent (d : Dev) (sid : Nat) (st : Stream) (index reason op offset : Nat) : Dev :=
  if st.corruptThisTick < 16 then
    let d := d.modStream sid (fun x => { x with corruptThisTick := x.corruptThisTick + 1 })
    d.event st.tenant EventCode.sampleCorrupt sid
      [(20, 2, st.datasetId), (22, 1, reason), (24, 6, index), (30, 2, op), (32, 3, st.epoch), (36, 8, offset)]
  else d.count Counter.corruptEventsSuppressed st.tenant 1

/-- The ops up to WINDOW_PUT that take the output of op `j`, an op that takes it as both inputs counted twice. -/
def Prog.consumers (p : Prog) (j : Nat) : List Nat :=
  (List.range (windowIndex p.ops + 1)).flatMap (fun k => match p.ops[k]? with
    | some o => (if o.inA = j then [k] else []) ++ (if o.inB = j then [k] else [])
    | none => [])

/-- Buffers DROPped `n` times. -/
def Dev.dropTimes (d : Dev) (n : Nat) (bufs : List Nat) (cls tenant : Nat) : Dev := (List.range n).foldl (fun d _ => d.dropBufs bufs cls tenant) d

/-- A sample's buffers DROPped: once for each op that has yet to take them, once for a resident sample. -/
def Dev.dropOuts (d : Dev) (st : Stream) (s : Sample) : Dev :=
  s.outs.foldl (fun d o =>
    let n := if s.isResident then 1
      else match d.progOfStream st with
        | some p => (p.consumers o.op).countP (fun k => !s.done.contains k)
        | none => 1
    d.dropTimes n o.bufs OwnerClass.window st.tenant) d

/-- The sample at `pos` leaves the pipeline: its buffers go, its items' results are discarded, and it leaves the deferred list (R36, R290). -/
def Dev.leaveSample (d : Dev) (sid pos : Nat) (state : SampleState) : Dev :=
  match d.stream? sid with
  | none => d
  | some st =>
    let s := AMap.getD st.samples pos (Sample.make (st.indexOf pos) 0)
    let d := d.dropOuts st s
    let d := d.mapItems (fun i => match i.job with | .sample a b _ => if a = sid && b = pos then { i with discard := true } else i | _ => i)
    d.modStream sid (fun st => { st with
      samples := AMap.set st.samples pos { s with state := state, outs := [] }
      deferred := st.deferred.filter (fun x => x.pos != pos) })

/-- A corrupt sample skipped (R36, R37, R290). -/
def Dev.skipCorrupt (d : Dev) (sid pos reason op offset : Nat) : Dev :=
  match d.stream? sid with
  | none => d
  | some st =>
    let d := d.leaveSample sid pos (.corrupt reason)
    let d := d.writeStream sid (fun x => { x with eSkip := x.eSkip + 1 })
    let d := (d.count Counter.skipCorrupt st.tenant 1).count (corruptCounter reason) st.tenant 1
    d.corruptEvent sid st (st.indexOf pos) reason op offset

/-- A sample screened out (R405), or a frame passed over as stale (R531). -/
def Dev.skipScreened (d : Dev) (sid pos counter : Nat) : Dev :=
  match d.stream? sid with
  | none => d
  | some st => (d.leaveSample sid pos .screened).count counter st.tenant 1

/-! ### Closing a billet (R466, R575, R514) -/

/-- An open billet. -/
def Billet.opened (bucket hammer draws : Nat) : Billet :=
  { num := 0, bucket := bucket, samples := [], segments := [], rows := [], hammer := hammer, ageTicks := 0, oldDraws := draws, aged := false,
    isPartial := false, isLast := false, packLeft := 0, digest := [], closeTick := 0, res := none }

/-- The reservoir that billet `k` is dealt to (R474). -/
def Stream.dealtTo (st : Stream) (k : Nat) : Option Nat := st.dealing[k % max 1 st.dealing.length]?

/-- lbar follows the length of a billet dealt to a reservoir when it closes (R514). -/
def Dev.followLength (d : Dev) (key len : Nat) : Dev :=
  { d with haul := { d.haul with reservoirs := AMap.mod d.haul.reservoirs key (fun r => { r with lbar := roundBin64 (r.lbar + ((len : Rat) - r.lbar) / (16 : Nat)) }) } }

/-- The open billet of a bucket closes (R466). -/
def Dev.closeBillet (d : Dev) (sid bucket : Nat) (isPartial aged last : Bool) : Dev :=
  match d.stream? sid with
  | none => d
  | some st =>
    match st.open_.find? (fun b => b.bucket == bucket), d.progOfStream st with
    | some b, some p =>
      let k := st.nextBillet
      let b1 : Billet := { b with num := k, res := st.dealtTo k, isPartial := isPartial, aged := aged, isLast := last, closeTick := d.tick.count }
      let dig := sha256 (st.digest ++ b1.canonical sid st p)
      let b2 : Billet := { b1 with digest := dig }
      let d := d.writeStream sid (fun x => { x with
        open_ := x.open_.filter (fun c => c.bucket != bucket), closed := x.closed ++ [b2], nextBillet := k + 1, digest := dig })
      let d := d.count Counter.billetClosed st.tenant 1
      let d := if isPartial then d.count Counter.billetPartial st.tenant 1 else d
      let d := if aged then
          (d.count Counter.billetAged st.tenant 1).logOpen sid LogKind.aged (leBytes 8 st.draws ++ leBytes 1 bucket ++ zeros 7 ++ leBytes 8 k)
        else d
      match st.dealtTo k with
      | none => d
      | some r =>
        let key := resKey st.tenant r
        d.followLength key (b2.totalLen (((AMap.get? d.haul.reservoirs key).map Reservoir.fmt).getD 0x0201) p)
    | _, _ => d

/-- A billet of a stream, open or closed, changed: open ones by bucket. -/
def Dev.modOpen (d : Dev) (sid bucket : Nat) (f : Billet → Billet) : Dev :=
  d.modStream sid (fun st => { st with open_ := st.open_.map (fun b => if b.bucket = bucket then f b else b) })

/-- A closed billet changed. -/
def Dev.modClosed (d : Dev) (sid num : Nat) (f : Billet → Billet) : Dev :=
  d.modStream sid (fun st => { st with closed := st.closed.map (fun b => if b.num = num then f b else b) })

/-! ### Placing a sample (R465, R468 to R472) -/

/-- The Hammer on which a billet is packed: the one whose timeline ends earliest (R24, R469). -/
def Dev.chooseHammer (d : Dev) : Nat :=
  (argMin (fun h => sumNat ((d.tick.items.filter (fun i => i.placed && i.cls == 3 && i.units.contains h)).map Item.cost)) (d.placeables .hammer)).getD 0

/-- The open billet of a bucket, opened if there is none (R469). -/
def Dev.openBillet (d : Dev) (sid bucket : Nat) : Dev :=
  match d.stream? sid with
  | none => d
  | some st =>
    if st.open_.any (fun b => b.bucket == bucket) then d
    else
      let h := d.chooseHammer
      d.modStream sid (fun st => { st with open_ := insertByKey Billet.bucket (Billet.opened bucket h st.draws) st.open_ })

/-- A work item on a Hammer for one sample: BUCKET, then PACK (R469). -/
def Dev.addHammerItem (d : Dev) (sid num pos hammer opIdx due tokens : Nat) : Dev :=
  match d.stream? sid with
  | none => d
  | some st =>
    match (d.progOfStream st).bind (fun p => p.ops[opIdx]?) with
    | none => d
    | some o =>
      let kind := opKind st.slot opIdx (st.runsExact o)
      let u := if o.opcode = Op.packSequence then (tokens, 1000) else (1, 1)
      let (id, d) := d.addItem st.tenant (.pack sid num pos) 3 kind opIdx due (predictNs (d.coef kind) u) u []
      d.modItem id (fun i => { i with units := [hammer] })

/-- A billet's number as its PACK items carry it: the one it will close with is not known, so its bucket and the position of its sample name it.
They are due in the tick in which the sample is drawn. -/
def Dev.packItem (d : Dev) (sid bucket pos tokens : Nat) : Dev :=
  match d.stream? sid with
  | none => d
  | some st =>
    match d.progOfStream st, st.open_.find? (fun b => b.bucket == bucket) with
    | some p, some b =>
      match p.opOf Op.bucket, p.packOp with
      | some (i, _), _ => d.addHammerItem sid bucket pos b.hammer i d.tick.count tokens
      | none, some (i, _) => d.addHammerItem sid bucket pos b.hammer i d.tick.count tokens
      | none, none => d
    | _, _ => d

/-- A sample placed in the open billet of its bucket, with its segments already there (R471, R472). -/
def Dev.putSample (d : Dev) (sid bucket pos flags tokens : Nat) (o : OpOut) (index : Nat) : Dev :=
  let d := d.modOpen sid bucket (fun b => { b with
    samples := b.samples ++ [{ pos := pos, index := index, flags := flags, value := o.value, bufs := o.bufs, tokens := tokens : Placed }]
    packLeft := b.packLeft + 1 })
  let d := { d with tongs := (d.handBufs o.bufs OwnerClass.hammer).tongs }
  let d := d.modSample sid pos (fun s => { s with state := .taken, outs := [] })
  d.packItem sid bucket pos tokens

/-- PACK_TENSOR takes a sample (R471). -/
def Dev.packTensor (d : Dev) (sid bucket pos flags : Nat) (p : Prog) (o : OpOut) (index : Nat) : Dev :=
  let n := match p.opOf Op.packTensor with | some (_, r) => leAt r.params 0 4 | none => 1
  let lensOf := fun (d : Dev) => match (d.stream? sid).bind (fun st => st.open_.find? (fun b => b.bucket == bucket)) with
    | some b => b.samples.map (fun s => s.value.data.length)
    | none => []
  let l := o.value.data.length
  let d := if lensOf d ≠ [] && decide (p.packMax < tensorLen (lensOf d ++ [l])) then d.closeBillet sid bucket false false false else d
  let d := (d.openBillet sid bucket).putSample sid bucket pos flags 0 o index
  if n ≤ (lensOf d).length then d.closeBillet sid bucket false false false else d

/-- PACK_SEQUENCE takes a sample (R472). -/
def Dev.packSequence (d : Dev) (sid bucket pos flags : Nat) (p : Prog) (o : OpOut) (index : Nat) : Dev :=
  let tenant := ((d.stream? sid).map Stream.tenant).getD 0
  let all := o.value.bucketSize
  let n := min all (p.rows * p.rowTokens)
  let d := if n < all then d.count Counter.packTruncated tenant 1 else d
  let flags := if n < all then flags + SampleFlag.trunc else flags
  let place := fun (d : Dev) => match (d.stream? sid).bind (fun st => st.open_.find? (fun b => b.bucket == bucket)) with
    | none => none
    | some b => (b.placeTokens n p.rowTokens p.rows).map (fun c => d.modOpen sid bucket (fun _ => c))
  let d := d.openBillet sid bucket
  let d := match place d with
    | some d => d
    | none =>
      let d := (d.closeBillet sid bucket false false false).openBillet sid bucket
      (place d).getD d
  let d := d.putSample sid bucket pos flags n o index
  match (d.stream? sid).bind (fun st => st.open_.find? (fun b => b.bucket == bucket)) with
  | some b => if b.sequenceFull p.rows then d.closeBillet sid bucket false false false else d
  | none => d

/-- The resident sample at `pos` is taken into a billet, with the flags that its taking gives it (R463, R41). -/
def Dev.takeSample (d : Dev) (sid pos extra : Nat) : Dev :=
  match d.stream? sid with
  | none => d
  | some st =>
    match AMap.get? st.samples pos, d.progOfStream st with
    | some s, some p =>
      match s.outs with
      | [] => d
      | o :: _ =>
        let flags := extra + (if st.mode then SampleFlag.exact else 0) + 8 * (s.marks % 4) + (if st.ingest.isSome then SampleFlag.live else 0)
        let index := st.indexOf pos
        let d := d.modStream sid (fun x => { x with taken := x.taken + 1, deferred := x.deferred.filter (fun y => y.pos != pos) })
        if p.sequences then d.packSequence sid (p.bucketOf o.value) pos flags p o index
        else if p.packMax < tensorLen [o.value.data.length] then
          d.skipCorrupt sid pos Reason.outMaxExceeded ((p.packOp.map Prod.fst).getD 0) (Config.failOffset Op.packTensor o.value.data)
        else d.packTensor sid (p.bucketOf o.value) pos flags p o index
    | _, _ => d

/-- A taken sample counted as a substitute or a re-insertion (R31, R33). -/
def Dev.countTaken (d : Dev) (sid extra : Nat) : Dev :=
  match d.stream? sid with
  | none => d
  | some st =>
    if extra = SampleFlag.subst then (d.writeStream sid (fun x => { x with eSubst := x.eSubst + 1 })).count Counter.subst st.tenant 1
    else if extra = SampleFlag.deferred then (d.writeStream sid (fun x => { x with eReinsert := x.eReinsert + 1 })).count Counter.reinsert st.tenant 1
    else d

/-- A sample taken and counted. -/
def Dev.takeCounted (d : Dev) (sid pos extra : Nat) : Dev := (d.takeSample sid pos extra).countTaken sid extra

/-! ### Ages (R470) -/

/-- Whether a stream's billets age in draws: its epoch runs the exact variant of BUCKET. -/
def agesInDraws (st : Stream) (p : Prog) : Bool := st.mode && ((p.opOf Op.bucket).map (fun x => x.2.exactAlt)).getD false

/-- Billets that the log of a replay closes by age at this point of the draw sequence (R584). -/
def Dev.closeLogged (fuel : Nat) (sid : Nat) (d : Dev) : Dev :=
  match fuel with
  | 0 => d
  | f + 1 => match d.stream? sid with
    | none => d
    | some st =>
      match (d.replayRecs st).find? (fun r => r.kind == LogKind.aged && r.get 0 8 == st.draws && r.get 16 8 == st.nextBillet) with
      | none => d
      | some r => if st.open_.any (fun b => b.bucket == r.get 8 1) then Dev.closeLogged f sid (d.closeBillet sid (r.get 8 1) true true false) else d

/-- Open billets whose age has reached AGE_LIMIT close with AGED and PARTIAL. -/
def Dev.closeAged (d : Dev) (sid : Nat) : Dev :=
  match d.stream? sid with
  | none => d
  | some st =>
    match d.progOfStream st with
    | none => d
    | some p => match p.ageLimit with
      | none => d
      | some lim =>
        let age := fun (b : Billet) => if agesInDraws st p then st.draws - b.oldDraws else b.ageTicks
        (st.open_.filter (fun b => decide (lim ≤ age b))).foldl (fun d b => d.closeBillet sid b.bucket true true false) d

/-- A boundary passed over the open billets of a RUNNING stream: ages in ticks advance and are checked (R470, R484). -/
def Dev.ageTick (d : Dev) (sid : Nat) : Dev :=
  match d.stream? sid with
  | none => d
  | some st =>
    if st.state != .running then d
    else
      let d := d.modStream sid (fun x => { x with open_ := x.open_.map (fun b => { b with ageTicks := b.ageTicks + 1 }) })
      match d.progOfStream st with
      | some p => if agesInDraws st p || st.replaysOpen then d else d.closeAged sid
      | none => d

/-! ### Assembly (R463, R465, R531) -/

/-- The PTP time of the boundary that began the running tick, in ns, while the device holds PTP time (R18, R593). -/
def Dev.boundaryPtp (d : Dev) : Option Nat :=
  if d.tick.source != 2 then none
  else d.group.base.map (fun b => b.1 + (d.tick.count - b.2) * d.periodNs)

/-- Whether the frame at `pos` is stale at this tick's boundary (R529, R531). -/
def Dev.staleAtDraw (d : Dev) (sid : Nat) (st : Stream) (pos : Nat) : Bool :=
  let bound := d.param ParamId.stalenessUs sid
  if st.ingest.isNone || bound = 0 then false
  else match d.boundaryPtp, AMap.get? st.samples pos with
    | some now, some s => decide (bound * 1000 < now - s.capture)
    | _, _ => false

/-- Draws of an epoch that are neither decided nor taken. -/
def Stream.drawsLeft (st : Stream) : Nat := if st.ingest.isSome then st.ingestWindow.length else st.size - st.draws

/-- A deferred sample re-inserted (R33, R465). -/
def Dev.reinsert (d : Dev) (sid : Nat) (x : Deferred) : Dev :=
  let taken := ((d.stream? sid).map Stream.taken).getD 0
  (d.logOpen sid LogKind.reinsert (leBytes 8 x.draw ++ leBytes 8 taken)).takeCounted sid x.pos SampleFlag.deferred

/-- Deferred samples that are resident, in the order they were deferred, are placed ahead of any draw (R33, R465). -/
def Dev.placeDeferred (d : Dev) (sid : Nat) : Dev :=
  match d.stream? sid with
  | none => d
  | some st => if st.replaysOpen then d else (st.deferred.filter (fun x => st.residentAt x.pos)).foldl (fun d x => d.reinsert sid x) d

/-- Ages in draws checked after a draw (R470), and the closes of a log that is replayed (R584). -/
def Dev.closeDraws (d : Dev) (sid : Nat) : Dev :=
  match d.stream? sid with
  | none => d
  | some st => match d.progOfStream st with
    | some p => if st.replaysOpen then Dev.closeLogged 64 sid d else if agesInDraws st p then d.closeAged sid else d
    | none => d

/-- Whether a drawn frame is passed over as stale: by its age, or by the log of a replay (R531, R584). -/
def Dev.passesStale (d : Dev) (sid : Nat) (st : Stream) (pos : Nat) : Bool :=
  if st.replaysOpen then (d.replayRecs st).any (fun r => r.kind == LogKind.staleDraw && r.get 0 8 == st.draws) else d.staleAtDraw sid st pos

/-- One draw considered (R463): the device when it was decided or taken, none when it blocks or none is left. -/
def Dev.drawStep (d : Dev) (sid extra : Nat) : Option Dev :=
  match d.stream? sid with
  | none => none
  | some st => match st.drawNext with
    | none => none
    | some (pos, st') =>
      if st.decidedAt pos then some ((d.writeStream sid (fun _ => st')).closeDraws sid)
      else if st.residentAt pos then
        let stale := d.passesStale sid st pos
        let d := d.writeStream sid (fun _ => st')
        if stale then some ((d.logOpen sid LogKind.staleDraw (leBytes 8 st.draws)).skipScreened sid pos Counter.ingestStaleAtDraw)
        else some ((d.takeCounted sid pos extra).closeDraws sid)
      else none

/-- Deferrals a tenant's list has room for (R32). -/
def deferredMax : Nat := 65536

/-- The sample at `pos` deferred (R32). -/
def Dev.deferSample (d : Dev) (sid pos draw : Nat) : Dev :=
  match d.stream? sid with
  | none => d
  | some st =>
    let x : Deferred := { pos := pos, epoch := st.epoch, tick := d.tick.count, stalls := 0, draw := draw }
    let d := d.writeStream sid (fun y => { y with deferred := y.deferred ++ [x], eDefer := y.eDefer + 1 })
    d.count Counter.defer st.tenant 1

/-- The billets that a trial recorded at a DEFER record was to close: those of the slots that the HEAD records before it made due, place `p` of
`r` holding billets p, p + r and so on (R474, R585). -/
def wantAt (recs : List LogRec) (r : Nat) : Nat :=
  maxNat ((List.range r).map (fun p =>
    let n := sumNat ((recs.filter (fun x => x.kind == LogKind.head && x.get 0 2 == p)).map (fun x => x.get 16 8))
    if n = 0 then 0 else p + (n - 1) * r + 1))

/-- One step of assembly in the replay of an Open-mode log (R585): a logged re-insertion, a logged deferral, or a draw; none when it blocks. -/
def Dev.replayStep (d : Dev) (sid : Nat) : Option Dev :=
  match d.stream? sid with
  | none => none
  | some st =>
    let recs := d.replayRecs st
    let due := st.deferred.find? (fun x => recs.any (fun r => r.kind == LogKind.reinsert && r.get 0 8 == x.draw && r.get 8 8 == st.taken))
    match due with
    | some x => if st.residentAt x.pos then some (d.reinsert sid x) else none
    | none =>
      match recs.findIdx? (fun r => r.kind == LogKind.defer && r.get 0 8 == st.draws), st.drawNext with
      | some i, some (pos, st') =>
        let want := wantAt (recs.take i) (max 1 st.dealing.length)
        let d := (d.writeStream sid (fun _ => st')).deferSample sid pos st.draws
        some (d.modStream sid (fun x => { x with owed := (if st.want = want then st.owed else 0) + 1, want := want }))
      | _, _ =>
        let owes := decide (0 < st.owed) && decide (st.nextBillet < st.want)
        match d.drawStep sid (if owes then SampleFlag.subst else 0) with
        | none => none
        | some d' =>
          let took := decide (st.taken < ((d'.stream? sid).map Stream.taken).getD 0)
          some (d'.modStream sid (fun x => { x with owed := if owes then (if took then st.owed - 1 else st.owed) else 0 }))

/-- Draws considered while none blocks. -/
def Dev.drawAll (fuel : Nat) (sid : Nat) (d : Dev) : Dev :=
  match fuel with
  | 0 => d
  | f + 1 =>
    if ((d.stream? sid).map Stream.replaysOpen).getD false then
      match d.replayStep sid with
      | none => d
      | some d => Dev.drawAll f sid d
    else match (d.placeDeferred sid).drawStep sid 0 with
      | none => d.placeDeferred sid
      | some d => Dev.drawAll f sid d

/-- Whether a live-ingest stream that is replayed has taken in every frame of a log whose epoch ended (R584). -/
def Dev.replayEnds (d : Dev) (st : Stream) (g : Ingest) : Bool :=
  let recs := d.replayRecs st
  st.replayOf.isSome && recs.any (fun r => r.kind == LogKind.logEnd && r.get 0 1 == 0) &&
  decide (recs.countP (fun r => r.kind == LogKind.frame) ≤ g.nextSeq)

/-- Whether an epoch has taken or decided its last draw, with nothing deferred (R467, R532). -/
def Dev.epochOver (d : Dev) (st : Stream) : Bool :=
  st.deferred.isEmpty &&
  (match st.ingest with
   | none => decide (st.size ≤ st.draws)
   | some g => (!g.closing.isEmpty || d.replayEnds st g) && st.samples.all (fun p => p.2.decided || p.2.state == .taken))
   && (st.ingest.isSome || AMap.has d.face.datasets st.dataset)

/-- The epoch's last billets close, in ascending bucket, with PARTIAL; the last of them carries LAST (R467). -/
def Dev.epochEnd (d : Dev) (sid : Nat) : Dev :=
  match d.stream? sid with
  | none => d
  | some st =>
    if st.state != .running || st.ended || !d.epochOver st then d
    else
      let bs := sortByKey id (st.open_.map Billet.bucket)
      let d := bs.foldl (fun d b => d.closeBillet sid b true false (some b == bs.getLast?)) d
      d.modStream sid (fun x => { x with ended := true })

/-- Assembly of a stream, as far as it goes (R463 to R467). It stops while the stream is PAUSED (R484). -/
def Dev.assemble (d : Dev) (sid : Nat) : Dev :=
  match d.stream? sid with
  | none => d
  | some st =>
    if st.state != .running || st.ended then d
    else (Dev.drawAll (st.drawsLeft + st.deferred.length + 1 + (d.replayRecs st).length) sid d).epochEnd sid

/-! ### The trial (R464) -/

/-- A trial until `want` billets of the epoch are closed, with `owed` deferrals not yet substituted: the device on which it stands, none when
it fails. -/
def Dev.trialFrom (fuel : Nat) (sid want owed : Nat) (d : Dev) : Option Dev :=
  match fuel with
  | 0 => none
  | f + 1 => match d.stream? sid with
    | none => none
    | some st =>
      if want ≤ st.nextBillet then some d
      else match d.drawStep sid (if 0 < owed then SampleFlag.subst else 0) with
        | some d' =>
          let took := decide (((d.stream? sid).map Stream.taken).getD 0 < ((d'.stream? sid).map Stream.taken).getD 0)
          Dev.trialFrom f sid want (if took then owed - 1 else owed) d'
        | none => match st.drawNext with
          | none => none
          | some (pos, st') =>
            if deferredMax ≤ d.deferredNow st.tenant then none
            else Dev.trialFrom f sid want (owed + 1) ((d.writeStream sid (fun _ => st')).deferSample sid pos st.draws)

/-- DEFER records of a committed trial: one for each draw deferred in it (R582). -/
def Dev.logTrial (d : Dev) (sid taken : Nat) (before : List Deferred) : Dev :=
  match d.stream? sid with
  | none => d
  | some st => (st.deferred.filter (fun x => !before.any (fun y => y.draw == x.draw))).foldl
      (fun d x => d.logOpen sid LogKind.defer (leBytes 8 x.draw ++ leBytes 8 taken)) d

/-- The Open-mode trial of a stream whose billets up to `want` are due (R464, R38): the device unchanged when it fails. -/
def Dev.trial (d : Dev) (sid want : Nat) : Dev :=
  match d.stream? sid with
  | none => d
  | some st =>
    if st.mode || st.replayOf.isSome || st.state != .running || want ≤ st.nextBillet then d
    else match Dev.trialFrom (st.drawsLeft + 1) sid want 0 (d.placeDeferred sid) with
      | none => d
      | some d' => d'.logTrial sid st.taken st.deferred

/-! ### DEFER_STALLED (R35) -/

/-- DEFER_STALLED of a deferred sample for which a further DEFER_LIMIT ticks have passed. -/
def Dev.deferStalled (d : Dev) (sid pos : Nat) : Dev :=
  match d.stream? sid with
  | none => d
  | some st => match st.deferred.find? (fun x => x.pos == pos) with
    | none => d
    | some x =>
      let lim := d.param ParamId.deferLimit st.tenant
      let age := d.tick.count - x.tick
      if age < lim * (x.stalls + 1) then d
      else
        let d := d.modStream sid (fun y => { y with deferred := y.deferred.map (fun z => if z.pos = pos then { z with stalls := z.stalls + 1 } else z) })
        d.event st.tenant EventCode.deferStalled sid
          [(20, 2, st.datasetId), (24, 6, st.indexOf pos), (32, 3, x.epoch), (36, 8, x.tick), (44, 8, age)]

/-- DEFER_STALLED (R35). -/
def execDeferStalled (stream pos : Nat) (s : State) : Out := s.onRunning (fun d => d.deferStalled stream pos)

end Sys2Proof.Machine
end

