-- ==== Sys2Proof/Machine/Png.lean ====
section
/-!
DEFINITION. Machine/Png.lean: DECODE_PNG (R278 to R281).
-/
namespace Sys2Proof.Machine

/-- A big-endian field of an input. -/
def inBe (a : Array Byte) (b n : Nat) : Nat := (List.range n).foldl (fun v i => 256 * v + inAt a (b + i)) 0

/-- What the chunks of a PNG file gave. -/
structure PngFile where
  width : Nat
  height : Nat
  depth : Nat
  ctype : Nat
  adam7 : Bool
  palette : List Byte
  trns : Option (List Byte)
  idat : List Byte
  /-- The input offset of each piece of the zlib stream: where it starts in the stream and in the input. -/
  pieces : List (Nat × Nat)
  /-- 0 before the IDAT chunks, 1 among them, 2 after them. -/
  phase : Nat
  chunks : Nat
  ancBytes : Nat

/-- Channels of a colour type. -/
def pngChannels (ctype : Nat) : Nat :=
  match ctype with
  | 2 => 3
  | 4 => 2
  | 6 => 4
  | _ => 1

/-- Channels of the output (R281). -/
def pngOutChannels (colour : Nat) (f : PngFile) : Nat :=
  match colour with
  | 0 => if f.ctype = 3 then (if f.trns.isSome then 4 else 3) else pngChannels f.ctype
  | 1 => 3
  | _ => 1

/-- The IHDR chunk, whose data start at `d`, under the checks of R278, R279 and Table 07-7. -/
def pngHeader (a : Array Byte) (d n maxW maxH : Nat) : Dec PngFile := do
  require (n == 13) Reason.pngSyntax (d - 8)
  let w := inBe a d 4
  let h := inBe a (d + 4) 4
  let depth := inAt a (d + 8)
  let ct := inAt a (d + 9)
  require (decide (1 ≤ w ∧ w < 2 ^ 31)) Reason.pngSyntax d
  require (decide (w ≤ maxW ∧ w ≤ 16384)) Reason.imageLimit d
  require (decide (1 ≤ h ∧ h < 2 ^ 31)) Reason.pngSyntax (d + 4)
  require (decide (h ≤ maxH ∧ h ≤ 16384)) Reason.imageLimit (d + 4)
  require (depth == 1 || depth == 2 || depth == 4 || depth == 8 || depth == 16) Reason.pngSyntax (d + 8)
  require (ct == 0 || ct == 2 || ct == 3 || ct == 4 || ct == 6) Reason.pngSyntax (d + 9)
  require (!(ct == 3 && depth == 16)) Reason.pngSyntax (d + 8)
  require (depth == 8 || (depth == 16 && ct != 3)) Reason.pngUnsupported (d + 8)
  require (inAt a (d + 10) == 0) Reason.pngUnsupported (d + 10)
  require (inAt a (d + 11) == 0) Reason.pngUnsupported (d + 11)
  require (decide (inAt a (d + 12) ≤ 1)) Reason.pngUnsupported (d + 12)
  .ok { width := w, height := h, depth := depth, ctype := ct, adam7 := inAt a (d + 12) == 1, palette := [], trns := none, idat := [],
        pieces := [], phase := 0, chunks := 1, ancBytes := 0 }

/-- The chunk at `p` (R279): what it adds, and where the next one starts, if it is not the last. -/
def pngChunk (a : Array Byte) (p : Nat) (f : PngFile) : Dec (PngFile × Option Nat) := do
  require (decide (f.chunks < 65536)) Reason.imageLimit p
  require (decide (p + 8 ≤ a.size)) Reason.pngSyntax p
  let n := inBe a p 4
  require (decide (n < 2 ^ 31 ∧ p + 12 + n ≤ a.size)) Reason.pngSyntax p
  let ty := inBytes a (p + 4) 4
  let anc := inAt a (p + 4) / 32 % 2 == 1
  let f := { f with chunks := f.chunks + 1, ancBytes := f.ancBytes + (if anc then n else 0) }
  require (decide (f.ancBytes ≤ 1048576)) Reason.imageLimit p
  let good := crc32 (inBytes a (p + 4) (n + 4)) == inBe a (p + 8 + n) 4
  require (good || anc) Reason.pngCrcBad (p + 8 + n)
  let next := some (p + 12 + n)
  if ty = asciiBytes "IEND" then .ok (f, none)
  else if ty = asciiBytes "IDAT" then do
    require (decide (f.phase < 2)) Reason.pngSyntax (p + 4)
    require (f.ctype != 3 || !f.palette.isEmpty) Reason.pngSyntax (p + 4)
    .ok ({ f with phase := 1, idat := f.idat ++ inBytes a (p + 8) n, pieces := f.pieces ++ [(f.idat.length, p + 8)] }, next)
  else if ty = asciiBytes "PLTE" then do
    require (n % 3 == 0 && decide (1 ≤ n ∧ n ≤ 768) && f.palette.isEmpty && f.phase == 0) Reason.pngSyntax p
    require (f.ctype != 0 && f.ctype != 4) Reason.pngSyntax (p + 4)
    .ok ({ f with palette := inBytes a (p + 8) n }, next)
  else if ty = asciiBytes "IHDR" then corrupt Reason.pngSyntax (p + 4)
  else if !anc then corrupt Reason.pngUnsupported (p + 4)
  else if ty = asciiBytes "tRNS" ∧ good ∧ f.ctype = 3 ∧ f.phase = 0 then .ok ({ f with trns := some (inBytes a (p + 8) n) }, next)
  else .ok ({ f with phase := if f.phase = 1 then 2 else f.phase }, next)

/-- The chunks from `p` on (R279), up to the last one or to the first that fails. -/
def pngChunks (fuel : Nat) (a : Array Byte) (p : Nat) (f : PngFile) : PngFile × Option Corrupt :=
  match fuel with
  | 0 => (f, some ⟨Reason.imageLimit, p⟩)
  | k + 1 =>
    if a.size ≤ p then (f, none)
    else match pngChunk a p f with
      | .error c => (f, some c)
      | .ok (f, none) => (f, none)
      | .ok (f, some q) => pngChunks k a q f

/-- The input offset of byte `i` of the zlib stream. -/
def pngOffset (f : PngFile) (i : Nat) : Nat :=
  match (f.pieces.filter (fun q => decide (q.1 ≤ i))).getLast? with
  | some q => q.2 + (i - q.1)
  | none => i

/-- The passes of an image: width, height, and the places of their pixels (start and step in x and in y). -/
def pngPasses (f : PngFile) : List (Nat × Nat × Nat × Nat × Nat × Nat) :=
  if f.adam7 then
    ([(0, 0, 8, 8), (4, 0, 8, 8), (0, 4, 4, 8), (2, 0, 4, 4), (0, 2, 2, 4), (1, 0, 2, 2), (0, 1, 1, 2)] : List (Nat × Nat × Nat × Nat)).map
      (fun (x0, y0, dx, dy) => (ceilDiv (f.width - x0) dx, ceilDiv (f.height - y0) dy, x0, y0, dx, dy))
  else [(f.width, f.height, 0, 0, 1, 1)]

/-- The bytes of the longest scanline of a file's passes, which the lane keeps of the line before (R261). -/
def pngWork (bs : List Byte) : Nat :=
  let a := bs.toArray
  match pngHeader a 16 (inBe a 8 4) 16384 16384 with
  | .error _ => 0
  | .ok f => maxNat ((pngPasses f).map (fun w => if w.2.1 = 0 then 0 else w.1 * (pngChannels f.ctype * f.depth / 8)))

/-- The Paeth predictor of ISO/IEC 15948. -/
def paeth (a b c : Nat) : Nat :=
  let p : Int := (a : Int) + b - c
  let pa := (p - a).natAbs
  let pb := (p - b).natAbs
  let pc := (p - c).natAbs
  if pa ≤ pb ∧ pa ≤ pc then a else if pb ≤ pc then b else c

/-- One scanline with its filter undone: `bpp` bytes a pixel, the previous line before it. -/
def pngUnfilter (ft bpp : Nat) (prev line : Array Byte) : Array Byte :=
  (List.range line.size).foldl (fun o i =>
    let x := inAt line i
    let l := if i < bpp then 0 else inAt o (i - bpp)
    let u := inAt prev i
    let c := if i < bpp then 0 else inAt prev (i - bpp)
    let v := match ft with
      | 0 => x
      | 1 => x + l
      | 2 => x + u
      | 3 => x + (l + u) / 2
      | _ => x + paeth l u c
    o.push (byteOf v)) #[]

/-- The scanlines of one pass from byte `p` of the inflated data. -/
def pngLines (n : Nat) (d : Array Byte) (bpp len p endOff : Nat) (prev : Array Byte) (acc : List (Array Byte)) :
    Dec (List (Array Byte) × Nat) :=
  match n with
  | 0 => .ok (acc.reverse, p)
  | k + 1 => do
    require (decide (p < d.size)) Reason.pngDataShort endOff
    require (decide (inAt d p ≤ 4)) Reason.pngFilterBad endOff
    require (decide (p + 1 + len ≤ d.size)) Reason.pngDataShort endOff
    let line := pngUnfilter (inAt d p) bpp prev (d.extract (p + 1) (p + 1 + len))
    pngLines k d bpp len (p + 1 + len) endOff line (line :: acc)

/-- The stored pixel bytes of the image, de-interlaced, `bpp` bytes a pixel. -/
def pngImage (f : PngFile) (d : Array Byte) (endOff : Nat) : Dec (Array Byte) := do
  let bpp := pngChannels f.ctype * f.depth / 8
  let start : Array Byte := (List.replicate (f.width * f.height * bpp) (0 : Byte)).toArray
  let (img, _) ← (pngPasses f).foldlM (fun (acc : Array Byte × Nat) (w, h, x0, y0, dx, dy) => do
    if w = 0 ∨ h = 0 then .ok acc
    else do
      let (lines, p) ← pngLines h d bpp (w * bpp) acc.2 endOff (List.replicate (w * bpp) (0 : Byte)).toArray []
      let img := (lines.zip (List.range h)).foldl (fun im (l, j) =>
        (List.range w).foldl (fun im i =>
          (List.range bpp).foldl (fun im k => im.setIfInBounds (((y0 + j * dy) * f.width + x0 + i * dx) * bpp + k) (l.getD (i * bpp + k) 0)) im) im) acc.1
      .ok (img, p)) (start, 0)
  .ok img

/-- The grey of an RGB sample (R277, R281). -/
def greyOf (r g b : Nat) : Nat := (19595 * r + 38470 * g + 7471 * b + 32768) / 65536

/-- The output samples of one stored pixel (R281). -/
def pngPixel (colour : Nat) (f : PngFile) (px : List Nat) : Dec (List Nat) :=
  let full : Dec (List Nat) :=
    if f.ctype = 3 then
      let i := px.getD 0 0
      if f.palette.length / 3 ≤ i then corrupt Reason.pngSyntax 0
      else
        let at3 (k : Nat) : Nat := (f.palette.getD (3 * i + k) 0).toNat
        .ok ([at3 0, at3 1, at3 2] ++ (match f.trns with
          | some t => [((t[i]?).map BitVec.toNat).getD 255]
          | none => []))
    else .ok px
  full.map (fun c =>
    let rgb := if f.ctype = 0 ∨ f.ctype = 4 then [c.getD 0 0, c.getD 0 0, c.getD 0 0] else c.take 3
    match colour with
    | 0 => c
    | 1 => rgb
    | _ => if f.ctype = 0 ∨ f.ctype = 4 then [c.getD 0 0] else [greyOf (rgb.getD 0 0) (rgb.getD 1 0) (rgb.getD 2 0)])

/-- Elements of `ch` samples a pixel in the LAYOUT of the op: 0 HWC, 1 CHW. -/
def layoutSamples (layout ch : Nat) (px : List (List Nat)) : List Nat :=
  if layout = 0 then px.flatten
  else ((List.range ch).map (fun c => px.map (fun p => p.getD c 0))).flatten

/-- The output of an image whose chunks gave `f` (R280, R281, R287). -/
def pngDecode (f : PngFile) (colour layout depth size outMax : Nat) : Dec Value := do
  let ch := pngOutChannels colour f
  let deep := f.depth == 16 && depth == 0
  let shape : Shape := { elem := if deep then .u16 else .u8, layout := if layout = 0 then .hwc else .chw, channels := ch,
                         colour := (match ch with | 1 => .grey | 2 => .greyAlpha | 3 => .rgb | _ => .rgba), width := f.width,
                         height := f.height, rate := 0 }
  require (decide (shape.byteLen ≤ outMax)) Reason.outMaxExceeded 16
  require (!f.idat.isEmpty) Reason.pngDataShort size
  let rawMax := ((pngPasses f).map (fun (w, h, _) => h * (1 + w * pngChannels f.ctype * f.depth / 8))).foldl (· + ·) 0
  let d ← (match zlibDecode f.idat.toArray (2 ^ 40 + rawMax) with
    | .ok d => .ok d
    | .error c => corrupt c.reason (pngOffset f c.offset) : Dec (Array Byte))
  let endOff := pngOffset f (f.idat.length - 1)
  let img ← pngImage f d endOff
  let bpp := pngChannels f.ctype * f.depth / 8
  let px ← (List.range (f.width * f.height)).mapM (fun i =>
    let stored := (List.range (pngChannels f.ctype)).map (fun c =>
      if f.depth = 16 then 256 * inAt img (i * bpp + 2 * c) + inAt img (i * bpp + 2 * c + 1) else inAt img (i * bpp + c))
    match pngPixel colour f stored with
    | .ok v => .ok v
    | .error c => corrupt c.reason endOff)
  let red (v : Nat) : Nat := if f.depth = 16 ∧ depth = 1 then (v + 128) / 257 else v
  .ok { shape := shape, data := ((layoutSamples layout ch px).map (fun v => leBytes (if deep then 2 else 1) (red v))).flatten }

/-- DECODE_PNG (R278 to R281) with the parameters of Table 05-4.
A chunk that fails after the image data is reported unless the image data fail at a lower offset (R289). -/
def decodePng (colour layout depth maxW maxH : Nat) (bs : List Byte) (outMax : Nat) : Dec Value := do
  let a := bs.toArray
  require (inBytes a 0 8 == [0x89, 0x50, 0x4E, 0x47, 0x0D, 0x0A, 0x1A, 0x0A] && decide (8 ≤ a.size)) Reason.pngUnsupported 0
  require (decide (20 ≤ a.size)) Reason.pngSyntax 8
  let n := inBe a 8 4
  require (decide (n < 2 ^ 31 ∧ 20 + n ≤ a.size)) Reason.pngSyntax 8
  require (inBytes a 12 4 == asciiBytes "IHDR") Reason.pngSyntax 12
  require (crc32 (inBytes a 12 (n + 4)) == inBe a (16 + n) 4) Reason.pngCrcBad (16 + n)
  let f0 ← pngHeader a 16 n maxW maxH
  match pngChunks (a.size + 1) a (20 + n) f0 with
  | (f, none) => pngDecode f colour layout depth a.size outMax
  | (f, some c) =>
    if f.phase = 0 then .error c
    else match pngDecode f colour layout depth a.size outMax with
      | .ok _ => .error c
      | .error e => if e.reason = Reason.truncated ∨ e.reason = Reason.pngDataShort ∨ c.offset ≤ e.offset then .error c else .error e

end Sys2Proof.Machine
end

