-- ==== Sys2Proof/Machine/Jpeg.lean ====
section
/-!
DEFINITION. Machine/Jpeg.lean: DECODE_JPEG (R272 to R277), with the inverse DCT in exact arithmetic (R275).
-/
namespace Sys2Proof.Machine

/-! ### Entropy-coded bits -/

/-- A place in entropy-coded data: a byte, and how many of its bits are used. -/
structure JPos where
  p : Nat
  k : Nat

/-- The next bit, most significant first, past the stuffed 0 bytes (R274). -/
def jBit (a : Array Byte) (s : JPos) : Dec (Nat × JPos) :=
  if a.size ≤ s.p then corrupt Reason.jpegTruncated a.size
  else
    let b := inAt a s.p
    if b = 0xFF ∧ inAt a (s.p + 1) ≠ 0 then
      (if 0xD0 ≤ inAt a (s.p + 1) ∧ inAt a (s.p + 1) ≤ 0xD7 then corrupt Reason.jpegEntropyBad s.p else corrupt Reason.jpegTruncated s.p)
    else if b = 0xFF ∧ a.size ≤ s.p + 1 then corrupt Reason.jpegTruncated a.size
    else .ok (b / 2 ^ (7 - s.k) % 2, if s.k = 7 then ⟨s.p + (if b = 0xFF then 2 else 1), 0⟩ else ⟨s.p, s.k + 1⟩)

/-- `n` bits, most significant first. -/
def jBits (a : Array Byte) (n : Nat) (v : Nat) (s : JPos) : Dec (Nat × JPos) :=
  match n with
  | 0 => .ok (v, s)
  | k + 1 => do
    let (b, s) ← jBit a s
    jBits a k (2 * v + b) s

/-- A Huffman table: the number of codes of each length 1 to 16, and the symbols in code order. -/
structure JHuff where
  counts : List Nat
  syms : Array Nat

/-- One symbol: `n` lengths are still to try. -/
def jSymStep (h : JHuff) (a : Array Byte) (start n code first index : Nat) (s : JPos) : Dec (Nat × JPos) :=
  match n with
  | 0 => corrupt Reason.jpegEntropyBad start
  | k + 1 => do
    let (b, s) ← jBit a s
    let code := code + b
    let c := h.counts.getD (15 - k) 0
    if code < first + c then .ok (h.syms.getD (index + (code - first)) 0, s)
    else jSymStep h a start k (2 * code) (2 * (first + c)) (index + c) s

/-- One symbol of a table. -/
def jSym (h : JHuff) (a : Array Byte) (s : JPos) : Dec (Nat × JPos) := jSymStep h a s.p 16 0 0 0 s

/-- The value of `n` bits `v` in the sign convention of ISO/IEC 10918-1, F.2.2.1. -/
def jExtend (n v : Nat) : Int := if n = 0 then 0 else if v < 2 ^ (n - 1) then (v : Int) - 2 ^ n + 1 else v

/-! ### The file -/

/-- A component of the frame, with its coefficients in natural order, 64 a block. -/
structure JComp where
  id : Nat
  h : Nat
  v : Nat
  tq : Nat
  /-- Blocks in a line and lines of blocks, whole MCUs. -/
  bw : Nat
  bh : Nat
  /-- Blocks in a line and lines of blocks in a scan of this component alone. -/
  nw : Nat
  nh : Nat
  coef : Array Int
  q : Option (Array Nat)
  deriving Inhabited

/-- What the markers so far gave. -/
structure JFile where
  qt : List (Option (Array Nat))
  dc : List (Option JHuff)
  ac : List (Option JHuff)
  prog : Bool
  width : Nat
  height : Nat
  comps : Array JComp
  framed : Bool
  restart : Nat
  scans : Nat
  segBytes : Nat

/-- The zigzag order: the natural place of each coefficient. -/
def zigzag : Array Nat :=
  #[0, 1, 8, 16, 9, 2, 3, 10, 17, 24, 32, 25, 18, 11, 4, 5, 12, 19, 26, 33, 40, 48, 41, 34, 27, 20, 13, 6, 7, 14, 21, 28, 35, 42, 49, 56, 57,
    50, 43, 36, 29, 22, 15, 23, 30, 37, 44, 51, 58, 59, 52, 45, 38, 31, 39, 46, 53, 60, 61, 54, 47, 55, 62, 63]

/-- Quantisation tables of a DQT segment in `p` to `e`. -/
def jDqt (fuel : Nat) (a : Array Byte) (p e : Nat) (f : JFile) : Dec JFile :=
  match fuel with
  | 0 => .ok f
  | k + 1 =>
    if e ≤ p then .ok f
    else do
      let pq := inAt a p / 16
      let tq := inAt a p % 16
      require (decide (pq ≤ 1 ∧ tq ≤ 3)) Reason.jpegSyntax p
      let n := 64 * (pq + 1)
      require (decide (p + 1 + n ≤ e)) Reason.jpegSyntax p
      let t := (List.range 64).foldl (fun (t : Array Nat) i => t.setIfInBounds (zigzag.getD i 0) (inBe a (p + 1 + i * (pq + 1)) (pq + 1)))
        (List.replicate 64 0).toArray
      jDqt k a (p + 1 + n) e { f with qt := f.qt.set tq (some t) }

/-- Huffman tables of a DHT segment in `p` to `e`. -/
def jDht (fuel : Nat) (a : Array Byte) (p e : Nat) (f : JFile) : Dec JFile :=
  match fuel with
  | 0 => .ok f
  | k + 1 =>
    if e ≤ p then .ok f
    else do
      let tc := inAt a p / 16
      let th := inAt a p % 16
      require (decide (tc ≤ 1 ∧ th ≤ 3)) Reason.jpegSyntax p
      require (decide (p + 17 ≤ e)) Reason.jpegSyntax p
      let counts := (List.range 16).map (fun i => inAt a (p + 1 + i))
      let n := sumNat counts
      let room := counts.foldl (fun (r : Int) (c : Nat) => 2 * r - (c : Int)) 1
      let tooMany := (counts.foldl (fun (q : Int × Bool) (c : Nat) => (2 * q.1 - (c : Int), q.2 || decide (2 * q.1 - (c : Int) < 0))) ((1 : Int), false)).2
      require (decide (n ≤ 256 ∧ p + 17 + n ≤ e) && !tooMany && decide (0 ≤ room)) Reason.jpegSyntax p
      let t : JHuff := { counts := counts, syms := ((List.range n).map (fun i => inAt a (p + 17 + i))).toArray }
      jDht k a (p + 17 + n) e (if tc = 0 then { f with dc := f.dc.set th (some t) } else { f with ac := f.ac.set th (some t) })

/-- Channels of the output (R277). -/
def jOutCh (colour nf : Nat) : Nat := if colour = 0 then nf else if colour = 1 then 3 else 1

/-- The frame header whose segment data lie in `p` to `e`; `m` is the offset of its marker (R272, R274, R287). -/
def jFrame (a : Array Byte) (m p e colour maxW maxH outMax : Nat) (f : JFile) : Dec JFile := do
  require (!f.framed) Reason.jpegSyntax m
  require (decide (p + 6 ≤ e)) Reason.jpegSyntax (m + 2)
  require (inAt a p == 8) Reason.jpegUnsupported p
  let h := inBe a (p + 1) 2
  let w := inBe a (p + 3) 2
  let nf := inAt a (p + 5)
  require (h != 0) Reason.jpegUnsupported (p + 1)
  require (decide (h ≤ 16384 ∧ h ≤ maxH)) Reason.imageLimit (p + 1)
  require (decide (1 ≤ w ∧ w ≤ 16384 ∧ w ≤ maxW)) Reason.imageLimit (p + 3)
  require (nf == 1 || nf == 3) Reason.jpegUnsupported (p + 5)
  require (p + 6 + 3 * nf == e) Reason.jpegSyntax (m + 2)
  let raw := (List.range nf).map (fun i => (inAt a (p + 6 + 3 * i), inAt a (p + 7 + 3 * i) / 16, inAt a (p + 7 + 3 * i) % 16, inAt a (p + 8 + 3 * i)))
  require (raw.all (fun (_, hh, vv, tq) => decide (1 ≤ hh ∧ hh ≤ 4 ∧ 1 ≤ vv ∧ vv ≤ 4 ∧ tq ≤ 3))) Reason.jpegSyntax (p + 7)
  let hv := raw.map (fun (_, hh, vv, _) => (hh, vv))
  require (nf == 1 || (hv.drop 1 == [(1, 1), (1, 1)] && (hv.take 1 == [(1, 1)] || hv.take 1 == [(2, 1)] || hv.take 1 == [(2, 2)])))
    Reason.jpegUnsupported (p + 7)
  require (decide (w * h * jOutCh colour nf ≤ outMax)) Reason.outMaxExceeded (p + 1)
  let hm := if nf = 1 then 1 else (hv.getD 0 (1, 1)).1
  let vm := if nf = 1 then 1 else (hv.getD 0 (1, 1)).2
  let comps := raw.map (fun (id, hh, vv, tq) =>
    let hh := if nf = 1 then 1 else hh
    let vv := if nf = 1 then 1 else vv
    let bw := ceilDiv w (8 * hm) * hh
    let bh := ceilDiv h (8 * vm) * vv
    ({ id := id, h := hh, v := vv, tq := tq, bw := bw, bh := bh, nw := ceilDiv (ceilDiv (w * hh) hm) 8, nh := ceilDiv (ceilDiv (h * vv) vm) 8,
       coef := (List.replicate (bw * bh * 64) (0 : Int)).toArray, q := none } : JComp))
  .ok { f with framed := true, width := w, height := h, comps := comps.toArray }

/-- The bytes of the coefficient store of a progressive file whose markers run from `p`: 2 a coefficient, in whole MCUs (R261); 0 for another file. -/
def jpegWork (fuel : Nat) (a : Array Byte) (p : Nat) : Nat :=
  match fuel with
  | 0 => 0
  | k + 1 =>
    let t := inAt a (p + 1)
    if inAt a p ≠ 0xFF ∨ t = 0xDA ∨ t = 0xC0 ∨ t = 0xC1 then 0
    else if t = 0xFF then jpegWork k a (p + 1)
    else if t ≠ 0xC2 then jpegWork k a (p + 2 + inBe a (p + 2) 2)
    else
      let h := inBe a (p + 5) 2
      let w := inBe a (p + 7) 2
      let nf := inAt a (p + 9)
      let hm := if nf = 1 then 1 else inAt a (p + 11) / 16
      let vm := if nf = 1 then 1 else inAt a (p + 11) % 16
      let blocks := (List.range nf).map (fun i => if nf = 1 then 1 else (inAt a (p + 11 + 3 * i) / 16) * (inAt a (p + 11 + 3 * i) % 16))
      128 * (ceilDiv w (8 * hm) * ceilDiv h (8 * vm)) * sumNat blocks

/-! ### Scans -/

/-- A component of a scan: its place in the frame and its two tables. -/
structure JSel where
  comp : Nat
  dc : Option JHuff
  ac : Option JHuff

/-- The decoder inside a scan: the place, the last DC value of each selected component, and the end-of-band run. -/
structure JRun where
  pos : JPos
  pred : Array Int
  eob : Nat

/-- The spectral band and the bit positions of a scan. -/
structure JBand where
  ss : Nat
  se : Nat
  ah : Nat
  al : Nat
  prog : Bool

/-- A coefficient within the range of 8-bit precision (R274). -/
def jAcOk (v : Int) : Bool := decide (-1023 ≤ v ∧ v ≤ 1023)

/-- A DC difference and the new DC value (R274). -/
def jDc (a : Array Byte) (h : JHuff) (al : Nat) (pred : Int) (s : JPos) : Dec (Int × JPos) := do
  let (n, s1) ← jSym h a s
  require (decide (n ≤ 11)) Reason.jpegEntropyBad s.p
  let (v, s2) ← jBits a n 0 s1
  let d := pred + jExtend n v
  require (decide (-2048 ≤ d * 2 ^ al ∧ d * 2 ^ al ≤ 2047)) Reason.jpegEntropyBad s.p
  .ok (d, s2)

/-- The coefficients from `k` to `se` of one block, coded for the first time; `base` is the block's place in `co`. -/
def jAcFirst (fuel : Nat) (a : Array Byte) (h : JHuff) (b : JBand) (base k : Nat) (co : Array Int) (eob : Nat) (s : JPos) : Dec (Array Int × Nat × JPos) :=
  match fuel with
  | 0 => .ok (co, eob, s)
  | f + 1 =>
    if b.se < k then .ok (co, eob, s)
    else do
      let (rs, s1) ← jSym h a s
      let r := rs / 16
      let n := rs % 16
      if n = 0 then
        if r = 15 then jAcFirst f a h b base (k + 16) co eob s1
        else if b.prog then do
          let (x, s2) ← jBits a r 0 s1
          .ok (co, 2 ^ r + x - 1, s2)
        else do
          require (r == 0) Reason.jpegEntropyBad s.p
          .ok (co, eob, s1)
      else do
        require (decide (n ≤ 10 ∧ k + r ≤ b.se)) Reason.jpegEntropyBad s.p
        let (v, s2) ← jBits a n 0 s1
        let x := jExtend n v * 2 ^ b.al
        require (jAcOk x) Reason.jpegEntropyBad s.p
        jAcFirst f a h b base (k + r + 1) (co.setIfInBounds (base + zigzag.getD (k + r) 0) x) eob s2

/-- One correction bit for a coefficient that is not 0 (ISO/IEC 10918-1, G.1.2.3). -/
def jFix (a : Array Byte) (al : Nat) (x : Int) (s : JPos) : Dec (Int × JPos) := do
  let (b, s1) ← jBit a s
  let y := if b = 1 then (if 0 ≤ x then x + 2 ^ al else x - 2 ^ al) else x
  require (jAcOk y) Reason.jpegEntropyBad s.p
  .ok (y, s1)

/-- Corrections over a run: past `r` zero coefficients and up to the next one, or to the end of the band; answers where it stopped. -/
def jFixRun (fuel : Nat) (a : Array Byte) (b : JBand) (base k r : Nat) (co : Array Int) (s : JPos) : Dec (Nat × Array Int × JPos) :=
  match fuel with
  | 0 => .ok (k, co, s)
  | f + 1 =>
    if b.se < k then .ok (k, co, s)
    else
      let i := base + zigzag.getD k 0
      let x := co.getD i 0
      if x = 0 then (if r = 0 then .ok (k, co, s) else jFixRun f a b base (k + 1) (r - 1) co s)
      else do
        let (y, s1) ← jFix a b.al x s
        jFixRun f a b base (k + 1) r (co.setIfInBounds i y) s1

/-- The coefficients from `k` to `se` of one block, refined by one bit (ISO/IEC 10918-1, G.1.2.3). -/
def jAcRefine (fuel : Nat) (a : Array Byte) (h : JHuff) (b : JBand) (base k : Nat) (co : Array Int) (s : JPos) : Dec (Array Int × Nat × JPos) :=
  match fuel with
  | 0 => .ok (co, 0, s)
  | f + 1 =>
    if b.se < k then .ok (co, 0, s)
    else do
      let (rs, s1) ← jSym h a s
      let r := rs / 16
      let n := rs % 16
      if n = 0 ∧ r < 15 then do
        let (x, s2) ← jBits a r 0 s1
        let (_, co, s3) ← jFixRun 65 a b base k 64 co s2
        .ok (co, 2 ^ r + x - 1, s3)
      else do
        require (decide (n ≤ 1)) Reason.jpegEntropyBad s.p
        let (v, s2) ← (if n = 0 then .ok ((0 : Int), s1) else do
          let (x, s2) ← jBit a s1
          .ok ((if x = 1 then 2 ^ b.al else -(2 ^ b.al) : Int), s2) : Dec (Int × JPos))
        let (k, co, s3) ← jFixRun 65 a b base k r co s2
        require (decide (k ≤ b.se)) Reason.jpegEntropyBad s.p
        jAcRefine f a h b base (k + 1) (if n = 0 then co else co.setIfInBounds (base + zigzag.getD k 0) v) s3

/-- The corrections that an end-of-band run makes in one block. -/
def jAcEob (a : Array Byte) (b : JBand) (base : Nat) (co : Array Int) (s : JPos) : Dec (Array Int × JPos) := do
  let (_, co, s) ← jFixRun 65 a b base b.ss 64 co s
  .ok (co, s)

/-- The empty Huffman table, in which every code is absent. -/
def noHuff : JHuff := { counts := [], syms := #[] }

/-- One block of selected component `i` at `base` (R274, R275). -/
def jBlock (a : Array Byte) (b : JBand) (sel : JSel) (i base : Nat) (co : Array Int) (r : JRun) : Dec (Array Int × JRun) := do
  let dcT := sel.dc.getD noHuff
  let acT := sel.ac.getD noHuff
  let (co, r) ← (if b.ss = 0 then
      (if b.prog ∧ b.ah ≠ 0 then do
        let (x, s) ← jBit a r.pos
        let old := co.getD base 0
        .ok (if x = 1 ∧ old / 2 ^ b.al % 2 = 0 then co.setIfInBounds base (old + 2 ^ b.al) else co, { r with pos := s })
      else do
        let (d, s) ← jDc a dcT b.al (r.pred.getD i 0) r.pos
        .ok (co.setIfInBounds base (d * 2 ^ b.al), { r with pos := s, pred := r.pred.setIfInBounds i d }))
    else .ok (co, r) : Dec (Array Int × JRun))
  if b.se = 0 then .ok (co, r)
  else if b.prog then
    if 0 < r.eob then
      (if b.ah = 0 then .ok (co, { r with eob := r.eob - 1 })
       else do
        let (co, s) ← jAcEob a b base co r.pos
        .ok (co, { r with pos := s, eob := r.eob - 1 }))
    else if b.ah = 0 then do
      let (co, e, s) ← jAcFirst 65 a acT b base b.ss co 0 r.pos
      .ok (co, { r with pos := s, eob := e })
    else do
      let (co, e, s) ← jAcRefine 65 a acT b base b.ss co r.pos
      .ok (co, { r with pos := s, eob := e })
  else do
    let (co, _, s) ← jAcFirst 65 a acT b base 1 co 0 r.pos
    .ok (co, { r with pos := s })

/-- Past the fill bytes before a marker. -/
def jFill (fuel : Nat) (a : Array Byte) (p : Nat) : Nat :=
  match fuel with
  | 0 => p
  | f + 1 => if inAt a p = 0xFF ∧ inAt a (p + 1) = 0xFF then jFill f a (p + 1) else p

/-- The restart marker before MCU `m` (R274). -/
def jRestart (a : Array Byte) (ri m : Nat) (r : JRun) : Dec JRun :=
  let p0 := if r.pos.k = 0 then r.pos.p else r.pos.p + (if inAt a r.pos.p = 0xFF then 2 else 1)
  let p := jFill (a.size + 1) a p0
  if a.size ≤ p + 1 then corrupt Reason.jpegTruncated a.size
  else if inAt a p = 0xFF ∧ inAt a (p + 1) = 0xD0 + (m / ri - 1) % 8 then
    .ok { pos := ⟨p + 2, 0⟩, pred := r.pred.map (fun _ => 0), eob := 0 }
  else corrupt Reason.jpegEntropyBad p

/-- The blocks of MCU `m`: the selected component and the place of the block in it. -/
def jMcu (f : JFile) (sels : List JSel) (m : Nat) : List (Nat × JSel × Nat) :=
  match sels with
  | [s] =>
    let c := f.comps[s.comp]!
    [(0, s, ((m / c.nw) * c.bw + m % c.nw) * 64)]
  | _ =>
    let c0 := f.comps[0]!
    let mw := c0.bw / c0.h
    ((sels.zip (List.range sels.length)).map (fun (s, i) =>
      let c := f.comps[s.comp]!
      ((List.range c.v).map (fun y => (List.range c.h).map (fun x =>
        (i, s, (((m / mw) * c.v + y) * c.bw + (m % mw) * c.h + x) * 64)))).flatten)).flatten

/-- The MCUs from `m` on; `n` are left. -/
def jMcus (n : Nat) (a : Array Byte) (b : JBand) (sels : List JSel) (m : Nat) (f : JFile) (r : JRun) : Dec (JFile × JRun) :=
  match n with
  | 0 => .ok (f, r)
  | k + 1 => do
    let r ← (if f.restart ≠ 0 ∧ m ≠ 0 ∧ m % f.restart = 0 then jRestart a f.restart m r else .ok r : Dec JRun)
    let (f, r) ← (jMcu f sels m).foldlM (fun (q : JFile × JRun) (i, s, base) => do
      let c := q.1.comps[s.comp]!
      let (co, r) ← jBlock a b s i base c.coef q.2
      .ok ({ q.1 with comps := q.1.comps.setIfInBounds s.comp { c with coef := co } }, r)) (f, r)
    jMcus k a b sels (m + 1) f r

/-- The scan whose header's data lie in `p` to `e`; answers where its entropy-coded data end (R274). -/
def jScan (a : Array Byte) (m p e : Nat) (f : JFile) : Dec (JFile × Nat) := do
  require f.framed Reason.jpegSyntax m
  require (decide (f.scans < 64)) Reason.imageLimit m
  let ns := inAt a p
  require (decide (1 ≤ ns ∧ ns ≤ f.comps.size) && p + 4 + 2 * ns == e) Reason.jpegSyntax (m + 2)
  let b : JBand := if f.prog then { ss := inAt a (e - 3), se := inAt a (e - 2), ah := inAt a (e - 1) / 16, al := inAt a (e - 1) % 16, prog := true }
    else { ss := 0, se := 63, ah := 0, al := 0, prog := false }
  require (decide (b.ss ≤ b.se ∧ b.se ≤ 63 ∧ b.al ≤ 13) && (!f.prog || ((b.ss != 0 || b.se == 0) && (b.ss == 0 || ns == 1) && (b.ah == 0 || b.ah == b.al + 1))))
    Reason.jpegSyntax (e - 3)
  let sels ← (List.range ns).mapM (fun i => do
    let cs := inAt a (p + 1 + 2 * i)
    let t := inAt a (p + 2 + 2 * i)
    match (List.range f.comps.size).find? (fun j => (f.comps[j]!).id == cs) with
    | none => corrupt Reason.jpegSyntax (p + 1 + 2 * i)
    | some j => do
      let d := (f.dc.getD (t / 16) none)
      let c := (f.ac.getD (t % 16) none)
      require ((d.isSome || b.ss != 0 || (b.prog && b.ah != 0)) && (c.isSome || b.se == 0)) Reason.jpegSyntax (p + 2 + 2 * i)
      require ((f.comps[j]!).q.isSome || (f.qt.getD (f.comps[j]!).tq none).isSome) Reason.jpegSyntax (p + 1 + 2 * i)
      .ok ({ comp := j, dc := d, ac := c } : JSel))
  require (decide ((sels.map JSel.comp).Pairwise (· < ·))) Reason.jpegSyntax (p + 1)
  let f := sels.foldl (fun (f : JFile) s =>
    let c := f.comps[s.comp]!
    if c.q.isSome then f else { f with comps := f.comps.setIfInBounds s.comp { c with q := f.qt.getD c.tq none } }) f
  let n := match sels with
    | [s] => (f.comps[s.comp]!).nw * (f.comps[s.comp]!).nh
    | _ => ((f.comps[0]!).bw / (f.comps[0]!).h) * ((f.comps[0]!).bh / (f.comps[0]!).v)
  let (f, r) ← jMcus n a b sels 0 { f with scans := f.scans + 1 } { pos := ⟨e, 0⟩, pred := (List.replicate ns (0 : Int)).toArray, eob := 0 }
  .ok (f, if r.pos.k = 0 then r.pos.p else r.pos.p + (if inAt a r.pos.p = 0xFF then 2 else 1))

/-- The first marker at or after `p`, if any: past bytes that are no marker. -/
def jMarker (fuel : Nat) (a : Array Byte) (p : Nat) : Option Nat :=
  match fuel with
  | 0 => none
  | f + 1 =>
    if a.size ≤ p + 1 then none
    else if inAt a p = 0xFF ∧ inAt a (p + 1) ≠ 0xFF ∧ inAt a (p + 1) ≠ 0 then some p
    else jMarker f a (p + 1)

/-- The marker segments from `p` on (R272, R274). -/
def jSegments (fuel : Nat) (a : Array Byte) (colour maxW maxH outMax p : Nat) (f : JFile) : Dec JFile :=
  match fuel with
  | 0 => .ok f
  | k + 1 =>
    let complete := f.framed && f.comps.all (fun c => c.q.isSome)
    match (if 0 < f.scans then jMarker (a.size + 1) a p else some (jFill (a.size + 1) a p)) with
    | none => if complete then .ok f else corrupt Reason.jpegTruncated a.size
    | some p => do
      require (decide (p + 1 < a.size) && inAt a p == 0xFF && inAt a (p + 1) != 0) Reason.jpegSyntax p
      let t := inAt a (p + 1)
      if t = 0xD9 then (if complete then .ok f else corrupt Reason.jpegTruncated p)
      else do
        require (!((0xD0 ≤ t && t ≤ 0xD8) || t == 0x01)) Reason.jpegSyntax p
        require (decide (p + 4 ≤ a.size)) Reason.jpegSyntax (p + 2)
        let n := inBe a (p + 2) 2
        require (decide (2 ≤ n ∧ p + 2 + n ≤ a.size)) Reason.jpegSyntax (p + 2)
        let f := { f with segBytes := f.segBytes + n + 2 }
        require (decide (f.segBytes ≤ 1048576)) Reason.imageLimit p
        let b := p + 4
        let e := p + 2 + n
        if t = 0xDB then do
          let f ← jDqt 65536 a b e f
          jSegments k a colour maxW maxH outMax e f
        else if t = 0xC4 then do
          let f ← jDht 65536 a b e f
          jSegments k a colour maxW maxH outMax e f
        else if t = 0xC0 ∨ t = 0xC1 ∨ t = 0xC2 then do
          let f ← jFrame a p b e colour maxW maxH outMax { f with prog := if f.framed then f.prog else t == 0xC2 }
          jSegments k a colour maxW maxH outMax e f
        else if 0xC3 ≤ t ∧ t ≤ 0xCF ∨ t = 0xDC ∨ t = 0xDE ∨ t = 0xDF then corrupt Reason.jpegUnsupported p
        else if t = 0xDD then do
          require (n == 4) Reason.jpegSyntax (p + 2)
          jSegments k a colour maxW maxH outMax e { f with restart := inBe a b 2 }
        else if t = 0xDA then do
          let (f, q) ← jScan a p b e f
          jSegments k a colour maxW maxH outMax q f
        else if (0xE0 ≤ t ∧ t ≤ 0xEF) ∨ t = 0xFE then jSegments k a colour maxW maxH outMax e f
        else corrupt Reason.jpegSyntax p

/-! ### The inverse DCT in exact arithmetic (R275) -/

/-- A number of the ring of the cosines: the sum of `e₀` and `eₖ · 2·cos(kπ/16)` for k from 1 to 7. -/
abbrev Cos := Array Int

/-- The sum of two numbers of the ring. -/
def Cos.add (x y : Cos) : Cos := ((List.range 8).map (fun i => x.getD i 0 + y.getD i 0)).toArray

/-- `2·cos(mπ/16)` as a place in the basis and a factor: factor 0 for the zero, place 0 with factor 2 for m = 0. -/
def cosPlace (m : Nat) : Nat × Int :=
  let m := m % 32
  let m := if 16 < m then 32 - m else m
  if m = 0 then (0, 2) else if m < 8 then (m, 1) else if m = 8 then (0, 0) else if m = 16 then (0, -2) else (16 - m, -1)

/-- A number of the ring times `2·cos(mπ/16)`. -/
def Cos.scale (x : Cos) (m : Nat) : Cos :=
  (List.range 8).foldl (fun (acc : Cos) k =>
    let e := x.getD k 0
    if e = 0 then acc
    else if k = 0 then
      let (i, c) := cosPlace m
      acc.setIfInBounds i (acc.getD i 0 + c * e)
    else
      let (i, c) := cosPlace (m + k)
      let acc := acc.setIfInBounds i (acc.getD i 0 + c * e)
      let (j, d) := cosPlace (m + 32 - k)
      acc.setIfInBounds j (acc.getD j 0 + d * e)) #[0, 0, 0, 0, 0, 0, 0, 0]

/-- Twice C(u)·cos((2x+1)uπ/16), as a multiple of π/16 in a cosine: C(0) is 1/√2, the half of `2·cos(4π/16)`. -/
def dctAngle (u x : Nat) : Nat := if u = 0 then 4 else (2 * x + 1) * u

/-- `2·cos(kπ/16)` times 2^600, rounded down, for k from 1 to 7. -/
def cosApprox : List Nat :=
  let p := 600
  let r (n : Nat) : Nat := Nat.sqrt (n * 2 ^ p)
  let two := 2 * 2 ^ p
  let s2 := r two
  let a := r (two + s2)
  let b := r (two - s2)
  [r (two + a), a, r (two + b), s2, r (two - b), b, r (two - a)]

/-- ⌊x/16 + 128.5⌋ held to 0 … 255, for a number of the ring: an element with an irrational part lies away from every integer. -/
def Cos.sample (ts : List Nat) (x : Cos) : Nat :=
  let v : Int := (x.getD 0 0 + 2056) * 2 ^ 600 + ((List.range 7).map (fun k => x.getD (k + 1) 0 * (ts.getD k 0 : Int))).foldl (· + ·) 0
  let f := v / (16 * 2 ^ 600)
  if f < 0 then 0 else if 255 < f then 255 else f.toNat

/-- The 64 samples of one block of dequantised coefficients, F(u, v) at place 8v + u (R275). -/
def jIdct (ts : List Nat) (fc : Nat → Int) : Array Nat :=
  let rows := (List.range 8).map (fun v => (List.range 8).map (fun x =>
    (List.range 8).foldl (fun (acc : Cos) u =>
      let c := fc (8 * v + u)
      if c = 0 then acc else Cos.add acc (Cos.scale #[c, 0, 0, 0, 0, 0, 0, 0] (dctAngle u x))) #[0, 0, 0, 0, 0, 0, 0, 0]))
  ((List.range 64).map (fun i =>
    Cos.sample ts ((List.range 8).foldl (fun (acc : Cos) v =>
      Cos.add acc (Cos.scale ((rows.getD v []).getD (i % 8) #[]) (dctAngle v (i / 8)))) #[0, 0, 0, 0, 0, 0, 0, 0]))).toArray

/-- The samples of a component, `8·bw` to a line. -/
def jPlane (ts : List Nat) (c : JComp) : Array Nat :=
  let q := c.q.getD #[]
  let w := 8 * c.bw
  (List.range (c.bw * c.bh)).foldl (fun (pl : Array Nat) b =>
    let s := jIdct ts (fun i => c.coef.getD (b * 64 + i) 0 * (q.getD i 0 : Int))
    (List.range 64).foldl (fun (pl : Array Nat) i => pl.setIfInBounds ((8 * (b / c.bw) + i / 8) * w + 8 * (b % c.bw) + i % 8) (s.getD i 0)) pl)
    (List.replicate (w * 8 * c.bh) 0).toArray

/-- A value held to 0 … 255. -/
def clamp8 (x : Int) : Nat := if x < 0 then 0 else if 255 < x then 255 else x.toNat

/-- R, G and B of a YCbCr pixel (R277). -/
def ycbcrRgb (y cb cr : Nat) : List Nat :=
  let d : Int := (cb : Int) - 128
  let e : Int := (cr : Int) - 128
  [clamp8 (y + (91881 * e + 32768) / 65536), clamp8 (y + (-22554 * d - 46802 * e + 32768) / 65536), clamp8 (y + (116130 * d + 32768) / 65536)]

/-- The output samples of one pixel as coded (R277). -/
def jPixel (colour : Nat) (rgb : Bool) (px : List Nat) : List Nat :=
  match colour with
  | 0 => px
  | 1 => if px.length = 1 then [px.getD 0 0, px.getD 0 0, px.getD 0 0] else if rgb then px else ycbcrRgb (px.getD 0 0) (px.getD 1 0) (px.getD 2 0)
  | _ => if px.length = 1 ∨ !rgb then [px.getD 0 0] else [greyOf (px.getD 0 0) (px.getD 1 0) (px.getD 2 0)]

/-- DECODE_JPEG (R272 to R277) with the parameters of Table 05-4. -/
def decodeJpeg (colour layout maxW maxH : Nat) (bs : List Byte) (outMax : Nat) : Dec Value := do
  let a := bs.toArray
  require (decide (2 ≤ a.size) && inBe a 0 2 == 0xFFD8) Reason.jpegSyntax 0
  let none4 {α : Type} : List (Option α) := [none, none, none, none]
  let f ← jSegments (a.size + 1) a colour maxW maxH outMax 2
    { qt := none4, dc := none4, ac := none4, prog := false, width := 0, height := 0, comps := #[], framed := false, restart := 0, scans := 0, segBytes := 0 }
  let nf := f.comps.size
  let rgb := (f.comps.toList.map JComp.id) == [0x52, 0x47, 0x42]
  let ts := cosApprox
  let planes := f.comps.map (jPlane ts)
  let hm := (f.comps[0]!).h
  let vm := (f.comps[0]!).v
  let px := (List.range (f.width * f.height)).map (fun i =>
    let x := i % f.width
    let y := i / f.width
    jPixel colour rgb ((List.range nf).map (fun j =>
      let c := f.comps[j]!
      (planes.getD j #[]).getD ((y * c.v / vm) * (8 * c.bw) + x * c.h / hm) 0)))
  let ch := jOutCh colour nf
  let space : Colour := if ch = 1 then .grey else if colour = 1 ∨ rgb then .rgb else .ycbcr
  .ok { shape := { elem := .u8, layout := if layout = 0 then .hwc else .chw, channels := ch, colour := space, width := f.width, height := f.height, rate := 0 },
        data := (layoutSamples layout ch px).map byteOf }

end Sys2Proof.Machine
end

