-- ==== Sys2Proof/Machine/Wave.lean ====
section
/-!
DEFINITION. Machine/Wave.lean: DECODE_WAVE (R282, R283).
-/
namespace Sys2Proof.Machine

/-- Whether `n` bytes stand at `p` inside the RIFF size `e`. -/
def waveIs (a : Array Byte) (e p : Nat) (bs : List Byte) : Bool := decide (p + bs.length ≤ e) && inBytes a p bs.length == bs

/-- The fields of a "fmt " chunk: channels, sample rate, nBlockAlign, bits per sample, and its offset. -/
structure WaveFmt where
  channels : Nat
  rate : Nat
  align : Nat
  bits : Nat
  at_ : Nat

/-- The PCM subformat GUID 00000001-0000-0010-8000-00AA00389B71 as a file stores it. -/
def pcmGuid : List Byte := [0x01, 0, 0, 0, 0, 0, 0x10, 0, 0x80, 0, 0, 0xAA, 0, 0x38, 0x9B, 0x71]

/-- A "fmt " chunk whose data of `n` bytes start at `b` (R282). -/
def waveFmt (a : Array Byte) (b n : Nat) : Dec WaveFmt := do
  require (decide (16 ≤ n)) Reason.waveSyntax (b - 4)
  let tag := inLe a b 2
  let bits := inLe a (b + 14) 2
  require (tag == 1 || (tag == 0xFFFE && decide (40 ≤ n) && decide (22 ≤ inLe a (b + 16) 2) && inBytes a (b + 24) 16 == pcmGuid
    && inLe a (b + 18) 2 == bits)) Reason.waveUnsupported b
  require (bits == 16 || bits == 24) Reason.waveUnsupported (b + 14)
  .ok { channels := inLe a (b + 2) 2, rate := inLe a (b + 4) 4, align := inLe a (b + 12) 2, bits := bits, at_ := b }

/-- The chunks from `p` to the first "data" chunk: the format, and where the data start and how long they are. -/
def waveChunks (fuel : Nat) (a : Array Byte) (e p n : Nat) (fmt : Option WaveFmt) : Dec (WaveFmt × Nat × Nat) :=
  match fuel with
  | 0 => corrupt Reason.waveLimit p
  | f + 1 => do
    require (decide (n < 1024)) Reason.waveLimit p
    require (decide (p + 8 ≤ e)) Reason.waveSyntax p
    let size := inLe a (p + 4) 4
    require (decide (p + 8 + size ≤ e)) Reason.waveSyntax (p + 4)
    let next := p + 8 + size + size % 2
    if inBytes a p 4 = asciiBytes "data" then
      match fmt with
      | none => corrupt Reason.waveSyntax p
      | some w => .ok (w, p + 8, size)
    else if inBytes a p 4 = asciiBytes "fmt " ∧ fmt.isNone then do
      let w ← waveFmt a (p + 8) size
      waveChunks f a e next (n + 1) (some w)
    else waveChunks f a e next (n + 1) fmt

/-- The number a two's complement value of `w` bits stands for. -/
def twosOf (w n : Nat) : Int := if n < 2 ^ (w - 1) then (n : Int) else (n : Int) - 2 ^ w

/-- The binary32 bits of `v / 2^s`, for a `v` of at most 24 significant bits (exact). -/
def exactF32 (v : Int) (s : Nat) : Nat :=
  if v = 0 then 0
  else
    let m := v.natAbs
    let e := Nat.log2 m
    let sign := if v < 0 then 2 ^ 31 else 0
    sign + (e + 127 - s) * 2 ^ 23 + (m * 2 ^ (23 - e) - 2 ^ 23)

/-- DECODE_WAVE (R282, R283): OUT_TYPE, MAX_CHANNELS and MAX_FRAMES of the op. -/
def decodeWave (outType maxCh maxFrames : Nat) (bs : List Byte) (outMax : Nat) : Dec Value := do
  let a := bs.toArray
  require (!(inBytes a 0 4 == asciiBytes "RF64" || inBytes a 0 4 == asciiBytes "RIFX")) Reason.waveUnsupported 0
  require (waveIs a a.size 0 (asciiBytes "RIFF")) Reason.waveSyntax 0
  require (decide (12 ≤ a.size)) Reason.waveSyntax a.size
  let e := inLe a 4 4 + 8
  require (decide (e ≤ a.size)) Reason.waveSyntax 4
  require (waveIs a e 8 (asciiBytes "WAVE")) Reason.waveSyntax 8
  let (w, b, n) ← waveChunks 1025 a e 12 0 none
  require (w.align == w.channels * w.bits / 8 && w.align != 0) Reason.waveSyntax (w.at_ + 12)
  require (n % w.align == 0) Reason.waveSyntax (b - 4)
  let frames := n / w.align
  require (decide (1 ≤ w.channels ∧ w.channels ≤ maxCh)) Reason.waveLimit (w.at_ + 2)
  require (decide (frames ≤ maxFrames)) Reason.waveLimit (b - 4)
  let size := w.bits / 8
  let count := frames * w.channels
  let shape : Shape := { elem := if outType = 1 then .f32 else if size = 2 then .s16 else .s24, layout := .interleaved, channels := w.channels,
                         colour := .none, width := frames, height := 1, rate := w.rate }
  require (decide (shape.byteLen ≤ outMax)) Reason.outMaxExceeded b
  if outType = 1 then
    .ok { shape := shape,
          data := ((List.range count).map (fun i => leBytes 4 (exactF32 (twosOf w.bits (inLe a (b + i * size) size)) (w.bits - 1)))).flatten }
  else .ok { shape := shape, data := inBytes a b n }

end Sys2Proof.Machine
end

