-- ==== Sys2Proof/Machine/RunOp.lean ====
section
/-!
DEFINITION. Machine/RunOp.lean: what one op of a stage program does to one sample: its measure and its outcome (R186 to R188, R204, R233, R260, R400).
-/
namespace Sys2Proof.Machine

/-- How an op ends for a sample. -/
inductive OpEnd where
  /-- An output of its own. -/
  | output (v : Value)
  /-- A Screen op hands its input on (R400), with marks (R406). -/
  | passOn (marks : Nat)
  /-- A corrupt-sample reason (R288). -/
  | failed (c : Corrupt)
  /-- Screened out (R405). -/
  | screened
  /-- An exact dedup op waits its turn (R410). -/
  | waits

/-- The output of op `j` that a sample still holds. -/
def Sample.out? (s : Sample) (j : Nat) : Option OpOut := s.outs.find? (fun o => o.op == j)

/-- The value of op `j` that a sample holds, empty where there is none. -/
def Sample.valueOf (s : Sample) (j : Nat) : Value := ((s.out? j).map OpOut.value).getD (Value.ofBytes [])

/-- The outcome of a decoder. -/
def OpEnd.ofDec (v : Dec Value) : OpEnd :=
  match v with
  | .ok v => .output v
  | .error c => .failed c

/-- The outcome of a lane op on its input (R263 to R306). -/
def laneOp (o : OpRec) (consts : List Byte) (v : Value) : Dec Value :=
  let bs := v.data
  if o.opcode = 0x0201 then
    (parseBrc (o.p 0 1) bs).bind (fun v => if o.outMax < v.data.length then corrupt Reason.outMaxExceeded (Config.failOffset o.opcode bs) else .ok v)
  else if o.opcode = 0x0202 then parseUstar (o.p 0 1) bs o.outMax
  else if o.opcode = 0x0203 then decompress (o.p 0 1) bs o.outMax
  else if o.opcode = 0x0204 then decodeJpeg (o.p 0 1) (o.p 1 1) (o.p 2 2) (o.p 4 2) bs o.outMax
  else if o.opcode = 0x0205 then decodePng (o.p 0 1) (o.p 1 1) (o.p 2 1) (o.p 4 2) (o.p 6 2) bs o.outMax
  else if o.opcode = 0x0206 then decodeWave (o.p 0 1) (o.p 1 1) (o.p 4 4) bs o.outMax
  else if o.opcode = 0x0207 then decodeText (o.p 0 4) bs o.outMax
  else parseJsonl (bytesAt consts (o.p 0 4) (o.p 4 2)) bs o.outMax

/-- The bytes of the working state of a lane op on its input: the coefficient store of a progressive JPEG, the previous scanline of a PNG pass (R261). -/
def laneWork (o : OpRec) (bs : List Byte) : Nat :=
  if o.opcode = 0x0204 then jpegWork bs.length bs.toArray 2 else if o.opcode = 0x0205 then pngWork bs else 0

/-- The outcome of a Swage op on its input (R317 to R326). -/
def swageOp (o : OpRec) (consts : List Byte) (v : Value) : Dec Value :=
  runSwage (parseDesc (bytesAt consts (o.p 0 4) 128)) (if o.opcode = 0x0302 then o.p 4 1 else 0) o.outMax v

/-- The measure of an op in its unit of cost (Table 05-4), from its inputs and, where the unit counts its output, from the output that they
imply; none is stated for an input that ends with a corrupt-sample reason, and it is taken as 0. -/
def opMeasure (o : OpRec) (consts : List Byte) (v : Value) : Nat × Nat :=
  let kibIn := (v.data.length, 1024)
  let outOf := fun (r : Dec Value) (f : Value → Nat) => match r with | .ok x => f x | .error _ => 0
  if o.opcode = 0x0203 then (4 * v.data.length, 1024)
  else if o.opcode = 0x0204 || o.opcode = 0x0205 then (outOf (laneOp o consts v) (fun x => x.shape.width * x.shape.height), 1000)
  else if o.opcode / 256 = 2 then kibIn
  else if o.opcode = 0x0302 then (outOf (swageOp o consts v) (fun x => x.shape.width * x.shape.height), 1000)
  else if o.opcode / 256 = 3 then (outOf (swageOp o consts v) (fun x => x.data.length), 1024)
  else if o.opcode = 0x0404 || o.opcode / 256 = 6 then kibIn
  else (1, 1)

/-- The 16 KiB page that holds a sample's directory entry (R233). -/
def Dev.dirPage (d : Dev) (t : Dataset) (i : Nat) : List (Nat × Nat) := d.rangePages t (t.dirOffset + 16 * i) 1

/-- The 16 KiB pages that hold a sample's bytes (R233). -/
def Dev.ownPages (d : Dev) (t : Dataset) (i : Nat) : List (Nat × Nat) := d.rangePages t (d.dirEntry t i).1 (d.dirEntry t i).2

/-- The 16 KiB pages that a READ_SAMPLE needs: the directory page first, then the sample's own (R233). -/
def Dev.readPages (d : Dev) (t : Dataset) (i : Nat) : List (Nat × Nat) :=
  (d.dirPage t i).filter (fun p => !(d.ownPages t i).contains p) ++ d.ownPages t i

/-- The pages that a READ_SAMPLE reads: not the directory page when a buffer holds it (R233). -/
def Dev.pagesRead (d : Dev) (t : Dataset) (i : Nat) (held : Bool) : List (Nat × Nat) := if held then d.ownPages t i else d.readPages t i

/-- Whether a buffer holds the directory page of a sample for a stream: its epoch has read it (R233). -/
def Dev.holdsDir (d : Dev) (st : Stream) (t : Dataset) (i : Nat) : Bool := (d.dirPage t i).all (fun p => st.dirPages.contains p)

/-- The dataset offset of the first unreadable page of those that hold sample `i` (Table 07-9). -/
def Dev.firstUnreadable (d : Dev) (t : Dataset) (i : Nat) : Option Nat :=
  ((d.readPages t i).filterMap (fun p => (AMap.get? d.face.extents p.1).bind (fun x =>
    if x.unreadable.contains p.2 then some (x.offset + p.2 * pageBytes) else none))).head?

/-- READ_SAMPLE from local media (R233, R245). -/
def Dev.readSample (d : Dev) (t : Dataset) (i outMax : Nat) : OpEnd :=
  match d.firstUnreadable t i with
  | some o => .failed ⟨Reason.mediaUnreadable, o⟩
  | none =>
    let (o, n) := d.dirEntry t i
    if outMax < n then .failed ⟨Reason.outMaxExceeded, Config.failOffset Op.readSample (d.datasetBytes t o n)⟩
    else .output (Value.ofBytes (d.datasetBytes t o n))

/-- Whether the exact variant of a dedup op may decide position `pos`: every lower position of the epoch has been decided (R410). -/
def Stream.dedupTurn (st : Stream) (pos op : Nat) : Bool :=
  (List.range pos).all (fun q => match AMap.get? st.samples q with
    | some s => s.decided || s.done.contains op
    | none => false)

/-- The outcome of a verdict of the Screen. -/
def OpEnd.ofVerdict (v : ScreenVerdict) : OpEnd :=
  match v with
  | .pass m => .passOn m
  | .screened => .screened

/-- A Screen op on a sample (R400 to R416). -/
def Dev.screenOp (d : Dev) (sid pos k : Nat) (st : Stream) (s : Sample) (o : OpRec) (exact : Bool) : OpEnd × Dev :=
  let a := s.valueOf o.inA
  let b := s.valueOf o.inB
  let l : Lookup := { tenant := st.tenant, table := o.p 0 2, stream := sid, epoch := st.epoch, pos := pos, exactMode := st.mode }
  let turn := !exact || st.dedupTurn pos k
  let fin := fun (r : ScreenVerdict × Dev) => (OpEnd.ofVerdict r.1, r.2)
  if o.opcode = 0x0501 then
    fin (d.screenRules l { dataset := st.datasetId, index := st.indexOf pos, content := a.data, hash := contentHash a.data })
  else if o.opcode = 0x0502 then fin (d.screenGate st.tenant (o.p 0 4) (o.p 4 1) (leAt b.data 0 4))
  else if !turn then (.waits, d)
  else
    let bit := if o.opcode = 0x0503 then 1 else 2
    let (v, d') := if o.opcode = 0x0503 then d.dedupExact l (o.p 2 1) a.data else d.dedupNear l (o.p 2 1) b.data
    let v := if st.replaysOpen then
        match d.replayDedup st pos k with
        | some true => repeatVerdict (o.p 2 1) bit
        | _ => .pass 0
      else v
    let isRepeat := match v with | .pass m => m != 0 | .screened => true
    (OpEnd.ofVerdict v, d'.logOpen sid LogKind.dedup (leBytes 8 (st.drawOf pos) ++ leBytes 2 k ++ leBytes 1 (bitNat isRepeat) ++ zeros 5))

/-- What the runs of an Anvil op count for the tenant (Tables 10-8, 11-8). -/
def Dev.countAnvil (d : Dev) (t : Nat) (n : AnvilCounts) : Dev :=
  (((d.count Counter.anvilSpanDrop t n.spanDrop).count Counter.int8Saturate t n.saturate).count Counter.anvilNanOut t n.nanOut).count
    Counter.anvilInputMismatch t n.mismatch

/-- The kernel of a VECTOR_MAP: the constants from KERNEL_OFF. -/
def vectorKernelOf (o : OpRec) (consts : List Byte) : List Byte := consts.drop (o.p 0 4)

/-- An output held to OUT_MAX (R187). -/
def heldTo (o : OpRec) (input : List Byte) (v : Value) : OpEnd :=
  if o.outMax < v.data.length then .failed ⟨Reason.outMaxExceeded, Config.failOffset o.opcode input⟩ else .output v

/-- An Anvil op or VECTOR_MAP on a sample (R345, R353, R368, R372). -/
def Dev.cellOp (d : Dev) (st : Stream) (s : Sample) (p : Prog) (o : OpRec) (exact : Bool) : OpEnd × Dev :=
  let v := s.valueOf o.inA
  if o.opcode = 0x0404 then (heldTo o v.data (runVectorMap d.fwMajor (vectorKernelOf o p.consts) v), d)
  else
    let (n, d) := d.draw
    let (r, c) := runModel d.fwMajor (p.models.getD (o.p 0 1) []) (o.p 2 1 == 1 && decide (4 ≤ o.p 1 1) && !exact) n v
    (heldTo o v.data r, d.countAnvil st.tenant c)

/-- A Wedge op on a sample (R430 to R452). -/
def Dev.wedgeOp (d : Dev) (st : Stream) (s : Sample) (p : Prog) (o : OpRec) : OpEnd × Dev :=
  let v := s.valueOf o.inA
  let (r, c) :=
    if o.opcode = 0x0601 then tokeniseBytes (outWidth (o.p 0 1)) o.outMax v.data
    else if o.opcode = 0x0602 then
      tokeniseVocab (((AMap.get? d.vocabs (o.p 0 1)).bind Vocab.image).getD []) (o.p 0 1) (o.p 1 1) (outWidth (o.p 2 1)) o.outMax v.data
    else
      let slot := leAt (v.token.getD []) 1 1
      let img := ((AMap.get? d.vocabs slot).bind Vocab.image).map vocabImg
      detokAudit img ((stopList o.params p.consts).getD []) o.outMax v
  (OpEnd.ofDec r, c.foldl (fun d x => d.count x.1 st.tenant x.2) d)

/-- An in-place request that R330 declines, counted for the tenant. -/
def Dev.countInPlace (d : Dev) (st : Stream) (s : Sample) (o : OpRec) (consts : List Byte) : Dev :=
  let sd := parseDesc (bytesAt consts (o.p 0 4) 128)
  let bufs := ((s.out? o.inA).map OpOut.bufs).getD []
  let one := match bufs with
    | [h] => (((AMap.get? d.tongs.bufs h).map BufRec.refcount).getD 0) == 1
    | _ => false
  let fits := match swageOp o consts (s.valueOf o.inA) with
    | .ok r => decide (r.data.length ≤ (s.valueOf o.inA).data.length)
    | .error _ => true
  if o.opcode = 0x0301 && sd.inPlace && !(one && !sd.pad && fits) then d.count Counter.inPlaceDeclined st.tenant 1 else d

/-- Whether a Swage op writes into its input buffer (R330). -/
def Dev.runsInPlace (d : Dev) (s : Sample) (o : OpRec) (consts : List Byte) (len : Nat) : Bool :=
  let sd := parseDesc (bytesAt consts (o.p 0 4) 128)
  o.opcode == 0x0301 && sd.inPlace && !sd.pad && decide (len ≤ (s.valueOf o.inA).data.length) &&
  (match ((s.out? o.inA).map OpOut.bufs).getD [] with
   | [h] => (((AMap.get? d.tongs.bufs h).map BufRec.refcount).getD 0) == 1
   | _ => false)

/-- Op `k` of the sample at `pos` run (R188). -/
def Dev.runOp (d : Dev) (sid pos k : Nat) (st : Stream) (s : Sample) (p : Prog) (o : OpRec) (exact : Bool) : OpEnd × Dev :=
  if o.opcode = Op.readSample then
    match AMap.get? d.face.datasets st.dataset with
    | some t => (d.readSample t s.index o.outMax, d)
    | none => (.failed ⟨Reason.mediaUnreadable, 0⟩, d)
  else if o.opcode / 256 = 2 then (OpEnd.ofDec (laneOp o p.consts (s.valueOf o.inA)), d)
  else if o.opcode / 256 = 3 then (OpEnd.ofDec (swageOp o p.consts (s.valueOf o.inA)), d.countInPlace st s o p.consts)
  else if o.opcode / 256 = 4 then d.cellOp st s p o exact
  else if o.opcode / 256 = 5 then d.screenOp sid pos k st s o exact
  else d.wedgeOp st s p o

end Sys2Proof.Machine
end

