-- ==== Sys2Proof/Machine/Pipeline.lean ====
section
/-!
DEFINITION. Machine/Pipeline.lean: a sample's way through the ops of its program: items that become eligible, buffers taken and dropped, completion,
and its place in the window (R24 to R27, R54, R117 to R123, R261, R384 to R386, R405, R429, R461).
-/
namespace Sys2Proof.Machine

/-! ### The next ops of a sample -/

/-- Whether an item for op `k` of the sample at `pos` exists. -/
def Dev.opItem? (d : Dev) (sid pos k : Nat) : Option Item := d.tick.items.find? (fun i => i.job == .sample sid pos k)

/-- Ops of a sample whose inputs are complete, and that have not begun. -/
def Dev.readyOps (d : Dev) (sid pos : Nat) (s : Sample) (p : Prog) : List (Nat × OpRec) :=
  (List.range (windowIndex p.ops + 1)).filterMap (fun k => match p.ops[k]? with
    | none => none
    | some o =>
      if k ≠ 0 && !s.done.contains k && s.done.contains o.inA && (o.inB == noOp || s.done.contains o.inB) && (d.opItem? sid pos k).isNone then
        some (k, o)
      else none)

/-- The region whose stack holds the buffers of an output, or a region that stands in where there is none. -/
def regionOfBufs (bufs : List Nat) (dflt : Nat) : Nat := match bufs with | h :: _ => handleRegion h | [] => dflt

/-- WINDOW_PUT: the sample becomes resident, its buffers pass to the window, and assembly goes on (R461, R463). -/
def Dev.windowPut (d : Dev) (sid pos k : Nat) (o : OpRec) : Dev :=
  match (d.stream? sid).bind (fun st => AMap.get? st.samples pos) with
  | none => d
  | some s =>
    let out : OpOut := { op := k, value := s.valueOf o.inA, bufs := ((s.out? o.inA).map OpOut.bufs).getD [] }
    let d := d.handBufs out.bufs OwnerClass.window
    let d := d.writeStream sid (fun st => { st with
      samples := AMap.set st.samples pos { s with state := .resident, outs := [out], done := s.done ++ [k] } })
    d.assemble sid

/-- The item of a BLOCK or REGION op, which runs on a unit at once or in its queue (R185, R54, R429); the block of a BLOCK op is a choice of the
model: the one of the input buffer's region with the shortest queue. -/
def Dev.addDirect (d : Dev) (sid pos k : Nat) (st : Stream) (s : Sample) (p : Prog) (o : OpRec) (at_ : Nat) : Dev :=
  let kind := opKind st.slot k (st.runsExact o)
  let u := opMeasure o p.consts (s.valueOf o.inA)
  let c := opUnit o.opcode o.cls
  let (id, d) := d.addItem st.tenant (.sample sid pos k) o.cls kind k s.due (predictNs (d.coef kind) u) u []
  let near := regionOfBufs (((s.out? o.inA).map OpOut.bufs).getD []) st.home
  let probe := (List.range (d.unitCount c)).find? (d.probeable c)
  let unit := (match probe with | some u => some u | none => d.directUnit c none near).toList
  let d := match probe with | some u => d.takeProbe c u | none => d
  (d.modItem id (fun i => { i with phase := .pending, units := unit, planTick := d.tick.count, probe := probe.isSome })).startItems at_

/-- The item of a LANE or CELL op, which is eligible for the next plan. -/
def Dev.addPlanned (d : Dev) (sid pos k : Nat) (st : Stream) (s : Sample) (p : Prog) (o : OpRec) : Dev :=
  let kind := opKind st.slot k (st.runsExact o)
  let u := opMeasure o p.consts (s.valueOf o.inA)
  (d.addItem st.tenant (.sample sid pos k) o.cls kind k s.due (predictNs (d.coef kind) u) u []).2

/-- The ops of a sample that have become ready, begun. -/
def Dev.startOps (d : Dev) (sid pos at_ : Nat) : Dev :=
  match d.stream? sid with
  | none => d
  | some st => match AMap.get? st.samples pos, d.progOfStream st with
    | some s, some p =>
      if s.state != .flight then d
      else (d.readyOps sid pos s p).foldl (fun d ko =>
        if ko.2.opcode = Op.windowPut then d.windowPut sid pos ko.1 ko.2
        else if ko.2.cls = 5 || ko.2.cls = 6 then d.addDirect sid pos ko.1 st s p ko.2 at_
        else d.addPlanned sid pos ko.1 st s p ko.2) d
    | _, _ => d

/-! ### Outputs and inputs -/

/-- Op `k` of a sample ends with an output in buffers that it holds once: they gain a holder for each further op that takes them; the inputs are
DROPped, but one that is handed on; and the next ops begin (R121, R261, R400). -/
def Dev.opOutput (d : Dev) (sid pos k : Nat) (v : Value) (bufs : List Nat) (marks : Nat) (handsOn : Bool) (at_ : Nat) : Dev :=
  match d.stream? sid with
  | none => d
  | some st => match AMap.get? st.samples pos, d.progOfStream st with
    | some s, some p =>
      let o := p.ops[k]?
      let ina := (o.map OpRec.inA).getD noOp
      let inb := (o.map OpRec.inB).getD noOp
      let bufsOf := fun j => ((s.out? j).map OpOut.bufs).getD []
      let d := (List.range ((p.consumers k).length - 1)).foldl (fun d _ => d.holdBufs bufs) d
      let d := if handsOn then d else d.dropBufs (bufsOf ina) OwnerClass.window st.tenant
      let d := d.dropBufs (bufsOf inb) OwnerClass.window st.tenant
      let done := s.done ++ [k]
      let outs := (s.outs ++ [{ op := k, value := v, bufs := bufs : OpOut }]).filter (fun x => (p.consumers x.op).any (fun c => !done.contains c))
      let d := d.modSample sid pos (fun s => { s with outs := outs, done := done, marks := s.marks ||| marks })
      d.startOps sid pos at_
    | _, _ => d

/-- The OWNER_CLASS of what a class of unit makes (Table 03-9). -/
def UnitClass.owner : UnitClass → Nat
  | .cell => OwnerClass.anvil
  | .lane => OwnerClass.crusher
  | .swage => OwnerClass.swage
  | .screen => OwnerClass.screen
  | .wedge => OwnerClass.wedge
  | .hammer => OwnerClass.hammer
  | .block => OwnerClass.hearth
  | .die => OwnerClass.face

/-- The region in which an item takes its output buffers: its unit's, or the stream's home region for a media item. -/
def Dev.outRegion (d : Dev) (i : Item) (st : Stream) : Nat :=
  match d.itemUnit i, i.units with
  | .die, _ => st.home
  | c, u :: _ => d.regionOfUnit c u
  | _, [] => st.home

/-- An item that will hand nothing on: buffers given to it go back, and its requests are withdrawn. -/
def Dev.forgetItem (d : Dev) (i : Item) : Dev :=
  let mine := (d.tongs.grants.filter (fun g => g.1 == i.id)).map (fun g => g.2.2)
  let got := ((i.out.map OutWait.got).getD []).map Prod.snd
  let d : Dev := { d with tongs := { d.tongs with
    grants := d.tongs.grants.filter (fun g => g.1 != i.id), waiting := d.tongs.waiting.filter (fun w => w.item != i.id) } }
  (d.dropBufs (got ++ mine) OwnerClass.crusher i.queue).dropItem i.id

/-- The links of an output put in order. -/
def linkOrder (l : List (Nat × Nat)) : List Nat := (sortByKey Prod.fst l).map Prod.snd

/-- The number from which the buffers of an item's working state are counted; a chain has at most 256 links (R303). -/
def workLink : Nat := 4096

/-- The output of an item handed on, and the buffers of its working state freed (R261). -/
def Dev.handOn (d : Dev) (i : Item) (cls sid pos k : Nat) (v : Value) (all : List (Nat × Nat)) (at_ : Nat) : Dev :=
  let d := d.dropBufs ((all.filter (fun x => decide (workLink ≤ x.1))).map Prod.snd) cls i.queue
  (d.dropItem i.id).opOutput sid pos k v (linkOrder (all.filter (fun x => decide (x.1 < workLink)))) 0 false at_

/-- The output of an item handed on once its working state, of `work` bytes, and every link of its chain have been there; else it waits (R118, R119, R261). -/
def Dev.deliver (d : Dev) (i : Item) (cls sid pos k : Nat) (st : Stream) (v : Value) (work at_ : Nat) : Dev :=
  let (own, wants, d) := d.requestChain (d.outRegion i st) st.tenant cls i.id workLink (chainLinks work)
  let (got, left, d) := d.requestChain (d.outRegion i st) st.tenant cls i.id 0 (chainLinks v.data.length)
  let got := own ++ got
  let left := wants + left
  if left = 0 then d.handOn i cls sid pos k v got at_
  else d.modItem i.id (fun x => { x with phase := .running, out := some { value := v, got := got, left := left, grow := none } })

/-! ### Outputs that grow (R302, R430) -/

/-- The buffers that an output of `len` bytes takes while it is written: the working buffer of 1 MiB, and links of 16 MiB once it has passed that. -/
def growSteps (len : Nat) : List Nat :=
  1048576 :: (if len ≤ 1048576 then [] else List.replicate ((len + 16777215) / 16777216) 16777216)

/-- Buffer `k` taken: the first link takes the place of the working buffer, and each further link is counted. -/
def Dev.growTake (d : Dev) (i : Item) (cls k : Nat) (got : List (Nat × Nat)) (h : Nat) : List (Nat × Nat) × Dev :=
  if k = 1 then ([(1, h)], d.dropBufs (got.map Prod.snd) cls i.queue)
  else (got ++ [(k, h)], if k = 0 then d else d.count Counter.chainLink i.queue 1)

/-- The links of a finished output of `len` bytes: the last is copied into a smaller buffer where one fits, and an empty output keeps none. -/
def Dev.copyDown (d : Dev) (r cls tenant len : Nat) (hs : List Nat) : List Nat × Dev :=
  if len = 0 then ([], d.dropBufs hs cls tenant)
  else match hs.getLast?, d.allocBuf r (len - 16777216 * (hs.length - 1)) tenant cls with
    | some h, some (b, d') =>
      if handlePool b < handlePool h then (hs.dropLast ++ [b], (d'.dropBuf h cls tenant).count Counter.copyDown tenant 1) else (hs, d)
    | _, _ => (hs, d)

/-- A growing output from its buffer `k` on: it takes the buffers in turn, waits where none is free, and is handed on when it has them all. -/
def Dev.growFrom (d : Dev) (i : Item) (r cls sid pos op : Nat) (v : Value) (at_ k : Nat) (got : List (Nat × Nat)) : List Nat → Dev
  | [] =>
    let (hs, d) := d.copyDown r cls i.queue v.data.length (linkOrder got)
    (d.dropItem i.id).opOutput sid pos op v hs 0 false at_
  | n :: rest => match d.requestBuf r n i.queue cls i.id k with
    | (some h, d) =>
      let (got, d) := d.growTake i cls k got h
      Dev.growFrom d i r cls sid pos op v at_ (k + 1) got rest
    | (none, d) => d.modItem i.id (fun x => { x with phase := .running, out := some { value := v, got := got, left := 1, grow := some k } })

/-- A growing output given the buffer that it waited for. -/
def Dev.growLate (d : Dev) (i : Item) (w : OutWait) (sid pos op k at_ : Nat) (st : Stream) (h : Nat) : Dev :=
  let cls := (d.itemUnit i).owner
  let (got, d) := d.growTake i cls k w.got h
  d.growFrom i (d.outRegion i st) cls sid pos op w.value at_ (k + 1) got ((growSteps w.value.data.length).drop (k + 1))

/-- Whether an op's output grows as it is written: that of DECOMPRESS and of every Wedge op. -/
def Dev.grows (d : Dev) (i : Item) (o : OpRec) : Bool := o.opcode == 0x0203 || d.itemUnit i == .wedge

/-- An item that has waited for buffers: it ends once all of them have been given. -/
def Dev.deliverLate (d : Dev) (i : Item) (w : OutWait) (at_ : Nat) : Dev :=
  let mine := d.tongs.grants.filter (fun g => g.1 == i.id)
  if mine.length < w.left then d
  else match i.job with
    | .sample sid pos k =>
      let d : Dev := { d with tongs := { d.tongs with grants := d.tongs.grants.filter (fun g => g.1 != i.id) } }
      match w.grow, mine.head?, d.stream? sid with
      | some n, some g, some st => d.growLate i w sid pos k n at_ st g.2.2
      | _, _, _ => d.handOn i (d.itemUnit i).owner sid pos k w.value (w.got ++ mine.map (fun g => g.2)) at_
    | _ => d

/-! ### Measured times (R25, R65, R260, R384) -/

/-- Unit `u` of a class, and its block, noted and perhaps returned to service. -/
def Dev.noteUnit (d : Dev) (c : UnitClass) (u ns predicted : Nat) (probe : Bool) : Dev :=
  let d := (d.noteLatency c u ns predicted probe).limpRecover c u
  match c with
  | .cell | .lane | .swage | .screen => (d.noteLatency .block (blockOfUnit c u) ns predicted probe).limpRecover .block (blockOfUnit c u)
  | _ => d

/-- The time that an item took, entered into the mean of its kind and into the ratios of its units. -/
def Dev.noteItem (d : Dev) (i : Item) (ns : Nat) : Dev :=
  let m := AMap.getD d.tick.measured i.kind ((0 : Rat), 0)
  let d : Dev := if i.kind = 0 then d
    else { d with tick := { d.tick with measured := AMap.set d.tick.measured i.kind (m.1 + measuredCoef ns i.measure, m.2 + 1) } }
  i.units.foldl (fun d u => d.noteUnit (d.itemUnit i) u ns i.cost i.probe) d

/-! ### Completion -/

/-- The outcome of a sample's op, and the time it took. -/
def Dev.endOp (d : Dev) (i : Item) (sid pos k : Nat) (st : Stream) (p : Prog) (o : OpRec) (e : OpEnd) (inPlace : Bool) (ns at_ : Nat) : Dev :=
  match e with
  | .waits => d
  | .failed c => (d.dropItem i.id).skipCorrupt sid pos c.reason k c.offset |>.assemble sid
  | .screened => ((d.noteItem i ns).dropItem i.id).skipScreened sid pos Counter.screenedOut |>.assemble sid
  | .passOn m =>
    let s := (AMap.get? st.samples pos).getD (Sample.make 0 0)
    ((d.noteItem i ns).dropItem i.id).opOutput sid pos k (s.valueOf o.inA) (((s.out? o.inA).map OpOut.bufs).getD []) m true at_
  | .output v =>
    let d := d.noteItem i ns
    if inPlace && d.runsInPlace ((AMap.get? st.samples pos).getD (Sample.make 0 0)) o p.consts v.data.length then
      let s := (AMap.get? st.samples pos).getD (Sample.make 0 0)
      (d.dropItem i.id).opOutput sid pos k v (((s.out? o.inA).map OpOut.bufs).getD []) 0 true at_
    else if d.grows i o then d.growFrom i (d.outRegion i st) (d.itemUnit i).owner sid pos k v at_ 0 [] (growSteps v.data.length)
    else d.deliver i (d.itemUnit i).owner sid pos k st v (laneWork o (((AMap.get? st.samples pos).getD (Sample.make 0 0)).valueOf o.inA).data) at_

/-- A sample's op completes on its unit after `ns`. -/
def Dev.endSample (d : Dev) (i : Item) (sid pos k ns at_ : Nat) : Dev :=
  match d.stream? sid with
  | none => d.forgetItem i
  | some st => match AMap.get? st.samples pos, d.progOfStream st with
    | some s, some p => match p.ops[k]? with
      | none => d.forgetItem i
      | some o =>
        if i.discard || s.state != .flight then d.forgetItem i
        else
          let (e, d) := d.runOp sid pos k st s p o (kindExact i.kind)
          d.endOp i sid pos k st p o e true ns at_
    | _, _ => d.forgetItem i

/-- A billet that holds position `pos`, open or closed, changed. -/
def Dev.modBilletOf (d : Dev) (sid pos : Nat) (f : Billet → Billet) : Dev :=
  let g := fun (b : Billet) => if b.samples.any (fun x => x.pos == pos) then f b else b
  d.modStream sid (fun st => { st with open_ := st.open_.map g, closed := st.closed.map g })

/-- A BUCKET or PACK item completes: after BUCKET the sample's PACK item is eligible; after PACK its billet has one fewer to wait for (R469). -/
def Dev.endPack (d : Dev) (i : Item) (sid bucket pos ns : Nat) : Dev :=
  let d := if i.discard then d else d.noteItem i ns
  let d := d.dropItem i.id
  match d.stream? sid with
  | none => d
  | some st => match d.progOfStream st with
    | none => d
    | some p =>
      if opcodeAt p.ops i.op = Op.bucket then
        let tokens := (((st.open_ ++ st.closed).flatMap Billet.samples).find? (fun x => x.pos == pos)).map Placed.tokens
        match p.packOp with
        | some (j, _) => d.addHammerItem sid bucket pos (i.units.headD 0) j i.due (tokens.getD 0)
        | none => d
      else d.modBilletOf sid pos (fun b => { b with packLeft := b.packLeft - 1 })

/-- The items that complete with an item: those of its group in its heat (R386). -/
def Dev.heatMates (d : Dev) (i : Item) : List Item :=
  if i.cls ≠ 2 then [i]
  else d.tick.items.filter (fun j => j.cls == 2 && j.phase == .running && j.out.isNone && j.units == i.units && j.planTick == i.planTick && j.heat == i.heat)

/-- RING_BOUND_HEAT of a heat whose last items have completed (R384). -/
def Dev.heatComplete (d : Dev) (i : Item) : Dev :=
  if i.cls = 2 && i.ringBound && !d.tick.items.any (fun j => j.cls == 2 && j.planTick == i.planTick && j.heat == i.heat) then
    d.count Counter.ringBoundHeat 0 1
  else d

/-- An item of a stage program completes at `at_` ns after the boundary, and what waits for its unit starts. -/
def Dev.completeItem (d : Dev) (i : Item) (at_ : Nat) : Dev :=
  match i.out with
  | some w => if i.discard then d.forgetItem i else d.deliverLate i w at_
  | none =>
    let mates := d.heatMates i
    let ns := i.runFor at_ / max 1 mates.length
    let d := mates.foldl (fun d j => match j.job with
      | .sample sid pos k => d.endSample j sid pos k ns at_
      | .pack sid bucket pos => d.endPack j sid bucket pos ns
      | _ => d) d
    (d.heatComplete i).startItems at_

end Sys2Proof.Machine
end

