-- ==== Sys2Proof/Machine/Haul.lean ====
section
/-!
DEFINITION. Machine/Haul.lean: ports, reservoirs, the ring and its publication, congestion control and the reservoir controller (R490 to R518).
-/
namespace Sys2Proof.Machine

/-! ### Ports and reservoirs -/

/-- Whether port `p` is in service. -/
def Dev.portUp (d : Dev) (p : Nat) : Bool := decide (p < variantPorts d.boot.fuses.variant) && ((d.haul.ports[p]?).map Port.inService).getD false

/-- The port that the device chooses (R496), or the one named; none when no usable port is there. -/
def Dev.choosePort (d : Dev) (named : Nat) : Option Nat :=
  if named ≠ 0xFF then (if d.portUp named then some named else none)
  else
    let up := (List.range 4).filter d.portUp
    let fit := up.filter (fun p => !((d.haul.ports[p]?).map Port.demoted).getD false)
    argMin (fun p => d.haul.reservoirs.countP (fun r => r.2.port == p)) (if fit.isEmpty then up else fit)

/-- A reservoir by its INDEX. -/
def Dev.res? (d : Dev) (key : Nat) : Option Reservoir := AMap.get? d.haul.reservoirs key

/-- A reservoir changed. -/
def Dev.modRes (d : Dev) (key : Nat) (f : Reservoir → Reservoir) : Dev :=
  { d with haul := { d.haul with reservoirs := AMap.mod d.haul.reservoirs key f } }

/-- The device's queue pair of a reservoir (Table 15-1). -/
def resQpn (key : Nat) : Nat := 0x400000 + key

/-- The device's queue pair of a peer (R519). -/
def peerQpn (peer : Nat) : Nat := 0x800000 + peer

/-- The stream whose RESERVOIR_MAP holds a reservoir's bit. -/
def Dev.boundStream (d : Dev) (key : Nat) : Option (Nat × Stream) :=
  d.streams.find? (fun p => p.2.tenant == resTenant key && bitOf p.2.resMap (resNum key))

/-- R_MAX, R_MIN and R_AI in bytes per µs (Table 15-3). -/
def rateMax : Rat := 100000
def rateMin : Rat := 125 / 10
def rateStep : Rat := 500

/-- A binary64 sum, difference, product with a constant, and quotient (R515). -/
def add64 (a b : Rat) : Rat := roundBin64 (a + b)
def div64 (a b : Rat) : Rat := roundBin64 (a / b)

/-! ### Attaching (R495 to R498) -/

/-- Billet formats, highest first. -/
def billetFormats : List Nat := [0x0201, 0x0200, 0x0101, 0x0100]

/-- Whether an address lies outside the ring at `a` of `n` bytes. -/
def outsideRing (x a n : Nat) : Bool := decide (x + 8 ≤ a) || decide (a + n ≤ x)

/-- Step 8 of CONSUMER_ATTACH: fields in their ranges, then a billet format. -/
def attachField (x : Ctx) : Option Status :=
  let port := x.get 3 1
  let flags := x.get 8 1
  let vlan := x.get 10 2 % 4096
  let ring := x.get 64 8
  let c := x.get 72 8
  let tail := x.get 80 8
  let head := x.get 88 8
  firstFail [
    needs (decide (port ≤ 3) || port == 0xFF) Status.fieldInvalid,
    needs (if bitOf flags 2 then decide (1 ≤ vlan && vlan ≤ 4094) else vlan == 0) Status.fieldInvalid,
    needs (ring % 4096 == 0 && decide (1048576 ≤ c && c ≤ 2 ^ 40) && c % 4096 == 0) Status.fieldInvalid,
    needs (tail % 8 == 0 && outsideRing tail ring c) Status.fieldInvalid,
    needs (if bitOf flags 1 then head % 8 == 0 && outsideRing head ring c else head == 0) Status.fieldInvalid,
    needs (billetFormats.any (fun f => decide (x.get 4 2 ≤ f) && decide (f ≤ x.get 6 2))) Status.versionUnsupported]

/-- The reservoir that an attach creates. -/
def attached (x : Ctx) (n port : Nat) : Reservoir :=
  let flags := x.get 8 1
  { state := .attaching, attach := some (x.w, n), detach := [], port := port
    fmt := (billetFormats.find? (fun f => decide (x.get 4 2 ≤ f) && decide (f ≤ x.get 6 2))).getD 0x0100
    flush := bitOf flags 0, vlanEn := bitOf flags 2, gaugeRead := bitOf flags 1, dscp := x.get 9 1, pcp := x.get 10 2 / 8192
    vlanId := x.get 10 2 % 4096, remoteQpn := x.get 12 4, remotePsn := x.get 16 4, rkey := x.get 20 4, mac := x.raw 24 6
    localGid := x.raw 32 16, remoteGid := x.raw 48 16, ringAddr := x.get 64 8, ringBytes := x.get 72 8, tailAddr := x.get 80 8
    headAddr := x.get 88 8, gauge := none, gaugeNext := none, head := none, tail := 0, published := 0, acked := 0, virtualTail := 0
    hPrev := 0, d := 0, i := 0, a := 0, lbar := 0, lMax := 0, nextSeq := 0, due := [], billets := [], writes := [], fences := [], fencedTo := 0
    nextOp := 0, tails := [], rate := rateMax, alpha := 1, lastDecrease := none, cnpInPeriod := false, retries := 0, ticksActive := 0
    fill := 0, rateSeen := rateMax }

/-- Counters of reservoir scope, SLIP aside (Table 15-12). -/
def reservoirCounters : List Nat :=
  [Counter.billetDelivered, Counter.billetLost, Counter.billetDiscarded, Counter.reservoirFullWait, Counter.dryTick, Counter.headInvalid]

/-- CONSUMER_ATTACH (R495). The address and key of the gauge page are free values. -/
def cmdConsumerAttach : Cmd :=
  { opcode := 0x0501
    ticketed := true
    check := fun d x =>
      let t := x.get 0 2
      let key := resKey t (x.get 2 1)
      { lenOk := x.r.len == 96
        rsvOk := decide (t < 1024) && decide (x.get 8 1 < 8) && decide (x.get 9 1 < 64) && !bitOf (x.get 10 2) 12 && x.rsv 15 1 && x.rsv 19 1 && x.rsv 30 2
        field := attachField x
        object := d.tenantObject x t
        state := d.ownerEnabled t
        own := firstFail [
          needs (!AMap.has d.haul.reservoirs key) Status.reservoirExists,
          needs (decide (d.haul.reservoirs.countP (fun p => resTenant p.1 == t) < 256) && decide (d.haul.reservoirs.length < 16384)) Status.noReservoir,
          needs (d.choosePort (x.get 3 1)).isSome Status.portUnavailable]
        subject := key }
    run := fun d x n =>
      let key := resKey (x.get 0 2) (x.get 2 1)
      let port := (d.choosePort (x.get 3 1)).getD 0
      let (q, d) := d.draw
      let r := attached x n port
      let d := d.clearCounters (fun id i => (i == key && reservoirCounters.contains id) || (id == Counter.slip && i == slipResIndex key))
      let d : Dev := { d with haul := { d.haul with reservoirs := AMap.set d.haul.reservoirs key r } }
      { dev := d.initParams .reservoir key
        payload := leBytes 4 (resQpn key) ++ leBytes 1 port ++ leBytes 1 (bitNat r.flush) ++ leBytes 2 r.fmt ++
          leBytes 8 (Config.freeValue q) ++ leBytes 4 (Config.freeValue q / 2 ^ 64) ++ zeros 4 } }

/-- CONSUMER_ATTACH (R495). -/
def execConsumerAttach (w : Window) (r : Request) (s : State) : Out := s.onDoorbell cmdConsumerAttach w r

/-- A stream's RESERVOIR_MAP as a list of reservoir indices. -/
def mapBits (m : Nat) : List Nat := (List.range 256).filter (bitOf m)

/-- A reservoir's bit in a stream's RESERVOIR_MAP set or cleared; the dealing set of a live-ingest stream follows at once (R498). -/
def Dev.setMap (d : Dev) (sid num : Nat) (on : Bool) : Dev :=
  d.writeStream sid (fun st =>
    let m := if on then st.resMap ||| 2 ^ num else st.resMap &&& ((2 ^ 256 - 1) ^^^ 2 ^ num)
    { st with resMap := m, dealing := if st.ingest.isSome then mapBits m else st.dealing })

/-- RESERVOIR_BIND (R498). -/
def cmdReservoirBind : Cmd :=
  { opcode := 0x0503
    check := fun d x =>
      let key := x.get 0 4
      let sid := x.get 4 4
      { lenOk := x.r.len == 16
        rsvOk := x.rsv 9 7
        field := needs (decide (key < 2 ^ 18) && decide (sid < 2 ^ 20) && decide (x.get 8 1 ≤ 1)) Status.fieldInvalid
        object := firstFail [d.streamObject x sid, needs (((d.stream? sid).map Stream.tenant) == some (resTenant key)) Status.notOwner]
        state := firstFail [d.ownerEnabled (resTenant key), needs (((d.stream? sid).bind Stream.replayOf).isNone) Status.streamState]
        own := match d.res? key, d.stream? sid with
          | none, _ => some Status.noSuchReservoir
          | some r, some st =>
            if x.get 8 1 = 1 then none
            else firstFail [
              needs (d.streams.all (fun p => p.1 == sid || p.2.tenant != resTenant key || !bitOf p.2.resMap (resNum key))) Status.reservoirBound,
              needs (decide (4 * ((d.progOfStream st).map Prog.lMax).getD 0 ≤ r.ringBytes)) Status.billetTooLarge]
          | some _, none => none }
    run := fun d x _ => { dev := d.setMap (x.get 4 4) (resNum (x.get 0 4)) (x.get 8 1 == 0) } }

/-- RESERVOIR_BIND (R498). -/
def execReservoirBind (w : Window) (r : Request) (s : State) : Out := s.onDoorbell cmdReservoirBind w r

/-- ATTACH_TIMEOUT: an attach without a valid head for 10 s (R497). -/
def Dev.attachTimeout (d : Dev) (key : Nat) : Dev :=
  match d.res? key with
  | none => d
  | some r =>
    if r.state != .attaching then d
    else
      let d : Dev := { d with haul := { d.haul with reservoirs := AMap.del d.haul.reservoirs key } }
      match r.attach with
      | some (w, n) => d.completeTicket w n Status.attachTimeout 0
      | none => d

/-- ATTACH_TIMEOUT (R497). -/
def execAttachTimeout (tenant reservoir : Nat) (s : State) : Out := s.onRunning (fun d => d.attachTimeout (resKey tenant reservoir))

/-! ### Writes, fences and tails (R494, R500 to R507) -/

/-- Bytes left before the end of the ring at a count (R500). -/
def ringLeft (c count : Nat) : Nat := c - count % c

/-- What a billet of `len` bytes at tail `t` first skips (R500). -/
def wrapSkip (c t len : Nat) : Nat := if ringLeft c t < len && ringLeft c t != c then ringLeft c t else 0

/-- The last valid head, 0 before the first. -/
def Reservoir.headNow (r : Reservoir) : Nat := r.head.getD 0

/-- WRITEs of a reservoir that are outstanding (R494). -/
def Reservoir.outWrites (r : Reservoir) : Nat := r.writes.countP (fun w => w.posted.isSome)

/-- WRITEs outstanding on the chip. -/
def Dev.outWrites (d : Dev) : Nat := sumNat (d.haul.reservoirs.map (fun p => p.2.outWrites))

/-- The messages of at most 1,048,576 bytes that carry `data` to `addr` (R494). -/
def writeChunks (batch addr : Nat) (data : List Byte) : List Write :=
  (List.range (ceilDiv data.length 1048576)).map (fun k =>
    { batch := batch, addr := addr + k * 1048576, data := (data.drop (k * 1048576)).take 1048576, posted := none, counted := false : Write })

/-- The wrap marker (R500). -/
def wrapMarker : List Byte := leBytes 4 0x50415257 ++ zeros 60

/-- The first write of a reservoir that waits, posted if both limits allow; else it counts once in WRITE_CREDIT_WAIT (R494). -/
def Dev.postWrite (d : Dev) (key : Nat) : Option Dev :=
  match d.res? key with
  | none => none
  | some r => match r.writes.findIdx? (fun w => w.posted.isNone) with
    | none => none
    | some k => match r.writes[k]? with
      | none => none
      | some w =>
        if r.outWrites < 256 && decide (d.outWrites < 65536) then
          let d := d.modRes key (fun r => { r with writes := r.writes.set k { w with posted := some r.nextOp }, nextOp := r.nextOp + 1 })
          some (d.emit (.rdmaWrite (resQpn key) w.addr r.rkey w.data))
        else none

/-- The fence of a batch whose writes have all been posted (R505). -/
def Dev.postFence (d : Dev) (key : Nat) : Dev :=
  match d.res? key with
  | none => d
  | some r =>
    match (r.billets.filter (fun e => decide (r.fencedTo ≤ e.batch))).head? with
    | none => d
    | some e =>
      let mine := r.billets.filter (fun x => x.batch == e.batch)
      if mine.all (fun x => x.tailAfter.isSome) && r.writes.all (fun w => w.batch != e.batch || w.posted.isSome) then
        let d := d.modRes key (fun r => { r with fences := r.fences ++ [(e.batch, r.nextOp)], fencedTo := e.batch + 1, nextOp := r.nextOp + 1 })
        d.emit (if r.flush then .rdmaFlush (resQpn key) 0 r.rkey 0 else .rdmaRead (resQpn key) r.ringAddr r.rkey 0)
      else d

/-- Waiting writes of a reservoir posted as far as the limits allow, then the fence of a complete batch. -/
def Dev.postWrites (fuel : Nat) (key : Nat) (d : Dev) : Dev :=
  match fuel with
  | 0 => d
  | f + 1 => match d.postWrite key with
    | some d => Dev.postWrites f key d
    | none =>
      let waits := ((d.res? key).map (fun r => r.writes.countP (fun w => w.posted.isNone && !w.counted))).getD 0
      let d := d.modRes key (fun r => { r with writes := r.writes.map (fun w => if w.posted.isNone then { w with counted := true } else w) })
      (d.count Counter.writeCreditWait 0 waits).postFence key

/-- The billets of a reservoir written in order: one is written once its EMIT has been admitted and the ring has room (R504). -/
def Dev.postBillets (fuel : Nat) (key : Nat) (d : Dev) : Dev :=
  match fuel with
  | 0 => d
  | f + 1 => match d.res? key with
    | none => d
    | some r => match r.billets.find? (fun e => e.tailAfter.isNone) with
      | none => d
      | some e =>
        if r.state != .active || !e.admitted then d
        else
          let c := r.ringBytes
          let z := wrapSkip c r.tail e.len
          let setE := fun (d : Dev) (g : Emission → Emission) =>
            d.modRes key (fun r => { r with billets := r.billets.map (fun x => if x.seq = e.seq then g x else x) })
          if c - (r.tail - r.headNow) < e.len + z then
            if e.counted then d else (setE d (fun x => { x with counted := true })).count Counter.reservoirFullWait key 1
          else
            let at_ := r.tail + z
            let marker := if z = 0 then [] else writeChunks e.batch (r.ringAddr + r.tail % c) wrapMarker
            let ws := marker ++ writeChunks e.batch (r.ringAddr + at_ % c) e.data
            let d := setE d (fun x => { x with tailAfter := some (at_ + e.len) })
            let d := d.modRes key (fun r => { r with tail := at_ + e.len, writes := r.writes ++ ws })
            Dev.postBillets f key (Dev.postWrites (ws.length + 1) key d)

/-- Everything that a reservoir can post, posted. -/
def Dev.pushReservoir (d : Dev) (key : Nat) : Dev :=
  let n := ((d.res? key).map (fun r => (r.billets.length, r.writes.length))).getD (0, 0)
  Dev.postWrites (n.2 + 1) key (Dev.postBillets (n.1 + 1) key d)

/-- Every reservoir after credit has come free: the one named first, then the others in ascending order. -/
def Dev.pushAll (d : Dev) (key : Nat) : Dev :=
  let keys := (d.haul.reservoirs.map Prod.fst).filter (fun k => k != key)
  keys.foldl Dev.pushReservoir (d.pushReservoir key)

/-- A tail published (R501). -/
def Dev.publish (d : Dev) (key tail batch : Nat) : Dev :=
  match d.res? key with
  | none => d
  | some r =>
    let d := d.modRes key (fun r => { r with published := tail, tails := r.tails ++ [{ batch := batch, tail := tail, order := r.nextOp }], nextOp := r.nextOp + 1 })
    d.emit (.rdmaWrite (resQpn key) r.tailAddr r.rkey (leBytes 8 tail))

/-- The response to the oldest fence: what was posted before it is acknowledged, the batch's buffers are DROPped, and its tail is published while
the reservoir is ACTIVE (R505, R507, R508, R510). -/
def Dev.fenceResponse (d : Dev) (key : Nat) : Dev :=
  match d.res? key with
  | none => d
  | some r => match r.fences with
    | [] => d
    | (batch, order) :: rest =>
      if r.state != .active && r.state != .detaching then d
      else
        let mine := r.billets.filter (fun e => e.batch == batch)
        let d := d.modRes key (fun r => { r with
          fences := rest, retries := 0, writes := r.writes.filter (fun w => match w.posted with | some o => decide (order < o) | none => true)
          billets := r.billets.map (fun e => if e.batch = batch then { e with fenced := true, bufs := [] } else e) })
        let d := mine.foldl (fun d e => d.dropBufs e.bufs OwnerClass.egress (resTenant key)) d
        let d := if r.state = .active then d.publish key (maxNat (mine.filterMap Emission.tailAfter)) batch else d
        d.pushAll key

/-- FENCE_RESPONSE (R505). -/
def execFenceResponse (tenant reservoir : Nat) (s : State) : Out := s.onRunning (fun d => d.fenceResponse (resKey tenant reservoir))

/-- The ACK of the oldest WRITE or tail publication that no fence holds back: credit comes free, or the billets that a tail covers are delivered
(R494, R507). -/
def Dev.rdmaAck (d : Dev) (key : Nat) : Dev :=
  match d.res? key with
  | none => d
  | some r =>
    let w := (r.writes.filterMap Write.posted).foldl (fun (m : Option Nat) o => match m with | some x => some (min x o) | none => some o) none
    let t := r.tails.head?
    let barred := fun (o : Nat) => match r.fences with | (_, x) :: _ => decide (x < o) | [] => false
    let isTail := match w, t with
      | some x, some y => decide (y.order < x)
      | none, some _ => true
      | _, _ => false
    if isTail then
      match t with
      | none => d
      | some p =>
        if barred p.order then d
        else
          let got := r.billets.filter (fun e => match e.tailAfter with | some x => decide (x ≤ p.tail) | none => false)
          let d := d.modRes key (fun r => { r with
            tails := r.tails.tail, acked := p.tail, retries := 0,
            billets := r.billets.filter (fun e => match e.tailAfter with | some x => decide (p.tail < x) | none => true) })
          d.count Counter.billetDelivered key got.length
    else match w with
      | none => d
      | some o =>
        if barred o then d
        else (d.modRes key (fun r => { r with retries := 0, writes := r.writes.filter (fun w => w.posted != some o) })).pushAll key

/-- RDMA_ACK (R507). -/
def execRdmaAck (tenant reservoir : Nat) (s : State) : Out := s.onRunning (fun d => d.rdmaAck (resKey tenant reservoir))

/-! ### Hand-off (R504, R507, R509) -/

/-- A billet taken from the closed billets of its stream; its samples count as emitted (Table 03-3). -/
def Dev.takeBillet (d : Dev) (sid num : Nat) : Dev :=
  let n := (((d.stream? sid).bind (fun st => st.closed.find? (fun b => b.num == num))).map (fun b => b.samples.length)).getD 0
  d.writeStream sid (fun st => { st with closed := st.closed.filter (fun b => b.num != num), emitted := st.emitted + n })

/-- The buffers of a billet. -/
def Billet.bufs (b : Billet) : List Nat := b.samples.flatMap Placed.bufs

/-- A billet handed to the Haul at a slot: its buffers pass to EGRESS, BILLET_SEQ goes into its header, and its EMIT is an item, due in this tick (R504, R186). -/
def Dev.handOver (d : Dev) (key sid seq : Nat) (b : Billet) : Dev :=
  match d.res? key, d.stream? sid with
  | some r, some st => match d.progOfStream st with
    | none => d
    | some p =>
      let data := b.bytes { fmt := r.fmt, formatField := r.fmt, seq := seq, reservoir := resNum key, check := true } sid st p
      let e : Emission :=
        { seq := seq, stream := sid, num := b.num, len := data.length, data := data, bufs := b.bufs, batch := d.tick.count, tailAfter := none,
          counted := false, admitted := false, fenced := false }
      let d := (d.handBufs b.bufs OwnerClass.egress).takeBillet sid b.num
      let d := d.modRes key (fun r => { r with
        billets := r.billets ++ [e], due := r.due.filter (fun s => s != seq), virtualTail := r.virtualTail + wrapSkip r.ringBytes r.virtualTail e.len + e.len })
      (d.addItem st.tenant (.emit key seq) 4 0 (p.ops.length - 1) d.tick.count (max 1 e.len) (e.len, 1) []).2
  | _, _ => d

/-- A billet dropped at its slot: nothing can deliver it (R509). -/
def Dev.discardBillet (d : Dev) (key sid : Nat) (b : Billet) : Dev :=
  let t := resTenant key
  ((d.dropBufs b.bufs OwnerClass.hammer t).takeBillet sid b.num).count Counter.billetDiscarded key 1

/-- Whether a billet's reservoir leaves it without delivery: it is FAILED, or not attached (R509). -/
def Dev.undeliverable (d : Dev) (key : Nat) : Bool := match d.res? key with | none => true | some r => r.state == .failed

/-- The billets of a stream that no reservoir will take, dropped at the first boundary after they closed (R509). -/
def Dev.discardDealt (d : Dev) (sid : Nat) : Dev :=
  match d.stream? sid with
  | none => d
  | some st => if st.replayOf.isSome then d
    else st.closed.foldl (fun d b => match b.res with
      | some r => if d.undeliverable (resKey st.tenant r) && decide (b.closeTick < d.tick.count) then d.discardBillet (resKey st.tenant r) sid b else d
      | none => d) d

/-- The EMIT item of an emission starts: its billet may be written (R504). -/
def Dev.emitStart (d : Dev) (key seq : Nat) : Dev :=
  (d.modRes key (fun r => { r with billets := r.billets.map (fun e => if e.seq = seq then { e with admitted := true } else e) })).pushReservoir key

/-- Whether every write of an emission has been posted. -/
def Dev.emitPosted (d : Dev) (key seq : Nat) : Bool :=
  match (d.res? key) with
  | none => true
  | some r => match r.billets.find? (fun e => e.seq == seq) with
    | none => true
    | some e => e.tailAfter.isSome && r.writes.all (fun w => w.batch != e.batch || w.posted.isSome)

/-- An EMIT item completes once the WRITEs of its billet are posted. -/
def Dev.emitComplete (d : Dev) (i : Item) (key seq : Nat) : Dev := if d.emitPosted key seq then d.dropItem i.id else d

/-! ### Failure and detaching (R497, R508, R510) -/

/-- The EMIT items of a reservoir, gone. -/
def Dev.dropEmits (d : Dev) (key : Nat) : Dev :=
  { d with tick := { d.tick with items := d.tick.items.filter (fun i => match i.job with | .emit k _ => k != key | _ => true) } }

/-- The billets that a reservoir holds, given up: those written and never published are lost, the others are discarded (R508, R510). -/
def Dev.loseBillets (d : Dev) (key : Nat) : Dev :=
  match d.res? key with
  | none => d
  | some r =>
    let lost := r.billets.filter (fun e => e.tailAfter.isSome)
    let d := r.billets.foldl (fun d e => d.dropBufs e.bufs OwnerClass.egress (resTenant key)) d
    let d := (d.count Counter.billetLost key lost.length).count Counter.billetDiscarded key (r.billets.length - lost.length)
    (d.modRes key (fun r => { r with billets := [], writes := [], fences := [], tails := [] })).dropEmits key

/-- A reservoir fails (R497, R508): RESERVOIR_FAILED to its tenant and to the administrative window. -/
def Dev.failReservoir (d : Dev) (key reason : Nat) : Dev :=
  match d.res? key with
  | none => d
  | some r =>
    if r.state != .active then d
    else
      let f := [(20, 1, reason), (21, 1, r.port), (24, 8, r.acked)]
      let d := (d.modRes key (fun r => { r with state := .failed, due := [] })).loseBillets key
      (d.event (resTenant key) EventCode.reservoirFailed key f).event adminWin EventCode.reservoirFailed key f

/-- A port leaves service: HAUL_FAULT, and its ACTIVE reservoirs fail (R490, R497). -/
def Dev.portLost (d : Dev) (p : Nat) : Dev :=
  if !d.portUp p then d
  else
    let d : Dev := { d with haul := { d.haul with ports := d.haul.ports.modify p (fun x => { x with inService := false }) } }
    let d := d.chipTrouble ChipBit.haulFault
    (d.haul.reservoirs.filter (fun r => r.2.port == p)).foldl (fun d r => d.failReservoir r.1 4) d

/-- PORT_LINK_LOSS (R490). -/
def execPortLinkLoss (port : Nat) (s : State) : Out := s.onRunning (fun d => d.portLost port)

/-- ETH_REFCLK_LOSS (R714). -/
def execEthRefclkLoss (port : Nat) (s : State) : Out := s.onRunning (fun d => d.portLost port)

/-- A reservoir starts detaching, with the ticket that asked for it, if one did; an attach still outstanding ends with ATTACH_TIMEOUT (R510). -/
def Dev.startDetach (d : Dev) (key : Nat) (ticket : Option (Nat × Nat)) : Dev :=
  match d.res? key with
  | none => d
  | some r =>
    let d := d.modRes key (fun r => { r with state := .detaching, attach := none, due := [], detach := r.detach ++ ticket.toList,
                                             writes := r.writes.filter (fun w => w.posted.isSome) })
    match r.attach with
    | some (w, n) => d.completeTicket w n Status.attachTimeout 0
    | none => d

/-- CONSUMER_DETACH (R510). -/
def cmdConsumerDetach : Cmd :=
  { opcode := 0x0502
    ticketed := true
    check := fun d x =>
      let key := x.get 0 4
      { lenOk := x.r.len == 4
        field := needs (decide (key < 2 ^ 18)) Status.fieldInvalid
        object := d.reservoirObject x key
        state := d.ownerEnabled (resTenant key)
        subject := key }
    run := fun d x n => { dev := d.startDetach (x.get 0 4) (some (x.w, n)) } }

/-- CONSUMER_DETACH (R510). -/
def execConsumerDetach (w : Window) (r : Request) (s : State) : Out := s.onDoorbell cmdConsumerDetach w r

/-- The end of a detach: nothing posted is outstanding; unpublished billets are lost, the QP and the binding go, and the tickets complete (R510). -/
def Dev.detachDone (d : Dev) (key : Nat) : Dev :=
  match d.res? key with
  | none => d
  | some r =>
    if r.state != .detaching || !(r.writes.all (fun w => w.posted.isNone)) || !r.fences.isEmpty || !r.tails.isEmpty then d
    else
      let d := d.loseBillets key
      let d := match d.boundStream key with
        | some (sid, _) => d.setMap sid (resNum key) false
        | none => d
      let d : Dev := { d with haul := { d.haul with reservoirs := AMap.del d.haul.reservoirs key } }
      r.detach.foldl (fun d t => d.completeTicket t.1 t.2 Status.success 0) d

/-- CONSUMER_DETACH_DONE (R510). -/
def execConsumerDetachDone (tenant reservoir : Nat) (s : State) : Out := s.onRunning (fun d => d.detachDone (resKey tenant reservoir))

/-! ### Congestion control (R511, R512) -/

/-- A CNP `ns` after the last decrease of a QP: the rate and estimate after it, and whether it decreased. -/
def cnpRate (rate alpha : Rat) (last : Option Nat) (ns : Nat) : Rat × Rat × Bool :=
  if last.isNone || decide (50000 ≤ ns) then (max rateMin (rate * (1 - alpha / 2)), (1 - 1 / 256) * alpha + 1 / 256, true)
  else (rate, alpha, false)

/-- The end of a period: the rate and estimate after it. -/
def periodRate (rate alpha : Rat) (cnp : Bool) : Rat × Rat :=
  if cnp then (rate, alpha) else (min rateMax (rate + rateStep), (1 - 1 / 256) * alpha)

/-- A peer changed. -/
def Dev.modPeer (d : Dev) (p : Nat) (f : Peer → Peer) : Dev := { d with haul := { d.haul with peers := AMap.mod d.haul.peers p f } }

/-- CNP_RECEIVED, `ns` after the QP's last decrease (R512). -/
def Dev.cnp (d : Dev) (qp : QpRef) (ns : Nat) : Dev :=
  let dec := match qp with
    | .reservoir t r => ((d.res? (resKey t r)).map (fun x => (cnpRate x.rate x.alpha x.lastDecrease ns).2.2)).getD false
    | .peer p => ((AMap.get? d.haul.peers p).map (fun x => (cnpRate x.rate x.alpha x.lastDecrease ns).2.2)).getD false
  let d := match qp with
    | .reservoir t r => d.modRes (resKey t r) (fun x =>
        let c := cnpRate x.rate x.alpha x.lastDecrease ns
        { x with rate := c.1, alpha := c.2.1, lastDecrease := if c.2.2 then some 0 else x.lastDecrease, cnpInPeriod := true })
    | .peer p => d.modPeer p (fun x =>
        let c := cnpRate x.rate x.alpha x.lastDecrease ns
        { x with rate := c.1, alpha := c.2.1, lastDecrease := if c.2.2 then some 0 else x.lastDecrease, cnpInPeriod := true })
  d.count Counter.rateDecrease 0 (bitNat dec)

/-- CNP_RECEIVED (R512). -/
def execCnpReceived (qp : QpRef) (ns : Nat) (s : State) : Out := s.onRunning (fun d => d.cnp qp ns)

/-- CONGESTION_INCREASE: a period of 55 µs ends (R512). -/
def Dev.congestionPeriod (d : Dev) (qp : QpRef) : Dev :=
  match qp with
  | .reservoir t r => d.modRes (resKey t r) (fun x =>
      let c := periodRate x.rate x.alpha x.cnpInPeriod
      { x with rate := c.1, alpha := c.2, cnpInPeriod := false })
  | .peer p => d.modPeer p (fun x =>
      let c := periodRate x.rate x.alpha x.cnpInPeriod
      { x with rate := c.1, alpha := c.2, cnpInPeriod := false })

/-- CONGESTION_INCREASE (R512). -/
def execCongestionIncrease (qp : QpRef) (s : State) : Out := s.onRunning (fun d => d.congestionPeriod qp)

/-! ### The head and the controller (R502, R503, R514, R515) -/

/-- GAUGE_PAGE_WRITE: bytes 0 to 7 of the gauge page (R502). -/
def Dev.gaugeWrite (d : Dev) (key : Nat) (data : List Byte) : Dev :=
  d.modRes key (fun r => if r.gaugeRead then r else { r with gauge := some (leNat (overlay (leBytes 8 (r.gauge.getD 0)) 0 (data.take 8))) })

/-- GAUGE_PAGE_WRITE (R502). -/
def execGaugePageWrite (tenant reservoir : Nat) (data : List Byte) (s : State) : Out :=
  s.onRunning (fun d => d.gaugeWrite (resKey tenant reservoir) data)

/-- GAUGE_READ_RESPONSE: the response is used at the next boundary (R502). -/
def Dev.gaugeResponse (d : Dev) (key v : Nat) : Dev :=
  d.modRes key (fun r => if r.gaugeRead then { r with gaugeNext := some (v % 2 ^ 64) } else r)

/-- GAUGE_READ_RESPONSE (R502). -/
def execGaugeReadResponse (tenant reservoir : Nat) (value : Nat) (s : State) : Out :=
  s.onRunning (fun d => d.gaugeResponse (resKey tenant reservoir) value)

/-- Whether a sampled head is valid (R503). -/
def Reservoir.validHead (r : Reservoir) (v : Nat) : Bool :=
  match r.head with
  | none => v == 0
  | some h => decide (h ≤ v) && decide (v ≤ r.published)

/-- The head of a reservoir sampled at a boundary, and the read of the next sample posted (R502, R503); the first valid one makes it ACTIVE (R497).
The second answer says whether a valid head was observed. -/
def Dev.sampleHead (d : Dev) (key : Nat) : Dev × Bool :=
  match d.res? key with
  | none => (d, false)
  | some r =>
    if r.state != .attaching && r.state != .active then (d, false)
    else
      let v := if r.gaugeNext.isSome then r.gaugeNext else r.gauge
      let d := d.modRes key (fun r => { r with gauge := v, gaugeNext := none })
      let d := if r.gaugeRead then d.emit (.rdmaRead (resQpn key) r.headAddr r.rkey 8) else d
      match v with
      | none => (d, false)
      | some h =>
        if !r.validHead h then (d.count Counter.headInvalid key 1, false)
        else
          let d := d.modRes key (fun r => { r with head := some h })
          if r.state = .active then (d, true)
          else
            let d := d.modRes key (fun r => { r with state := .active, attach := none, hPrev := h, d := 0, i := 0, a := 0, lbar := 0, ticksActive := 0 })
            match r.attach with
            | some (w, n) => (d.completeTicket w n Status.success 0, true)
            | none => (d, true)

/-- What the controller computes at a boundary: d, i, a after it, and k (R515). -/
def control (r : Reservoir) (lMax target : Nat) : Rat × Rat × Rat × Nat :=
  let h : Rat := (r.headNow : Rat)
  let c : Rat := (r.ringBytes : Rat)
  let f := add64 (r.virtualTail : Rat) (-h)
  let dr := add64 r.d (div64 (add64 (add64 h (-(r.hPrev : Rat))) (-r.d)) 8)
  let e := add64 (target : Rat) (-f)
  let i := min (c / 4) (max (-(c / 4)) (add64 r.i e))
  let u := max 0 (add64 (add64 dr (div64 e 4)) (div64 i 64))
  let lbar := if r.lbar = 0 then (lMax : Rat) else r.lbar
  let a := min 64 (add64 r.a (div64 u lbar))
  let s : Int := r.due.length
  let room := Rat.floor (div64 (add64 c (-f)) (lMax : Rat)) - s
  let k := (max 0 (min (Rat.floor a) (min room (64 - s)))).toNat
  (dr, i, add64 a (-(k : Rat)), k)

/-- The BILLET_SEQ numbers of the next `k` slots (R40). -/
def nextSlots (from_ k : Nat) : List Nat := (List.range k).map (fun j => (from_ + j) % 2 ^ 32)

/-- The stream whose billets the slots of a reservoir take: one whose epoch deals to the reservoir, else the one bound to it (R474, R498). -/
def Dev.slotStream (d : Dev) (key : Nat) : Option (Nat × Stream) :=
  match d.streams.find? (fun p => p.2.tenant == resTenant key && p.2.standing != .idle && p.2.standing != .lost && p.2.replayOf.isNone && p.2.dealing.contains (resNum key)) with
  | some p => some p
  | none => d.boundStream key

/-- The controller of an ACTIVE reservoir at a boundary (R514 to R516); it starts once a stream is bound, whose L_MAX it takes. No slot falls due while
that stream is PAUSED (R484). -/
def Dev.controller (d : Dev) (key : Nat) (observed : Bool) : Dev :=
  match d.res? key with
  | none => d
  | some r =>
    if r.state != .active then d
    else
      let f := r.virtualTail - r.headNow
      let d := if 0 < r.ticksActive && f = 0 then d.count Counter.dryTick key 1 else d
      let d := d.modRes key (fun r => { r with ticksActive := r.ticksActive + 1, fill := f, rateSeen := r.rate })
      match (d.slotStream key).bind (fun p => (d.progOfStream p.2).map (fun g => (p.1, p.2, g))) with
      | none => d
      | some (sid, st, p) =>
        let target := r.ringBytes * d.param ParamId.reservoirTargetPct key / 100
        let (dr, i, a, k) := control r p.lMax target
        let (a, k) := if st.state = .paused then (min 64 (a + (k : Rat)), 0) else (a, k)
        let d := d.modRes key (fun r => { r with
          d := dr, i := i, a := a, hPrev := r.headNow, lMax := p.lMax, lbar := if r.lbar = 0 then (p.lMax : Rat) else r.lbar
          due := r.due ++ nextSlots r.nextSeq k, nextSeq := (r.nextSeq + k) % 2 ^ 32 })
        if observed then
          d.logRec sid LogKind.head (leBytes 2 ((st.dealing.findIdx? (fun x => x == resNum key)).getD 0) ++ zeros 6 ++ leBytes 8 r.headNow ++ leBytes 8 k)
        else d

/-- Heads sampled and controllers run, reservoir by reservoir (Table 01-2). -/
def Dev.reservoirBoundary (d : Dev) : Dev :=
  (d.haul.reservoirs.map Prod.fst).foldl (fun d key =>
    let (d, seen) := d.sampleHead key
    d.controller key seen) d

end Sys2Proof.Machine
end

