-- ==== Sys2Proof/Machine/PeerMsg.lean ====
section
/-!
DEFINITION. Machine/PeerMsg.lean: the messages that peers exchange, and the queries of a placement's manifests (R520, R521).
-/
namespace Sys2Proof.Machine

/-- A peer message (Table 15-6). -/
structure PeerMsg where
  type_ : Nat
  reason : Nat
  dataset : Nat
  tag : Nat
  index : Nat
  manifest : List Byte
  rkey : Nat
  length : Nat
  links : List Nat
  deriving DecidableEq, Repr

/-- A message with every field but its type, dataset and tag at 0. -/
def PeerMsg.simple (type_ dataset tag : Nat) : PeerMsg :=
  { type_ := type_, reason := 0, dataset := dataset, tag := tag, index := 0, manifest := [], rkey := 0, length := 0, links := [] }

/-- The bytes of a message; READ_READY alone goes past byte 63. -/
def PeerMsg.bytes (m : PeerMsg) : List Byte :=
  leBytes 4 0x31504442 ++ leBytes 1 m.type_ ++ leBytes 1 m.reason ++ leBytes 2 m.dataset ++ leBytes 8 m.tag ++ leBytes 6 m.index ++ zeros 2 ++
  padTo (m.manifest.take 32) 32 ++ leBytes 4 m.rkey ++ leBytes 2 m.links.length ++ zeros 2 ++
  (if m.type_ = 4 then leBytes 8 m.length ++ m.links.flatMap (leBytes 8) else [])

/-- A message from its bytes, none with another MAGIC. -/
def parsePeerMsg (b : List Byte) : Option PeerMsg :=
  if leAt b 0 4 ≠ 0x31504442 then none
  else some {
    type_ := leAt b 4 1, reason := leAt b 5 1, dataset := leAt b 6 2, tag := leAt b 8 8, index := leAt b 16 6, manifest := bytesAt b 24 32
    rkey := leAt b 56 4, length := leAt b 64 8, links := (List.range (leAt b 60 2)).map (fun k => leAt b (72 + 8 * k) 8 % 2 ^ 40) }

/-- A peer by its id. -/
def Dev.peer? (d : Dev) (p : Nat) : Option Peer := AMap.get? d.haul.peers p

/-- A message sent to a peer (R520). -/
def Dev.sendPeer (d : Dev) (p : Nat) (m : PeerMsg) : Dev := if (d.peer? p).isSome then d.emit (.rdmaSend (0x800000 + p) m.bytes) else d

/-- A fresh REQ_TAG. -/
def Dev.takeTag (d : Dev) : Nat × Dev := (d.haul.nextTag, { d with haul := { d.haul with nextTag := (d.haul.nextTag + 1) % 2 ^ 64 } })

/-- MANIFEST_QUERY for a replica entry (R521). -/
def Dev.queryReplica (d : Dev) (r : Replica) : Dev :=
  let (t, d) := d.takeTag
  d.sendPeer r.peer (PeerMsg.simple 1 r.dataset t)

/-- MANIFEST_QUERY for each replica entry of a dataset (R521). -/
def Dev.queryReplicas (d : Dev) (ds : Nat) : Dev := (((AMap.get? d.face.datasets ds).map Dataset.placement).getD []).foldl Dev.queryReplica d

/-- Placements of PLACEMENT_SET commands taken into effect, and their queries sent (R237, R521). -/
def Dev.placementBoundary (d : Dev) : Dev :=
  (d.face.datasets.map Prod.fst).foldl (fun d k =>
    match (AMap.get? d.face.datasets k).bind Dataset.placementNext with
    | none => d
    | some l =>
      let d : Dev := { d with face := { d.face with datasets := AMap.mod d.face.datasets k (fun t => { t with placement := l, placementNext := none }) } }
      d.queryReplicas k) d

end Sys2Proof.Machine
end

