-- ==== Sys2Proof/Machine/Peers.lean ====
section
/-!
DEFINITION. Machine/Peers.lean: reads of samples, from local media and from peers, hedges, and samples served to peers (R233, R244 to R248, R519 to R524).
-/
namespace Sys2Proof.Machine

/-! ### Replicas and requests (R521, R523, R524) -/

/-- Whether a peer is UP. -/
def Dev.peerIsUp (d : Dev) (p : Nat) : Bool := ((d.peer? p).map Peer.up).getD false

/-- The first usable replica of a dataset whose place in the list has not been tried (R237, R523). -/
def Dev.replicaFor (d : Dev) (t : Dataset) (tried : List Nat) : Option (Nat × Replica) :=
  ((List.range t.placement.length).filterMap (fun k => (t.placement[k]?).map (fun r => (k, r)))).find?
    (fun p => !tried.contains p.1 && p.2.usable && d.peerIsUp p.2.peer)

/-- Requests outstanding, in all and to one peer; those that wait do not count (R524). -/
def Dev.reqsOut (d : Dev) (peer : Option Nat) : Nat :=
  d.haul.reqs.countP (fun r => !r.waiting && (match peer with | some p => r.peer == p | none => true))

/-- A request changed. -/
def Dev.modReq (d : Dev) (tag : Nat) (f : PeerReq → PeerReq) : Dev :=
  { d with haul := { d.haul with reqs := d.haul.reqs.map (fun r => if r.tag = tag then f r else r) } }

/-- A request gone. -/
def Dev.dropReq (d : Dev) (tag : Nat) : Dev := { d with haul := { d.haul with reqs := d.haul.reqs.filter (fun r => r.tag != tag) } }

/-- READ_REQ sent for a request, or held until there is room (R523, R524). -/
def Dev.sendReq (d : Dev) (q : PeerReq) : Dev :=
  match d.stream? q.stream with
  | none => d
  | some st => match AMap.get? d.face.datasets st.dataset with
    | none => d
    | some t =>
      let r := (q.tried.getLast?).bind (fun k => t.placement[k]?)
      if 4096 ≤ d.reqsOut none || 512 ≤ d.reqsOut (some q.peer) then d
      else
        let d := d.modReq q.tag (fun x => { x with waiting := false, sentTick := d.tick.count, links := [], length := 0 })
        d.sendPeer q.peer { PeerMsg.simple 3 ((r.map Replica.dataset).getD 0) q.tag with index := st.indexOf q.pos, manifest := t.manifest }

/-- Requests that waited for room, sent in order (R524). -/
def Dev.sendWaiting (d : Dev) : Dev :=
  (d.haul.reqs.filter (fun q => q.waiting && q.sentTick == 0)).foldl (fun d q => d.sendReq q) d

/-- The first usable peer asked for a whole sample (R244, R247, R248); none when no replica is usable. -/
def Dev.askPeer (d : Dev) (sid pos : Nat) (hedge : Bool) : Option Dev :=
  match (d.stream? sid).bind (fun st => AMap.get? d.face.datasets st.dataset) with
  | none => none
  | some t => match d.replicaFor t [] with
    | none => none
    | some (k, r) =>
      let (tag, d) := d.takeTag
      let q : PeerReq := { tag := tag, peer := r.peer, stream := sid, pos := pos, tried := [k], links := [], length := 0, rkey := 0, waiting := true,
                           hedge := hedge, sentTick := 0 }
      let d : Dev := { d with haul := { d.haul with reqs := d.haul.reqs ++ [q] } }
      some (d.sendReq q)

/-! ### READ_SAMPLE items (R233, R246, R247) -/

/-- The dies that hold the pages of a sample, with the pages on each. -/
def Dev.readDies (d : Dev) (pages : List (Nat × Nat)) : List (Nat × Nat) :=
  let ds := pages.filterMap (fun p => (AMap.get? d.face.extents p.1).bind (fun x => d.pageDie x p.2))
  (sortByKey id ds.eraseDups).map (fun n => (n, ds.countP (fun m => m == n)))

/-- H_d: min(64, ⌈4 × max(1, ρ_d)⌉) ticks (R246). -/
def Dev.horizon (d : Dev) (n : Nat) : Nat := min 64 (ceilDiv (4 * max 2000 (d.unit .die n).ratioTwice) 2000)

/-- r of a stream: the mean of positions drawn per tick over the last 64 ticks, at least 1 (R246). -/
def Dev.drawRate (d : Dev) (sid : Nat) : Rat :=
  let l := AMap.getD d.face.drawRates sid []
  if l.length < 2 then 1 else max 1 ((l.headD 0 - l.getLastD 0 : Nat) / (l.length - 1 : Nat))

/-- The tick at which position `p` is expected (R246). -/
def Dev.expectedTick (d : Dev) (sid : Nat) (st : Stream) (p : Nat) : Nat :=
  if p < st.cursor then d.tick.count else d.tick.count + (Rat.ceil (((p - st.cursor : Nat) : Rat) / d.drawRate sid)).toNat

/-- Whether op 0 of a program lets a peer serve (Table 05-4). -/
def Prog.peerOk (p : Prog) : Bool := (((p.ops[0]?).map (fun o => o.p 0 1)).getD 0) == 1

/-- The local READ_SAMPLE item of a position (R233). -/
def Dev.addRead (d : Dev) (sid pos due : Nat) : Dev :=
  match d.stream? sid with
  | none => d
  | some st => match AMap.get? d.face.datasets st.dataset with
    | none => d
    | some t =>
      let held := d.holdsDir st t (st.indexOf pos)
      let pages := d.pagesRead t (st.indexOf pos) held
      let d := (d.losePages pages).modStream sid (fun st => { st with
        samples := AMap.mod st.samples pos (fun s => { s with dirHeld := held }), dirPages := (st.dirPages ++ d.dirPage t (st.indexOf pos)).eraseDups })
      let kind := opKind st.slot 0 false
      let dies := ((d.readDies pages).filter (fun n => d.dieState n.1 != .failed)).map (fun n => (n.1, predictNs (d.coef kind) (n.2, 1)))
      let u := (pages.length, 1)
      let (id, d) := d.addItem st.tenant (.sample sid pos 0) 0 kind 0 due (predictNs (d.coef kind) u) u dies
      d.modItem id (fun i => { i with units := dies.map Prod.fst })

/-- The PEER record for a position in the log that its stream replays (R584). -/
def Dev.replayPeer (d : Dev) (st : Stream) (pos : Nat) : Option LogRec :=
  if st.replayOf.isNone then none else (d.replayRecs st).find? (fun r => r.kind == LogKind.peer && r.get 0 8 == st.drawOf pos)

/-- Whether a replay skips a position because its log says that the peer read failed (R584). -/
def Dev.replaySkips (d : Dev) (st : Stream) (pos : Nat) : Bool := ((d.replayPeer st pos).map (fun r => r.get 8 1 == 1)).getD false

/-- Whether bytes read for a position are those that the log of a replay names; every other stream takes what it reads (R584). -/
def Dev.replayTakes (d : Dev) (st : Stream) (pos : Nat) (data : List Byte) : Bool :=
  match d.replayPeer st pos with
  | none => true
  | some r => r.get 8 1 == 1 || bytesAt r.body 16 16 == contentHash data

/-- The local bytes of a position of a dataset. -/
def Dev.localBytes (d : Dev) (t : Dataset) (i : Nat) : List Byte :=
  let (o, n) := d.dirEntry t i
  d.datasetBytes t o n

/-- No source yields the bytes that a replay needs: it ends with REPLAY_INPUT_MISSING (R584). -/
def Dev.inputMissing (d : Dev) (sid : Nat) : Dev :=
  { d with group := { d.group with replays := d.group.replays.map (fun r => if r.stream = sid then { r with missing := true } else r) } }

/-- A position read: from the first usable peer when its data lie on a demoted die or on a page that local media cannot give, else from local media
(R244, R245, R247). -/
def Dev.startRead (d : Dev) (sid pos due : Nat) : Dev :=
  match d.stream? sid with
  | none => d
  | some st => match AMap.get? d.face.datasets st.dataset, d.progOfStream st with
    | some t, some p =>
      let i := st.indexOf pos
      let d := d.modStream sid (fun st => { st with samples := AMap.set st.samples pos (Sample.make i due) })
      if d.replaySkips st pos then (d.skipCorrupt sid pos Reason.mediaUnreadable 0 ((d.firstUnreadable t i).getD 0)).assemble sid
      else
      let slow := (d.readDies (d.pagesRead t i (d.holdsDir st t i))).any (fun n => d.dieState n.1 == .demoted)
      if p.peerOk && (slow || (d.readPages t i).any d.pageLost) then
        match d.askPeer sid pos false with
        | some d => d
        | none => d.addRead sid pos due
      else d.addRead sid pos due
    | _, _ => d

/-- Reads of a RUNNING dataset stream whose expected tick comes within the horizon of their dies (R246). -/
def Dev.prefetch (d : Dev) (sid : Nat) : Dev :=
  match d.stream? sid with
  | none => d
  | some st =>
    if st.state != .running || st.ingest.isSome then d
    else match AMap.get? d.face.datasets st.dataset with
      | none => d
      | some t =>
        let last := min st.size (st.cursor + (Rat.ceil (64 * d.drawRate sid)).toNat + 1)
        let d := (List.range (last - st.readPos)).foldl (fun d k =>
          let p := st.readPos + k
          if AMap.has st.samples p then d
          else
            let e := d.expectedTick sid st p
            let h := maxNat ((d.readDies (d.pagesRead t (st.indexOf p) (d.holdsDir ((d.stream? sid).getD st) t (st.indexOf p)))).map (fun n => d.horizon n.1))
            if e ≤ d.tick.count + max 4 h then d.startRead sid p e else d) d
        d.modStream sid (fun st => { st with readPos := ((List.range (last + 1)).find? (fun p => decide (st.readPos ≤ p) && !AMap.has st.samples p)).getD last })

/-- The positions that a stream has drawn by a boundary, entered into its mean (R246). -/
def Dev.noteDraws (d : Dev) (sid drawn : Nat) : Dev :=
  { d with face := { d.face with drawRates := AMap.set d.face.drawRates sid ((drawn :: AMap.getD d.face.drawRates sid []).take 65) } }

/-! ### The requesting side (R523, R524) -/

/-- A PEER record of a stream that is recorded (R582). -/
def Dev.logPeer (d : Dev) (sid pos outcome peer : Nat) (data : List Byte) : Dev :=
  match d.stream? sid with
  | none => d
  | some st => d.logRec sid LogKind.peer (leBytes 8 (st.drawOf pos) ++ leBytes 1 outcome ++ leBytes 1 peer ++ zeros 6 ++
      (if outcome = 0 then contentHash data else zeros 16))

/-- A sample whose bytes a peer has supplied: its local read, if there is one, is dropped, and its bytes go on as op 0's output. -/
def Dev.peerSupply (d : Dev) (sid pos peer : Nat) (data : List Byte) (at_ : Nat) : Dev :=
  match d.stream? sid with
  | none => d
  | some st => match AMap.get? st.samples pos, d.progOfStream st with
    | some s, some p =>
      if s.state != .flight || s.done.contains 0 then d
      else
        let d := match d.opItem? sid pos 0 with | some i => d.forgetItem i | none => d
        let d := (d.count Counter.peerServed st.tenant 1).logPeer sid pos 0 peer data
        if ((p.ops[0]?).map OpRec.outMax).getD 0 < data.length then
          (d.skipCorrupt sid pos Reason.outMaxExceeded 0 (Config.failOffset Op.readSample data)).assemble sid
        else
          let (id, d) := d.addItem st.tenant (.sample sid pos 0) 7 0 0 s.due 1 (1, 1) []
          match d.item? id with
          | some i => d.deliver i OwnerClass.peer sid pos 0 st (Value.ofBytes data) 0 at_
          | none => d
    | _, _ => d

/-- The request failed to the Face, which goes on under R244: a hedge leaves the local read as it is; else the sample is read from local media, where
pages on FAILED dies are recorded unreadable. -/
def Dev.peerGaveUp (d : Dev) (q : PeerReq) : Dev :=
  let d := d.dropReq q.tag
  if q.hedge then d
  else match d.stream? q.stream with
    | none => d
    | some st =>
      match AMap.get? d.face.datasets st.dataset, AMap.get? st.samples q.pos with
      | some t, some s =>
        if s.state != .flight || s.done.contains 0 then d
        else
          let d := d.losePages (d.readPages t s.index)
          match d.firstUnreadable t s.index with
          | some o =>
            if (d.replayPeer st q.pos).isSome then d.inputMissing q.stream
            else ((d.logPeer q.stream q.pos 1 q.peer []).skipCorrupt q.stream q.pos Reason.mediaUnreadable 0 o).assemble q.stream
          | none => if d.replayTakes st q.pos (d.localBytes t s.index) then d.addRead q.stream q.pos s.due else d.inputMissing q.stream
      | _, _ => d

/-- A request moves to the next usable replica in list order (R523). -/
def Dev.nextReplica (d : Dev) (q : PeerReq) : Dev :=
  let d := d.count Counter.peerReqFailed 0 1
  match (d.stream? q.stream).bind (fun st => AMap.get? d.face.datasets st.dataset) with
  | none => d.dropReq q.tag
  | some t => match d.replicaFor t q.tried with
    | none => d.peerGaveUp q
    | some (k, r) =>
      let q' : PeerReq := { q with peer := r.peer, tried := q.tried ++ [k], waiting := true, sentTick := 0, links := [], length := 0 }
      (d.modReq q.tag (fun _ => q')).sendReq q'

/-- A request of a peer by its tag, while it is outstanding. -/
def Dev.req? (d : Dev) (peer tag : Nat) : Option PeerReq := d.haul.reqs.find? (fun q => q.tag == tag && q.peer == peer)

/-- READ_READY: each link is read by RDMA READ (R523); a READ_READY that answers no request is released. -/
def Dev.readReady (d : Dev) (peer : Nat) (m : PeerMsg) : Dev :=
  match d.req? peer m.tag with
  | none => d.sendPeer peer (PeerMsg.simple 6 m.dataset m.tag)
  | some q =>
    if q.waiting || !q.links.isEmpty then d
    else
      let d := (d.modPeer peer (fun x => { x with timeouts := 0 })).modReq q.tag (fun x => { x with links := m.links, length := m.length, rkey := m.rkey })
      (m.links.zip (chainLinks m.length)).foldl (fun d l => d.emit (.rdmaRead (peerQpn peer) l.1 m.rkey l.2)) d

/-- READ_READY (R523). -/
def execReadReady (peer : Nat) (message : List Byte) (s : State) : Out :=
  s.onRunning (fun d => match parsePeerMsg message with
    | some m => if m.type_ = 4 then d.readReady peer m else d
    | none => d)

/-- PEER_LINK_READ_DONE: the bytes of every link are there; RELEASE is sent and the Face's request completes, or a READ that failed moves the request
on (R523). -/
def Dev.linkReadDone (d : Dev) (peer tag : Nat) (data : List Byte) : Dev :=
  match d.req? peer tag with
  | none => d
  | some q =>
    if q.links.isEmpty then d
    else if data.length ≠ q.length || !(((d.stream? q.stream).map (fun st => d.replayTakes st q.pos data)).getD true) then d.nextReplica q
    else
      let d := (d.dropReq tag).sendPeer peer (PeerMsg.simple 6 0 tag)
      let open_ := match (d.stream? q.stream).bind (fun st => AMap.get? st.samples q.pos) with
        | some s => s.state == .flight && !s.done.contains 0
        | none => false
      let d := if q.hedge && open_ then d.count Counter.hedgeWon 0 1 else d
      (d.peerSupply q.stream q.pos peer data 0).sendWaiting

/-- PEER_LINK_READ_DONE (R523). -/
def execPeerLinkReadDone (peer tag : Nat) (data : List Byte) (s : State) : Out := s.onRunning (fun d => d.linkReadDone peer tag data)

/-- READ_FAIL (R523). -/
def Dev.readFail (d : Dev) (peer : Nat) (m : PeerMsg) : Dev :=
  match d.req? peer m.tag with
  | none => d
  | some q =>
    let d := d.modPeer peer (fun x => { x with timeouts := 0 })
    if m.reason = 4 then d.modReq q.tag (fun x => { x with waiting := true, sentTick := d.tick.count + 1 })
    else
      let d := if m.reason = 2 then
          match d.stream? q.stream with
          | some st =>
            let ds : AMap Dataset := AMap.mod d.face.datasets st.dataset (fun (t : Dataset) => { t with
              placement := t.placement.map (fun (r : Replica) => if r.peer = peer && r.dataset = m.dataset then { r with usable := false } else r) })
            ({ d with face := { d.face with datasets := ds } } : Dev)
          | none => d
        else d
      (d.nextReplica q).sendWaiting

/-- READ_FAIL (R523). -/
def execReadFail (peer : Nat) (message : List Byte) (s : State) : Out :=
  s.onRunning (fun d => match parsePeerMsg message with
    | some m => if m.type_ = 5 then d.readFail peer m else d
    | none => d)

/-- PEER_BUSY_RETRY: one tick after a BUSY answer the request goes to the same peer again (R523). -/
def Dev.busyRetry (d : Dev) (peer tag : Nat) : Dev :=
  match d.req? peer tag with
  | some q => if q.waiting && 0 < q.sentTick && q.sentTick ≤ d.tick.count then d.sendReq q else d
  | none => d

/-- PEER_BUSY_RETRY (R523). -/
def execPeerBusyRetry (peer tag : Nat) (s : State) : Out := s.onRunning (fun d => d.busyRetry peer tag)

/-- A peer goes DOWN (R524). -/
def Dev.peerGoesDown (d : Dev) (peer reason : Nat) : Dev :=
  match d.peer? peer with
  | none => d
  | some x =>
    if !x.up then d
    else (d.modPeer peer (fun x => { x with up := false, downTick := d.tick.count })).event adminWin EventCode.peerDown 0 [(20, 2, peer), (22, 1, reason)]

/-- PEER_REQUEST_TIMEOUT: no answer for 20 ms; three in a row make the peer DOWN (R523, R524). -/
def Dev.requestTimeout (d : Dev) (peer tag : Nat) : Dev :=
  match d.req? peer tag with
  | none => d
  | some q =>
    if q.waiting || !q.links.isEmpty then d
    else
      let d := d.modPeer peer (fun x => { x with timeouts := x.timeouts + 1 })
      let d := if 3 ≤ ((d.peer? peer).map Peer.timeouts).getD 0 then d.peerGoesDown peer 1 else d
      (d.nextReplica q).sendWaiting

/-- PEER_REQUEST_TIMEOUT (R523). -/
def execPeerRequestTimeout (peer tag : Nat) (s : State) : Out := s.onRunning (fun d => d.requestTimeout peer tag)

/-- PEER_PROBE: a DOWN peer is asked for a manifest every 2,500 ticks (R524). -/
def Dev.peerProbe (d : Dev) (peer : Nat) : Dev :=
  match d.peer? peer with
  | none => d
  | some x =>
    if x.up || decide (d.tick.count < x.downTick + 2500) then d
    else
      let d := d.modPeer peer (fun x => { x with downTick := d.tick.count })
      match (d.face.datasets.flatMap (fun t => t.2.placement)).find? (fun r => r.peer == peer) with
      | some r => d.queryReplica r
      | none => d.queryReplica { peer := peer, dataset := 0, usable := false }

/-- PEER_PROBE (R524). -/
def execPeerProbe (peer : Nat) (s : State) : Out := s.onRunning (fun d => d.peerProbe peer)

/-- MANIFEST_REPLY: entries of the peer and dataset become usable where the hash matches; the first match of a DOWN peer makes it UP, and its
entries are asked for again (R521, R524). -/
def Dev.manifestReply (d : Dev) (peer : Nat) (m : PeerMsg) : Dev :=
  let isMine := fun (r : Replica) => r.peer == peer && r.dataset == m.dataset
  let hit := d.face.datasets.any (fun p => p.2.sealed_ && p.2.manifest == m.manifest && p.2.placement.any isMine)
  let ds : AMap Dataset := AMap.mapKV (fun _ (t : Dataset) => { t with
    placement := t.placement.map (fun r => if isMine r then { r with usable := t.sealed_ && t.manifest == m.manifest } else r) }) d.face.datasets
  let d : Dev := { d with face := { d.face with datasets := ds } }
  if hit && !d.peerIsUp peer && (d.peer? peer).isSome then
    let d := (d.modPeer peer (fun x => { x with up := true, timeouts := 0, qpError := false })).event adminWin EventCode.peerUp 0 [(20, 2, peer)]
    (d.face.datasets.flatMap (fun t => t.2.placement.filter (fun r => r.peer == peer && !r.usable))).foldl Dev.queryReplica d
  else d

/-- MANIFEST_REPLY (R521). -/
def execManifestReply (peer : Nat) (message : List Byte) (s : State) : Out :=
  s.onRunning (fun d => match parsePeerMsg message with
    | some m => if m.type_ = 2 && (d.peer? peer).isSome then d.manifestReply peer m else d
    | none => d)

/-- READ_HEDGE: a READ_SAMPLE that has run for twice its predicted cost, near its expected tick, is asked of a peer, at most once for each 32 reads
admitted in the tick (R248). -/
def Dev.readHedge (d : Dev) (id : Nat) : Dev :=
  match d.item? id with
  | none => d
  | some i => match i.job with
    | .sample sid pos 0 =>
      let ok := ((d.stream? sid).bind d.progOfStream).any Prog.peerOk
      if i.phase != .running || i.out.isSome || i.discard || !ok || decide (d.tick.count + 1 < i.due) || d.haul.reqs.any (fun q => q.stream == sid && q.pos == pos)
          || decide (d.face.readsThisTick < 32 * (d.face.hedgesThisTick + 1)) then d
      else match d.askPeer sid pos true with
        | none => d
        | some d => Dev.count { d with face := { d.face with hedgesThisTick := d.face.hedgesThisTick + 1 } } Counter.hedgeIssued 0 1
    | _ => d

/-- READ_HEDGE (R248). -/
def execReadHedge (item : Nat) (s : State) : Out := s.onRunning (fun d => d.readHedge item)

/-! ### PEER_ADD (R519) -/

/-- PEER_ADD (R519). -/
def cmdPeerAdd : Cmd :=
  { opcode := 0x0504
    admin := true
    check := fun d x =>
      let id := x.get 0 1
      let del := bitOf (x.get 3 1) 0
      let port := x.get 2 1
      let vlan := x.get 14 2
      { lenOk := x.r.len == 64
        rsvOk := x.rsv 1 1 && decide (x.get 3 1 < 2) && x.rsv 7 1 && x.rsv 48 16
        field := if del then needs (x.rsv 4 44) Status.fieldInvalid
          else firstFail [
            needs (decide (port ≤ 3) || port == 0xFF) Status.fieldInvalid,
            needs (if bitOf vlan 15 then decide (1 ≤ vlan % 4096 && vlan % 4096 ≤ 4094) else vlan % 4096 == 0) Status.fieldInvalid]
        own := if del then
            firstFail [needs (AMap.has d.haul.peers id) Status.noSuchPeer,
              needs (d.face.datasets.all (fun t => (t.2.placement ++ t.2.placementNext.getD []).all (fun r => r.peer != id))) Status.peerInPlacement]
          else firstFail [needs (!AMap.has d.haul.peers id) Status.peerExists, needs (d.choosePort port).isSome Status.portUnavailable] }
    run := fun d x _ =>
      let id := x.get 0 1
      let answer := leBytes 4 (peerQpn id)
      if bitOf (x.get 3 1) 0 then { dev := { d with haul := { d.haul with peers := AMap.del d.haul.peers id } }, payload := answer }
      else
        let p : Peer := { port := (d.choosePort (x.get 2 1)).getD 0, remoteQpn := x.get 4 4, mac := x.raw 8 6, vlan := x.get 14 2, localGid := x.raw 16 16
                          remoteGid := x.raw 32 16, up := true, timeouts := 0, downTick := 0, retries := 0, rate := rateMax, alpha := 1,
                          lastDecrease := none, cnpInPeriod := false, qpError := false }
        { dev := { d with haul := { d.haul with peers := AMap.set d.haul.peers id p } }, payload := answer } }

/-- PEER_ADD (R519). -/
def execPeerAdd (w : Window) (r : Request) (s : State) : Out := s.onDoorbell cmdPeerAdd w r

/-! ### The serving side (R522) -/

/-- MANIFEST_QUERY answered with the dataset's hash, 0 when it is unsealed or absent (Table 15-6). -/
def Dev.manifestQuery (d : Dev) (peer : Nat) (m : PeerMsg) : Dev :=
  let h := match AMap.get? d.face.datasets m.dataset with
    | some t => if t.sealed_ then t.manifest else zeros 32
    | none => zeros 32
  d.sendPeer peer { PeerMsg.simple 2 m.dataset m.tag with manifest := h }

/-- MANIFEST_QUERY (R521). -/
def execManifestQuery (peer : Nat) (message : List Byte) (s : State) : Out :=
  s.onRunning (fun d => match parsePeerMsg message with
    | some m => if m.type_ = 1 then d.manifestQuery peer m else d
    | none => d)

/-- READ_FAIL with a reason. -/
def Dev.failRead (d : Dev) (peer reason : Nat) (m : PeerMsg) : Dev :=
  d.sendPeer peer { PeerMsg.simple 5 m.dataset m.tag with reason := reason, index := m.index }

/-- READ_REQ: the dataset and the hash are checked, and the sample is read as work of no tenant (R522). The predicted time of a page is that of no
program: the model takes 1 ns for each. -/
def Dev.serveRead (d : Dev) (peer : Nat) (m : PeerMsg) : Dev :=
  match AMap.get? d.face.datasets m.dataset with
  | none => d.failRead peer 1 m
  | some t =>
    if !t.sealed_ || t.manifest != m.manifest || decide (t.count ≤ m.index) then d.failRead peer 2 m
    else if 4096 ≤ d.haul.served.length then d.failRead peer 4 m
    else
      let pages := d.readPages t m.index
      let dies := (d.readDies pages)
      let v : Served := { peer := peer, tag := m.tag, dataset := m.dataset, index := m.index, bufs := [], data := [], ready := false }
      let d : Dev := { d with haul := { d.haul with served := d.haul.served ++ [v] } }
      let (id, d) := d.addItem peerQueue (.peerServe peer m.tag) 0 0 0 d.tick.count (max 1 pages.length) (pages.length, 1) dies
      d.modItem id (fun i => { i with units := dies.map Prod.fst })

/-- READ_REQ (R522). -/
def execReadReq (peer : Nat) (message : List Byte) (s : State) : Out :=
  s.onRunning (fun d => match parsePeerMsg message with
    | some m => if m.type_ = 3 && (d.peer? peer).isSome then d.serveRead peer m else d
    | none => d)

/-- A request that this device serves. -/
def Dev.served? (d : Dev) (peer tag : Nat) : Option Served := d.haul.served.find? (fun v => v.peer == peer && v.tag == tag)

/-- A served request changed. -/
def Dev.modServed (d : Dev) (peer tag : Nat) (f : Served → Served) : Dev :=
  { d with haul := { d.haul with served := d.haul.served.map (fun v => if v.peer = peer && v.tag = tag then f v else v) } }

/-- A served request gone, its buffers freed (R522). -/
def Dev.endServed (d : Dev) (peer tag : Nat) : Dev :=
  match d.served? peer tag with
  | none => d
  | some v =>
    let d := d.dropBufs v.bufs OwnerClass.peer adminWin
    { d with haul := { d.haul with served := d.haul.served.filter (fun v => !(v.peer == peer && v.tag == tag)) } }

/-- READ_READY sent for a served sample: the places of its links in the stack, and the rkey, are free values. -/
def Dev.answerReady (d : Dev) (peer tag : Nat) (bufs : List Nat) : Dev :=
  match d.served? peer tag with
  | none => d
  | some v =>
    let (q, d) := d.draw
    let links := bufs.mapIdx (fun k h => handleRegion h * 2 ^ 36 + Config.freeValue (q + k) % 2 ^ 36)
    let d : Dev := { d with draws := d.draws + bufs.length }
    let d := d.modServed peer tag (fun x => { x with bufs := bufs, ready := true })
    d.sendPeer peer { PeerMsg.simple 4 v.dataset tag with index := v.index, rkey := Config.freeValue (q + bufs.length), length := v.data.length, links := links }

/-- The region whose buffers hold a sample served to a peer: the lowest in service. -/
def Dev.peerRegion (d : Dev) : Nat := d.regionsIn.headD 0

/-- The read of a served sample completes (R522): its bytes go into PEER buffers, or it was unreadable. -/
def Dev.serveComplete (d : Dev) (i : Item) (peer tag : Nat) : Dev :=
  match d.served? peer tag with
  | none => d.dropItem i.id
  | some v =>
    match i.out with
    | some w =>
      let mine := d.tongs.grants.filter (fun g => g.1 == i.id)
      if mine.length < w.left then d
      else
        let d : Dev := { d with tongs := { d.tongs with grants := d.tongs.grants.filter (fun g => g.1 != i.id) } }
        (d.dropItem i.id).answerReady peer tag (linkOrder (w.got ++ mine.map (fun g => g.2)))
    | none =>
      match AMap.get? d.face.datasets v.dataset with
      | none => ((d.dropItem i.id).failRead peer 1 { PeerMsg.simple 5 v.dataset tag with index := v.index }).endServed peer tag
      | some t =>
        if (d.firstUnreadable t v.index).isSome then
          ((d.dropItem i.id).failRead peer 3 { PeerMsg.simple 5 v.dataset tag with index := v.index }).endServed peer tag
        else
          let (o, n) := d.dirEntry t v.index
          let bs := d.datasetBytes t o n
          let d := d.modServed peer tag (fun x => { x with data := bs })
          let (got, left, d) := d.requestChain d.peerRegion adminWin OwnerClass.peer i.id 0 (chainLinks bs.length)
          if left = 0 then (d.dropItem i.id).answerReady peer tag (linkOrder got)
          else d.modItem i.id (fun x => { x with out := some { value := Value.ofBytes bs, got := got, left := left, grow := none } })

/-- RELEASE (R522). -/
def execRelease (peer : Nat) (message : List Byte) (s : State) : Out :=
  s.onRunning (fun d => match parsePeerMsg message with
    | some m => if m.type_ = 6 then d.endServed peer m.tag else d
    | none => d)

/-- PEER_RELEASE_TIMEOUT: 100 ms after READ_READY (R522). -/
def Dev.releaseTimeout (d : Dev) (peer tag : Nat) : Dev :=
  match d.served? peer tag with
  | some v => if v.ready then (d.endServed peer tag).count Counter.peerReleaseTimeout 0 1 else d
  | none => d

/-- PEER_RELEASE_TIMEOUT (R522). -/
def execPeerReleaseTimeout (peer tag : Nat) (s : State) : Out := s.onRunning (fun d => d.releaseTimeout peer tag)

/-- PEER_BUFFER_RDMA_READ: a link of a served sample, named by its buffer, is answered (R522). -/
def Dev.answerLink (d : Dev) (peer link : Nat) : Dev :=
  match d.haul.served.find? (fun v => v.peer == peer && v.ready && v.bufs.contains link) with
  | none => d
  | some v =>
    let k := (v.bufs.findIdx? (fun h => h == link)).getD 0
    d.emit (.rdmaReadResponse (peerQpn peer) ((v.data.drop (k * 16777216)).take 16777216))

/-- PEER_BUFFER_RDMA_READ (R522). -/
def execPeerBufferRdmaRead (peer link : Nat) (s : State) : Out := s.onRunning (fun d => d.answerLink peer link)

/-! ### Errors of queue pairs (R492) -/

/-- QP_ERROR: the queue pair enters the error state (R492, R497, R524). -/
def Dev.qpError (d : Dev) (qp : QpRef) (reason : Nat) : Dev :=
  match qp with
  | .reservoir t r => d.failReservoir (resKey t r) reason
  | .peer p => (d.modPeer p (fun x => { x with qpError := true })).peerGoesDown p 2

/-- QP_ERROR (R492). -/
def execQpError (qp : QpRef) (reason : Nat) (s : State) : Out := s.onRunning (fun d => d.qpError qp reason)

/-- LOCAL_ACK_TIMEOUT: unacknowledged packets are sent again, and after 7 retries the queue pair is in error (R492). -/
def Dev.ackTimeout (d : Dev) (qp : QpRef) : Dev :=
  match qp with
  | .reservoir t r =>
    let key := resKey t r
    match d.res? key with
    | none => d
    | some x =>
      if x.outWrites = 0 && x.fences.isEmpty && x.tails.isEmpty then d
      else if 7 ≤ x.retries then d.qpError qp 1
      else (d.modRes key (fun x => { x with retries := x.retries + 1 })).emit (.rdmaRetry (resQpn key))
  | .peer p =>
    match d.peer? p with
    | none => d
    | some x =>
      if x.qpError then d
      else if 7 ≤ x.retries then d.qpError qp 1
      else (d.modPeer p (fun x => { x with retries := x.retries + 1 })).emit (.rdmaRetry (peerQpn p))

/-- LOCAL_ACK_TIMEOUT (R492). -/
def execLocalAckTimeout (qp : QpRef) (s : State) : Out := s.onRunning (fun d => d.ackTimeout qp)

end Sys2Proof.Machine
end

