-- ==== Sys2Proof/Machine/Datasets.lean ====
section
/-!
DEFINITION. Machine/Datasets.lean: the dataset commands (R229 to R237, R643, R645, R648, R659, R660).
-/
namespace Sys2Proof.Machine

/-! ### What PF0 reports of its namespaces (R640, R643) -/

/-- An asynchronous event of PF0: it completes an outstanding request, or waits for one (R640). -/
def Dev.nvmeEvent (d : Dev) (kind info page : Nat) : Dev :=
  match d.nvme.aers with
  | [] => { d with nvme := { d.nvme with events := d.nvme.events ++ [(kind, info, page)] } }
  | cid :: rest =>
    Dev.emit { d with nvme := { d.nvme with aers := rest } } (.nvmeCompletion 0 cid 0 0 (kind + 256 * info + 65536 * page))

/-- Namespace Attribute Changed, where Asynchronous Event Configuration enables it (R643). -/
def Dev.namespaceChanged (d : Dev) : Dev := if bitOf d.nvme.aec 8 then d.nvmeEvent 2 0 4 else d

/-- The namespace of a dataset attached; one left by a discarded dataset is detached first (R643, R648). -/
def Dev.attachNamespace (d : Dev) (n : Nat) : Dev :=
  let d := if d.nvme.attached.contains n then d.namespaceChanged else d
  Dev.namespaceChanged { d with nvme := { d.nvme with attached := d.nvme.attached.filter (fun x => x != n) ++ [n] } }

/-! ### Checks -/

/-- The object check of a dataset. -/
def Dev.datasetObject (d : Dev) (x : Ctx) (n : Nat) : Option Status :=
  match AMap.get? d.face.datasets n with
  | none => some Status.noSuchDataset
  | some t => needs (x.mayName t.tenant) Status.notOwner

/-- Step 11 for a dataset: its owner. -/
def Dev.datasetOwner (d : Dev) (n : Nat) : Option Status :=
  match AMap.get? d.face.datasets n with
  | none => none
  | some t => d.ownerEnabled t.tenant

/-- Whether an append to a dataset is outstanding. -/
def Dev.appendOutstanding (d : Dev) (n : Nat) : Bool :=
  d.face.extents.any (fun p => p.2.dataset == n && p.2.append.isSome)

/-- Whether a dataset has an open extent or an outstanding NVMe Write (R645). -/
def Dev.nvmeWriting (d : Dev) (n : Nat) : Bool :=
  ((AMap.get? d.face.datasets n).map (fun t => t.openExtent.isSome)).getD false ||
  d.nvme.cmds.any (fun c => c.kind == 1 && c.nsid == n + 2)

/-- Whether a stream reads a dataset. -/
def Dev.datasetRead (d : Dev) (n : Nat) : Bool := d.streams.any (fun p => p.2.dataset == n && p.2.ingest.isNone)

/-! ### DATASET_CREATE (R229, R643) -/

/-- A dataset just created. -/
def Dataset.created (t : Nat) : Dataset :=
  { tenant := t, sealed_ := false, extents := [], length := 0, manifest := [], dirOffset := 0, count := 0, damage := [], placement := [],
    placementNext := none, sealing := none, keyMode := 0, key := [], openExtent := none }

/-- A dataset created for a tenant, its namespace attached. -/
def Dev.createDataset (d : Dev) (n t : Nat) : Dev :=
  Dev.attachNamespace { d.journal 5 n with face := { (d.journal 5 n).face with datasets := AMap.set d.face.datasets n (Dataset.created t) } } n

/-- DATASET_CREATE (R229, R235). -/
def cmdDatasetCreate : Cmd :=
  { opcode := 0x0601
    admin := true
    check := fun d x =>
      let n := x.get 0 2
      let t := bitField (x.get 2 2) 0 10
      { lenOk := x.r.len == 8
        rsvOk := bitField (x.get 2 2) 10 6 == 0 && x.rsv 4 4
        field := needs (decide (n ≤ 65532)) Status.fieldInvalid
        object := d.tenantObject x t
        state := d.ownerEnabled t
        own := needs (!AMap.has d.face.datasets n) Status.datasetExists }
    run := fun d x _ => { dev := d.createDataset (x.get 0 2) (bitField (x.get 2 2) 0 10) } }

/-- DATASET_CREATE (R229). -/
def execDatasetCreate (w : Window) (r : Request) (s : State) : Out := s.onDoorbell cmdDatasetCreate w r

/-! ### DATASET_APPEND (R230) -/

/-- An append or seal report (Table 06-8). -/
def datasetReport (status ext count total : Nat) (digest : List Byte) (mark : Nat) : List Byte :=
  leBytes 2 status ++ zeros 2 ++ leBytes 4 ext ++ leBytes 8 count ++ leBytes 8 total ++ padTo digest 32 ++ leBytes 8 mark

/-- An extent complete: it is LIVE and its DIGEST is fixed (R230, R645). -/
def Dev.finishExtent (d : Dev) (e : Nat) : Dev := d.modExtent e (fun x => { x with state := .live, digest := sha256 x.data })

/-- The open extent of a dataset closes; once all of it is programmed it takes its place on the media (R645). -/
def Dev.closeOpenExtent (d : Dev) (n : Nat) : Dev :=
  match (AMap.get? d.face.datasets n).bind Dataset.openExtent with
  | none => d
  | some e =>
    let d := (d.finishExtent e).modDataset n (fun t => { t with openExtent := none })
    match AMap.get? d.face.extents e with
    | none => d
    | some x =>
      if x.dirty ≠ 0 || x.programmed || d.nvme.cmds.any (fun c => c.owes.any (fun o => o.1 == e)) then d
      else match d.settleExtent e x x.nativeDest with
        | none => d
        | some d => d.modExtentQuiet e (fun y => { y with buffered := false })

/-- DATASET_APPEND (R229, R230, R235). -/
def cmdDatasetAppend : Cmd :=
  { opcode := 0x0602
    ticketed := true
    check := fun d x =>
      let n := x.get 0 2
      let len := x.get 8 4
      { lenOk := x.r.len == 16
        sgl := true
        rsvOk := x.rsv 2 6 && x.rsv 12 4
        field := needs (decide (1 ≤ len && len ≤ 1073741824)) Status.fieldInvalid
        object := d.datasetObject x n
        state := d.datasetOwner n
        own := firstFail [
          needs (((AMap.get? d.face.datasets n).map (fun t => !t.sealed_)).getD true) Status.datasetSealed,
          needs d.freeExtent.isSome Status.extentLimit,
          needs (decide (d.validBytes + pageBytes * pagesOf len ≤ d.usable)) Status.noSpace,
          needs (sglBytes x.r.sgl == roundUp len 8 + 64) Status.appendLengthBad]
        subject := n }
    run := fun d x k =>
      let d := d.closeOpenExtent (x.get 0 2)
      match d.freeExtent with
      | none => { dev := d }
      | some e => { dev := d.beginExtent e (x.get 0 2) (bytesAt x.r.data 0 (x.get 8 4)) (some (x.w, k)) } }

/-- DATASET_APPEND (R229). -/
def execDatasetAppend (w : Window) (r : Request) (s : State) : Out := s.onDoorbell cmdDatasetAppend w r

/-- The append of a ticket whose extent is durable completes with its report (R230). -/
def Dev.appendDurable (d : Dev) (w n : Nat) : Dev :=
  match d.face.extents.find? (fun p => p.2.append == some (w, n)) with
  | none => d
  | some (e, x) =>
    if !(x.buffered || x.programmed) then d
    else
      let d := ((d.makeDurable e).finishExtent e).modExtentQuiet e (fun y => { y with append := none })
      match AMap.get? d.face.extents e with
      | none => d
      | some y => d.completeReport w n Status.success (datasetReport Status.success e y.offset y.length y.digest y.durTick)

/-- DATASET_APPEND_DURABLE (R230). -/
def execDatasetAppendDurable (w : Window) (ticket : Nat) (s : State) : Out := s.onRunning (fun d => d.appendDurable w.num ticket)

/-! ### DATASET_SEAL (R231, R232) -/

/-- DATASET_SEAL (R229, R235, R645). -/
def cmdDatasetSeal : Cmd :=
  { opcode := 0x0603
    ticketed := true
    check := fun d x =>
      let n := x.get 0 2
      { lenOk := x.r.len == 24
        sgl := true
        rsvOk := x.rsv 2 6 && bitField (x.get 8 8) 48 16 == 0
        field := needs (x.get 8 8 % 16 == 0 && decide (1 ≤ x.get 16 8 && x.get 16 8 ≤ 2 ^ 48)) Status.fieldInvalid
        object := d.datasetObject x n
        state := d.datasetOwner n
        own := firstFail [
          needs (!d.operationBusy 0x0603 n) Status.operationBusy,
          needs (((AMap.get? d.face.datasets n).map (fun t => !t.sealed_)).getD true) Status.datasetSealed,
          needs (!d.appendOutstanding n && !d.nvmeWriting n) Status.datasetBusy]
        subject := n }
    run := fun d x k =>
      { dev := d.modDataset (x.get 0 2) (fun t => { t with sealing := some (x.w, k, x.get 8 8, x.get 16 8) }) } }

/-- DATASET_SEAL (R229). -/
def execDatasetSeal (w : Window) (r : Request) (s : State) : Out := s.onDoorbell cmdDatasetSeal w r

/-- Whether directory entry `b` of a dataset of `len` bytes with its directory at `dir` of `n` entries is good (R231). -/
def dirEntryOk (len dir n : Nat) (b : List Byte) : Bool :=
  let o := leAt b 0 6
  let l := leAt b 8 4
  leAt b 6 2 == 0 && leAt b 12 4 == 0 && l != 0 && decide (o + l ≤ len) && (decide (o + l ≤ dir) || decide (dir + 16 * n ≤ o))

/-- MARK of a directory that fails a check of R231, none for a good one. -/
def Dev.badDirectory (d : Dev) (t : Dataset) (dir n : Nat) : Option Nat :=
  if t.length = 0 then some 0
  else if t.length < dir + 16 * n then some ((t.length - dir) / 16)
  else
    let b := d.datasetBytes t dir (16 * n)
    (List.range n).find? (fun i => !dirEntryOk t.length dir n (bytesAt b (16 * i) 16))

/-- MANIFEST_HASH (R232). -/
def Dev.manifestHash (d : Dev) (t : Dataset) (dir n : Nat) : List Byte :=
  sha256 (leBytes 8 n ++ leBytes 8 dir ++ t.extents.flatMap (fun e => ((AMap.get? d.face.extents e).map Extent.digest).getD []))

/-- The dataset that ticket `n` of window `w` seals. -/
def Dev.sealOf (d : Dev) (w n : Nat) : Option (Nat × Dataset) :=
  d.face.datasets.find? (fun p => match p.2.sealing with
    | some (a, b, _, _) => a == w && b == n
    | none => false)

/-- The seal of a ticket ends (R231). -/
def Dev.sealDone (d : Dev) (w n : Nat) : Dev :=
  match d.sealOf w n with
  | none => d
  | some (k, t) => match t.sealing with
    | none => d
    | some (_, _, dir, cnt) =>
      let d := d.modDataset k (fun t => { t with sealing := none })
      match d.badDirectory t dir cnt with
      | some m => d.completeReport w n Status.directoryBad (datasetReport Status.directoryBad 0 cnt t.length [] m)
      | none =>
        let h := d.manifestHash t dir cnt
        let d := (d.journal 5 k).modDataset k (fun t => { t with sealed_ := true, manifest := h, dirOffset := dir, count := cnt })
        let d := d.queryReplicas k
        d.completeReport w n Status.success (datasetReport Status.success 0 cnt t.length h (2 ^ 64 - 1))

/-- DATASET_SEAL_DONE (R231). -/
def execDatasetSealDone (w : Window) (ticket : Nat) (s : State) : Out := s.onRunning (fun d => d.sealDone w.num ticket)

/-! ### DATASET_DISCARD (R236) -/

/-- An extent that is discarded: its pages are no longer live, and its chunks need no programming. -/
def Dev.discardExtent (d : Dev) (e : Nat) : Dev :=
  match AMap.get? d.face.extents e with
  | none => d
  | some x =>
    let d := d.releasePages x
    let y : Extent := { x with state := .discarded, dirty := 0, buffered := false, append := none, journalSeq := d.face.journalSeq % 2 ^ 32 }
    { d with face := { d.face with extents := AMap.set d.face.extents e y } }

/-- A dataset discarded in one journal record: its id is free, and its key is destroyed (R236, R660). -/
def Dev.discardDataset (d : Dev) (n : Nat) : Dev :=
  match AMap.get? d.face.datasets n with
  | none => d
  | some t =>
    let d := t.extents.foldl Dev.discardExtent (d.journal 5 n)
    Dev.freeExtents { d with face := { d.face with datasets := AMap.del d.face.datasets n } }

/-- DATASET_DISCARD (R229, R235). -/
def cmdDatasetDiscard : Cmd :=
  { opcode := 0x0604
    admin := true
    ticketed := true
    check := fun d x =>
      let n := x.get 0 2
      { lenOk := x.r.len == 8
        rsvOk := x.rsv 2 6
        object := d.datasetObject x n
        state := d.datasetOwner n
        own := firstFail [
          needs (!d.appendOutstanding n && ((AMap.get? d.face.datasets n).map (fun t => t.sealing.isNone)).getD true) Status.datasetBusy,
          needs (!d.datasetRead n) Status.datasetInUse]
        subject := n }
    run := fun d x k => { dev := (d.discardDataset (x.get 0 2)).completeTicket x.w k Status.success 0 } }

/-- DATASET_DISCARD (R236). -/
def execDatasetDiscard (w : Window) (r : Request) (s : State) : Out := s.onDoorbell cmdDatasetDiscard w r

/-! ### PLACEMENT_SET (R237) and DATASET_KEY_SET (R659, R660) -/

/-- PLACEMENT_SET (R229, R235). -/
def cmdPlacementSet : Cmd :=
  { opcode := 0x0605
    admin := true
    check := fun d x =>
      let n := x.get 0 2
      let c := x.get 2 1
      let peers := (List.range (min c 4)).map (fun k => x.get (8 + 8 * k) 2)
      { lenOk := x.r.len == 40
        rsvOk := x.rsv 3 5 && (List.range (min c 4)).all (fun k => x.rsv (12 + 8 * k) 4) && x.rsv (8 + 8 * min c 4) (32 - 8 * min c 4)
        field := needs (decide (c ≤ 4)) Status.fieldInvalid
        object := d.datasetObject x n
        state := d.datasetOwner n
        own := needs (peers.all (fun p => AMap.has d.haul.peers p)) Status.placementPeerUnknown }
    run := fun d x _ =>
      let l := (List.range (x.get 2 1)).map (fun k => { peer := x.get (8 + 8 * k) 2, dataset := x.get (10 + 8 * k) 2, usable := false : Replica })
      { dev := d.modDataset (x.get 0 2) (fun t => { t with placementNext := some l }) } }

/-- PLACEMENT_SET (R237). -/
def execPlacementSet (w : Window) (r : Request) (s : State) : Out := s.onDoorbell cmdPlacementSet w r

/-- KEY_CHECK (Table 19-7). -/
def keyCheck (mode : Nat) (key : List Byte) : Nat := if mode = 0 then 0 else leAt (aes256 (key.take 32) (zeros 16)) 0 3

/-- DATASET_KEY_SET (R659, R660). -/
def cmdDatasetKeySet : Cmd :=
  { opcode := 0x0606
    since := 0x0300
    admin := true
    check := fun d x =>
      let n := x.get 0 2
      let m := x.get 2 1
      { lenOk := x.r.len == 72
        rsvOk := x.rsv 3 5 && (m == 1 || decide (2 < m) || x.rsv 8 64)
        field := needs (decide (m ≤ 2) && (m != 1 || x.raw 8 32 != x.raw 40 32) && (decide (n ≤ 65532) || n == 0xFFFF)) Status.fieldInvalid
        object := if n = 0xFFFF then none else d.datasetObject x n
        state := if n = 0xFFFF then none else d.datasetOwner n
        own := needs (if n = 0xFFFF then d.face.granules.isEmpty else ((AMap.get? d.face.datasets n).map (fun t => t.extents.isEmpty)).getD true) Status.keyNotEmpty }
    run := fun d x _ =>
      let n := x.get 0 2
      let m := x.get 2 1
      let (k, d) := d.draw
      let key := if m = 0 then [] else if m = 1 then x.raw 8 64 else padTo (Config.freeBytes k) 64
      let d := d.journal 6 n
      let d := if n = 0xFFFF then { d with face := { d.face with scratchKeyMode := m, scratchKey := key } }
        else d.modDataset n (fun t => { t with keyMode := m, key := key })
      { dev := d, payload := leBytes 4 (keyCheck m key) } }

/-- DATASET_KEY_SET (R659). -/
def execDatasetKeySet (w : Window) (r : Request) (s : State) : Out := s.onDoorbell cmdDatasetKeySet w r

end Sys2Proof.Machine
end

