-- ==== Sys2Proof/Machine/Ladder.lean ====
section
/-!
DEFINITION. Machine/Ladder.lean: the choice of a ladder step at a plan freeze and at a boundary (R612, R614, R617).
-/
namespace Sys2Proof.Machine

/-- The lowest-numbered step that the target lets the device run (R617). -/
def Dev.targetStep (d : Dev) : Nat := if 3 ≤ d.powerTarget.code then d.stepF else if 1 ≤ d.powerTarget.code then 7 else 0

/-- The lowest-numbered step that fits a cap, or F when none fits; the target bounds it from below. -/
def Dev.fittingStep (d : Dev) (cap : Rat) : Nat :=
  (((List.range (d.stepF + 1)).filter (fun s => decide (d.targetStep ≤ s))).find? (fun s => decide (d.pPred s ≤ cap))).getD d.stepF

/-- The step chosen at a plan freeze (R612): down to the first that fits, up by one with 2 % to spare, or the step in force. -/
def Dev.chooseStep (d : Dev) : Nat :=
  let cap := d.capEff
  let s := d.bellows.step
  let ceiling := (d.bellows.droop.map Prod.fst).getD 0
  if cap < d.pPred s then d.fittingStep cap
  else if s < d.targetStep then d.targetStep
  else if 0 < s && decide (d.targetStep ≤ s - 1) && decide (ceiling ≤ s - 1) && decide (d.pPred (s - 1) ≤ 98 / 100 * cap) then s - 1
  else s

/-- The step that takes effect at a boundary: the one chosen at the freeze, chosen again when the effective cap has fallen, and then only
downward (R612). -/
def Dev.boundaryStep (d : Dev) : Nat :=
  let chosen := d.bellows.nextStep.getD d.bellows.step
  if d.capEff < d.bellows.cEffAtFreeze && decide (d.capEff < d.pPred chosen) then max chosen (d.fittingStep d.capEff) else chosen

end Sys2Proof.Machine
end

