-- ==== Sys2Proof/Machine/Streams.lean ====
section
/-!
DEFINITION. Machine/Streams.lean: streams created, started, paused and deleted, their epochs' beginnings and ends, and the digest records
(R97, R459, R467, R481 to R486, R573 to R579, R729, R730).
-/
namespace Sys2Proof.Machine

/-! ### The window area (R729) -/

/-- Pages of a window area of `n` entries. -/
def windowPages (n : Nat) : Nat := pagesFor (16 * n)

/-- A tenant changed. -/
def Dev.modTenant (d : Dev) (t : Nat) (f : Tenant → Tenant) : Dev := { d with tenants := AMap.mod d.tenants t f }

/-- The tenant's window area taken, if it has none: in the region that R97 would choose. None when the pages are not free (R94). -/
def Dev.takeWindow (d : Dev) (t : Nat) : Option Dev :=
  match AMap.get? d.tenants t with
  | none => none
  | some x =>
    if x.window.isSome then some d
    else
      let n := windowPages (d.param ParamId.windowSamples t)
      match argMin d.contextsIn d.regionsIn with
      | none => none
      | some r =>
        if d.pagesFree r < n then none
        else some ((d.takePages PageKind.window t r n).modTenant t (fun x => { x with window := some (r, n) }))

/-- The window area of a tenant without a stream freed. -/
def Dev.releaseWindow (d : Dev) (t : Nat) : Dev :=
  if (d.streamsOf t).isEmpty then (d.freePages PageKind.window t).modTenant t (fun x => { x with window := none }) else d

/-- The size against which WINDOW_FULL is checked: the smaller of the pending one and the one in force (R729). -/
def Dev.windowRoom (d : Dev) (t : Nat) : Nat :=
  let v := d.param ParamId.windowSamples t
  min v (((d.pending? ParamId.windowSamples t).map PendingParam.value).getD v)

/-- A pending WINDOW_SAMPLES of tenant `t` put in force at a boundary, with its area resized in its region, unless a condition still fails (R729). -/
def Dev.applyWindow (d : Dev) (t : Nat) : Dev :=
  match d.pending? ParamId.windowSamples t with
  | none => d
  | some p =>
    if !d.tenantQuiet t then d
    else
      let done := fun (d : Dev) =>
        let d : Dev := { d with hearth := { d.hearth with pend := d.hearth.pend.filter (fun q => !(q.id == p.id && q.index == t)) } }
        d.putParam p.id t p.value
      match (AMap.get? d.tenants t).bind Tenant.window with
      | none => done d
      | some (r, n) =>
        let m := windowPages p.value
        if n + d.pagesFree r < m then d
        else done (((d.freePages PageKind.window t).takePages PageKind.window t r m).modTenant t (fun x => { x with window := some (r, m) }))

/-- Pending window sizes of every tenant. -/
def Dev.windowBoundary (d : Dev) : Dev := (d.tenants.map Prod.fst).foldl Dev.applyWindow d

/-! ### Logs that end (R579) -/

/-- LOG_END written, the log's stream ended, and REPLAY_LOG_END posted; a log armed and not begun is left without records. -/
def Dev.endLog (d : Dev) (sid reason : Nat) : Dev :=
  match AMap.get? d.streams sid with
  | none => d
  | some st => match st.log with
    | none => d
    | some (id, false) =>
      (d.modLog id (fun l => { l with armed := false, stopAsked := false })).modStream sid (fun s => { s with log := none })
    | some (id, true) =>
      let d := (d.logRec sid LogKind.logEnd (leBytes 1 reason ++ zeros 7 ++ leBytes 8 st.nextBillet ++ padTo st.digest 32)).flushLog id
      let ctx := ((AMap.get? d.group.logs id).map Log.ctx).getD Log.freshCtx
      let (d, out) := d.cmpEnd ctx
      let d := d.modLog id (fun l => { l with ctx := { l.ctx with out := out, held := [] }, recording := false, armed := false, ended := true, stopAsked := false })
      let d := d.modStream sid (fun s => { s with log := none })
      d.event st.tenant EventCode.replayLogEnd 0 [(20, 1, id), (21, 1, reason), (24, 8, st.nextBillet)]

/-! ### Digest records (R576) -/

/-- A digest record noted, and written to the log of a stream that is recorded. -/
def Dev.noteDigest (d : Dev) (sid : Nat) : Dev :=
  match AMap.get? d.streams sid with
  | none => d
  | some st =>
    let r : DigestRec := { tick := d.tick.count, billets := st.nextBillet, digest := st.digest }
    let l := st.records ++ [r]
    (d.modStream sid (fun s => { s with records := l.drop (l.length - 16) })).logRec sid LogKind.tickMark (leBytes 8 r.billets ++ padTo r.digest 32)

/-- The digest record of the tick that ends, when billets of the epoch closed in it. -/
def Dev.digestBoundary (d : Dev) (sid : Nat) : Dev :=
  match AMap.get? d.streams sid with
  | none => d
  | some st =>
    let last := ((st.records.getLast?).map DigestRec.billets).getD 0
    if st.nextBillet = last then d else d.noteDigest sid

/-! ### Epochs begin and end (R467, R483, R486) -/

/-- A recording begins: the log's header, and the first digest record when the epoch has none yet. -/
def Dev.beginLog (d : Dev) (sid : Nat) : Dev :=
  match AMap.get? d.streams sid with
  | none => d
  | some st => match st.log with
    | some (id, false) =>
      let d := (d.modLog id (fun l => { l with armed := false, recording := true })).modStream sid (fun s => { s with log := some (id, true) })
      d.logRec sid LogKind.header (d.digestSeed sid st)
    | _ => d

/-- An epoch takes effect (R459, R483, R575, R576); a live-ingest stream begins its one epoch (R525). -/
def Dev.beginEpoch (d : Dev) (sid tick epoch size permKey winKey : Nat) (exact : Bool) (dealing : List Nat) : Dev :=
  match AMap.get? d.streams sid with
  | none => d
  | some st =>
    let n := min st.depth size
    let live := st.ingest.isSome && st.replayOf.isNone
    let d := d.writeStream sid (fun s => Stream.enter { s with
      mode := exact, epoch := epoch, size := size, permKey := permKey, winKey := winKey, winCtr := epoch * 2 ^ 64, cursor := n, emitted := 0,
      eSubst := 0, eDefer := 0, eReinsert := 0, eSkip := 0, startTick := tick, dealing := if live then mapBits s.resMap else dealing,
      window := List.range n, draws := 0, taken := 0, samples := [], readPos := 0, dirPages := [], open_ := [], closed := [], nextBillet := 0, ended := false,
      deferred := [], records := [], corruptThisTick := 0, owed := 0, want := 0
      ingest := s.ingest.map (fun g => { g with matching := live }) } .running)
    let st := (AMap.get? d.streams sid).getD st
    let d := d.modStream sid (fun s => { s with digest := sha256 (d.digestSeed sid st) })
    let d : Dev := { d with face := { d.face with drawRates := AMap.del d.face.drawRates sid } }
    let d := d.beginLog sid
    let pins := ((AMap.get? d.progs st.slot).map (fun p => d.pinsFor st.tenant p (exact || (((AMap.get? d.streams sid).map Stream.recordedForm).getD false)))).getD []
    (d.modStream sid (fun s => { s with pins := pins })).noteDigest sid

/-- EPOCH_COMPLETE, once every billet closed in the epoch has been handed to the Haul (R467, R486). -/
def Dev.epochComplete (d : Dev) (sid : Nat) : Dev :=
  match AMap.get? d.streams sid with
  | none => d
  | some st =>
    if st.state != .running || !st.ended || !st.closed.isEmpty then d
    else
      let d := (d.writeStream sid (fun s => { s with state := .idle })).screenEpochEnd sid st
      d.event st.tenant EventCode.epochComplete sid
        [(20, 3, st.epoch), (23, 1, bitNat st.mode), (24, 8, st.eSubst), (32, 8, st.eDefer), (40, 8, st.eReinsert), (48, 8, st.eSkip), (56, 6, st.emitted)]

/-- One accepted command of a stream takes effect. -/
def Dev.streamCmd (d : Dev) (sid : Nat) (c : StreamCmd) : Dev :=
  match c with
  | .epochStart tick epoch size permKey winKey exact dealing => d.beginEpoch sid tick epoch size permKey winKey exact dealing
  | .pause _ => d.writeStream sid (fun s => s.enter (if s.standing = .running then .paused else s.standing))
  | .resume _ => d.writeStream sid (fun s => s.enter (if s.standing = .paused then .running else s.standing))

/-- The tick at which an accepted command takes effect. -/
def StreamCmd.tick : StreamCmd → Nat
  | .epochStart t _ _ _ _ _ _ => t
  | .pause t => t
  | .resume t => t

/-- The commands of a stream that are due take effect, in order of acceptance (R730). -/
def Dev.streamCmdsDue (d : Dev) (sid : Nat) : Dev :=
  match AMap.get? d.streams sid with
  | none => d
  | some st =>
    let due := st.cmds.filter (fun c => decide (c.tick ≤ d.tick.count))
    let d := d.modStream sid (fun s => { s with cmds := s.cmds.filter (fun c => !decide (c.tick ≤ d.tick.count)) })
    due.foldl (fun d c => d.streamCmd sid c) d

/-! ### Work of a stream dropped (R485, R560) -/

/-- Whether an item is work of stream `sid` before its hand-off. -/
def Item.ofStream (i : Item) (sid : Nat) : Bool :=
  match i.job with
  | .sample s _ _ => s == sid
  | .pack s _ _ => s == sid
  | _ => false

/-- Admission of a stream stops: its items that wait go, and the results of the others are to be discarded. -/
def Dev.stopWork (d : Dev) (sid : Nat) : Dev :=
  let mine := d.tick.items.filter (fun i => i.ofStream sid)
  mine.foldl (fun d i => if i.waiting then d.forgetItem i else d.modItem i.id (fun j => { j with discard := true })) d

/-- Whether an item of a stream still runs on a unit. -/
def Dev.workRuns (d : Dev) (sid : Nat) : Bool := d.tick.items.any (fun i => i.ofStream sid && i.phase == .running && i.out.isNone)

/-- Every item of a stream gone, with the buffers that it took. -/
def Dev.forgetWork (d : Dev) (sid : Nat) : Dev := (d.tick.items.filter (fun i => i.ofStream sid)).foldl (fun d i => d.forgetItem i) d

/-- Residents, open and closed billets, and deferred samples of a stream DROPped. -/
def Dev.dropWork (d : Dev) (sid : Nat) : Dev :=
  match AMap.get? d.streams sid with
  | none => d
  | some st =>
    let d := st.samples.foldl (fun d p => d.dropOuts st p.2) d
    let d := (st.open_ ++ st.closed).foldl (fun d b => d.dropBufs b.bufs OwnerClass.hammer st.tenant) d
    d.writeStream sid (fun s => { s with samples := [], open_ := [], closed := [], deferred := [], owed := 0, want := 0 })

/-- The context of a stream FREE and its home-map entry 0, with all that the units keep for it (R485, step 5). -/
def Dev.removeStream (d : Dev) (sid : Nat) : Dev :=
  match AMap.get? d.streams sid with
  | none => d
  | some st =>
    let d := ((d.forgetWork sid).dropWork sid).screenEpochEnd sid st
    let d : Dev := { d with
      streams := AMap.del d.streams sid
      tongs := { d.tongs with lines := AMap.del d.tongs.lines (lineKey st.home st.homeSlot) }
      face := { d.face with drawRates := AMap.del d.face.drawRates sid } }
    ((paramsOf .stream).foldl (fun d p => d.dropParam p.id sid) d).releaseWindow st.tenant

/-! ### STREAM_CREATE (R482) -/

/-- A context written in its home with STATE IDLE, its parameters and its tenant's window area with it (R97, R179). -/
def Dev.createStream (d : Dev) (sid tenant dataset slot depth : Nat) (modeNext : Bool) : Dev :=
  match d.chooseHome with
  | none => d
  | some (r, k) =>
    let d := (d.takeWindow tenant).getD d
    let d : Dev := { d with streams := AMap.set d.streams sid (Stream.created tenant dataset slot depth r k modeNext d.tick.count) }
    d.initParams .stream sid

/-- The check of a program slot that a stream of tenant `t` is to use: it exists and is the tenant's (R202). -/
def Dev.tenantSlot (d : Dev) (slot t : Nat) : Option Status :=
  match AMap.get? d.progs slot with
  | none => some Status.noSuchProgram
  | some p => needs (p.tenant == t) Status.notOwner

/-- A slot as a stream needs it: LOADED (R202). -/
def Dev.slotLoaded (d : Dev) (slot : Nat) : Bool := ((AMap.get? d.progs slot).map (fun p => p.state == .loaded)).getD false

/-- Whether op 0 of a slot is INGEST_FRAME. -/
def Dev.slotIngests (d : Dev) (slot : Nat) : Bool := ((AMap.get? d.progs slot).map (fun p => opcodeAt p.ops 0 == Op.ingestFrame)).getD false

/-- EXACT_CAPABLE of a slot (R204). -/
def Dev.slotExact (d : Dev) (slot : Nat) : Bool := ((AMap.get? d.progs slot).map Prog.exactCapable).getD false

/-- STREAM_CREATE (R482). -/
def cmdStreamCreate : Cmd :=
  { opcode := 0x0401
    check := fun d x =>
      let t := x.get 12 2
      let ds := x.get 4 2
      let slot := x.get 6 1
      let depth := x.get 8 4
      { lenOk := x.r.len == 16
        rsvOk := decide (x.get 0 4 < 2 ^ 20) && decide (x.get 7 1 < 2) && decide (t < 1024) && x.rsv 14 2
        field := needs (decide (1 ≤ depth && depth ≤ 4194304)) Status.fieldInvalid
        object := firstFail [d.tenantObject x t,
          match AMap.get? d.face.datasets ds with
          | none => some Status.noSuchDataset
          | some y => needs (y.tenant == t) Status.notOwner,
          d.tenantSlot slot t]
        state := d.ownerEnabled t
        own := firstFail [
          needs (!AMap.has d.streams (x.get 0 4)) Status.streamExists,
          needs (((AMap.get? d.face.datasets ds).map Dataset.sealed_).getD false) Status.datasetNotSealed,
          needs (d.slotLoaded slot) Status.programBusy,
          needs (!d.slotIngests slot) Status.programKindMismatch,
          needs (!bitOf (x.get 7 1) 0 || d.slotExact slot) Status.notExactCapable,
          needs (decide (d.depthSum t + depth ≤ d.windowRoom t)) Status.windowFull,
          needs d.chooseHome.isSome Status.noContextSlot,
          needs (d.takeWindow t).isSome Status.noStockpile] }
    run := fun d x _ => { dev := d.createStream (x.get 0 4) (x.get 12 2) (x.get 4 2) (x.get 6 1) (x.get 8 4) (bitOf (x.get 7 1) 0) } }

/-- STREAM_CREATE (R482). -/
def execStreamCreate (w : Window) (r : Request) (s : State) : Out := s.onDoorbell cmdStreamCreate w r

/-! ### EPOCH_START, STREAM_PAUSE and STREAM_RESUME (R483, R484, R730) -/

/-- The state that a stream will hold once every command accepted before has taken effect (R730). -/
def Stream.projected (st : Stream) : StreamState :=
  st.cmds.foldl (fun s c => match c with
    | .epochStart _ _ _ _ _ _ _ => if s = .rehoming then s else .running
    | .pause _ => if s = .running then .paused else s
    | .resume _ => if s = .paused then .running else s) st.state

/-- Whether a stream takes commands that move its state: it is not being deleted, and no replay runs on it. -/
def Stream.takesCmds (st : Stream) : Bool := st.deleting.isNone && st.replayOf.isNone

/-- STATE_STREAM unless a stream will stand in a state. -/
def Dev.needsProjected (d : Dev) (sid : Nat) (s : StreamState) : Option Status :=
  needs (((d.stream? sid).map (fun st => st.takesCmds && st.projected == s)).getD false) Status.streamState

/-- Step 11 for a stream: its tenant is ENABLED. -/
def Dev.streamOwner (d : Dev) (sid : Nat) : Option Status := (d.stream? sid).bind (fun st => d.ownerEnabled st.tenant)

/-- One more command accepted on a stream. -/
def Dev.addStreamCmd (d : Dev) (sid : Nat) (c : StreamCmd) : Dev := d.modStream sid (fun s => { s with cmds := s.cmds ++ [c] })

/-- SAMPLE_COUNT of a stream's dataset. -/
def Dev.sampleCount (d : Dev) (st : Stream) : Nat := ((AMap.get? d.face.datasets st.dataset).map Dataset.count).getD 0

/-- N of an EPOCH_START: 0 selects SAMPLE_COUNT (Table 14-5). -/
def Dev.epochSize (d : Dev) (st : Stream) (n : Nat) : Nat := if n = 0 then d.sampleCount st else n

/-- The partitions that an Exact-mode epoch asks for can be made (R412). -/
def Dev.epochParts (d : Dev) (st : Stream) (n : Nat) : Option Status :=
  if st.modeNext then (d.progOfStream st).bind (fun p => d.partRefusal st.tenant p (d.epochSize st n)) else none

/-- EPOCH_START (R483). -/
def cmdEpochStart : Cmd :=
  { opcode := 0x0403
    check := fun d x =>
      let sid := x.get 0 4
      { lenOk := x.r.len == 40
        rsvOk := decide (sid < 2 ^ 20) && x.rsv 7 1 && x.rsv 14 2
        object := d.streamObject x sid
        state := d.streamOwner sid
        own := match d.stream? sid with
          | none => none
          | some st => firstFail [d.needsProjected sid .idle, needs (st.resMap != 0 && st.ingest.isNone) Status.streamState,
              needs (decide (x.get 8 6 ≤ d.sampleCount st)) Status.epochSizeBad, d.epochParts st (x.get 8 6)] }
    run := fun d x _ =>
      let sid := x.get 0 4
      match d.stream? sid with
      | none => { dev := d }
      | some st =>
        let t := d.nextPlanTick
        let n := d.epochSize st (x.get 8 6)
        let d := match st.modeNext, d.progOfStream st with
          | true, some p => d.makeParts sid st.tenant p n
          | _, _ => d
        { dev := d.addStreamCmd sid (.epochStart t (x.get 4 3) n (x.get 16 16) (x.get 32 8) st.modeNext (mapBits st.resMap)), payload := leBytes 8 t } }

/-- EPOCH_START (R483). -/
def execEpochStart (w : Window) (r : Request) (s : State) : Out := s.onDoorbell cmdEpochStart w r

/-- STREAM_PAUSE (R484). -/
def cmdStreamPause : Cmd :=
  { opcode := 0x0404
    check := fun d x =>
      { lenOk := x.r.len == 4
        rsvOk := decide (x.get 0 4 < 2 ^ 20)
        object := d.streamObject x (x.get 0 4)
        state := d.streamOwner (x.get 0 4)
        own := d.needsProjected (x.get 0 4) .running }
    run := fun d x _ => { dev := d.addStreamCmd (x.get 0 4) (.pause d.nextPlanTick) } }

/-- STREAM_PAUSE (R484). -/
def execStreamPause (w : Window) (r : Request) (s : State) : Out := s.onDoorbell cmdStreamPause w r

/-- STREAM_RESUME (R484). -/
def cmdStreamResume : Cmd :=
  { opcode := 0x0405
    check := fun d x =>
      { lenOk := x.r.len == 4
        rsvOk := decide (x.get 0 4 < 2 ^ 20)
        object := d.streamObject x (x.get 0 4)
        state := d.streamOwner (x.get 0 4)
        own := d.needsProjected (x.get 0 4) .paused }
    run := fun d x _ => { dev := d.addStreamCmd (x.get 0 4) (.resume d.nextPlanTick) } }

/-- STREAM_RESUME (R484). -/
def execStreamResume (w : Window) (r : Request) (s : State) : Out := s.onDoorbell cmdStreamResume w r

/-! ### MODE_SET (R573, R574) -/

/-- MODE_SET (R573). -/
def cmdModeSet : Cmd :=
  { opcode := 0x0406
    check := fun d x =>
      let sid := x.get 0 4
      { lenOk := x.r.len == 8
        rsvOk := decide (sid < 2 ^ 20) && decide (x.get 4 1 < 2) && x.rsv 5 3
        object := d.streamObject x sid
        state := d.streamOwner sid
        own := match d.stream? sid with
          | none => none
          | some st => firstFail [
              needs (st.replayOf.isNone && st.state != .lost && st.state != .draining && st.state != .rehoming) Status.streamState,
              needs (x.get 4 1 == 0 || d.slotExact st.slot) Status.notExactCapable] }
    run := fun d x _ =>
      let d := d.writeStream (x.get 0 4) (fun s => { s with modeNext := bitOf (x.get 4 1) 0 })
      { dev := d, payload := leBytes 1 (bitNat (((d.stream? (x.get 0 4)).map Stream.mode).getD false)) ++ leBytes 1 (x.get 4 1) ++ zeros 6 } }

/-- MODE_SET (R573). -/
def execModeSet (w : Window) (r : Request) (s : State) : Out := s.onDoorbell cmdModeSet w r

/-! ### STREAM_DELETE (R485) -/

/-- A stream's deletion begins: its admission stops, a recording of it ends, and a replay that runs on it is aborted (R485, R579, R584). -/
def Dev.startDelete (d : Dev) (sid : Nat) (ticket : Nat × Nat) : Dev :=
  let d := (d.endLog sid 3).stopWork sid
  let d := d.modStream sid (fun s => { s with deleting := some (ticket.1, ticket.2, d.tick.count), cmds := [] })
  { d with group := { d.group with replays := d.group.replays.map (fun r => if r.stream = sid then { r with aborted := true } else r) } }

/-- STREAM_DELETE (R485). -/
def cmdStreamDelete : Cmd :=
  { opcode := 0x0402
    ticketed := true
    check := fun d x =>
      let sid := x.get 0 4
      { lenOk := x.r.len == 4
        rsvOk := decide (sid < 2 ^ 20)
        object := d.streamObject x sid
        state := d.streamOwner sid
        own := needs (((d.stream? sid).map (fun st => st.deleting.isNone && st.state != .rehoming && st.state != .draining)).getD false) Status.streamState
        subject := sid }
    run := fun d x n => { dev := d.startDelete (x.get 0 4) (x.w, n) } }

/-- STREAM_DELETE (R485). -/
def execStreamDelete (w : Window) (r : Request) (s : State) : Out := s.onDoorbell cmdStreamDelete w r

/-- Step 5 of a deletion, once running work is over and no replay of the stream has its report to write (R485, R586). -/
def Dev.deleteDone (d : Dev) (sid : Nat) : Dev :=
  match (d.stream? sid).bind Stream.deleting with
  | none => d
  | some (w, n, _) =>
    if d.workRuns sid || d.group.replays.any (fun r => r.stream == sid) then d
    else
      let closing := (((d.stream? sid).bind Stream.ingest).map Ingest.closing).getD []
      let d := closing.foldl (fun d t => d.completeTicket t.1 t.2.1 Status.success 0) (d.removeStream sid)
      d.completeTicket w n Status.success 0

/-- STREAM_DELETE_DONE (R485). -/
def execStreamDeleteDone (stream : Nat) (s : State) : Out := s.onRunning (fun d => d.deleteDone stream)

/-! ### DIGEST_READ (R577) -/

/-- DIGEST_READ (R577). -/
def cmdDigestRead : Cmd :=
  { opcode := 0x0705
    since := 0x0301
    check := fun d x =>
      { lenOk := x.r.len == 16
        rsvOk := decide (x.get 0 4 < 2 ^ 20) && x.rsv 4 4
        object := d.streamObject x (x.get 0 4)
        state := d.streamOwner (x.get 0 4) }
    run := fun d x _ =>
      match d.stream? (x.get 0 4) with
      | none => { dev := d }
      | some st =>
        let rs := st.records.filter (fun r => decide (x.get 8 8 ≤ r.billets))
        { dev := d
          payload := leBytes 3 st.epoch ++ leBytes 1 rs.length ++ zeros 4 ++ leBytes 8 st.nextBillet ++
            rs.flatMap (fun r => leBytes 8 r.tick ++ leBytes 8 r.billets ++ padTo r.digest 32) } }

/-- DIGEST_READ (R577). -/
def execDigestRead (w : Window) (r : Request) (s : State) : Out := s.onDoorbell cmdDigestRead w r

end Sys2Proof.Machine
end

