-- ==== Sys2Proof/Machine/Ingest.lean ====
section
/-!
DEFINITION. Machine/Ingest.lean: the ingress parser, live-ingest streams, their policer, and the answers to ARP and Neighbor Solicitations (R490, R491, R525 to R532,
R552, R553).
-/
namespace Sys2Proof.Machine

/-! ### The ingress parser (R527, R528) -/

/-- The ingress drop reasons (Table 15-8). -/
inductive Drop where
  | depth | length | unsupported | checksum | fragment | noMatch
  deriving DecidableEq, Repr

/-- What the parser makes of a frame. -/
inductive Parsed where
  | dropped (r : Drop)
  /-- A RoCE v2 packet. -/
  | roce
  /-- An ARP packet, at its offset. -/
  | arp (off : Nat)
  /-- A Neighbor Solicitation: the offsets of its IPv6 header and of its ICMPv6 message, and the end of the message. -/
  | solicit (ip off stop : Nat)
  /-- A PTP message, which the PTP engine takes. -/
  | ptp
  /-- An ingest payload of a stream: the stream, where the payload starts and ends, and its capture time in ns. -/
  | ingest (stream start stop capture : Nat)
  deriving DecidableEq, Repr

/-- A header that the parser is to read. -/
inductive Hdr where
  | eth
  /-- A tag, with the tags of the Ethernet header before it. -/
  | tag (before : Nat)
  | ipv4
  | ipv6
  /-- An IPv6 extension header: its type, the offset of the IPv6 header, and the end of the packet. -/
  | ext (kind ip stop : Nat)
  /-- A UDP header: whether over IPv4, the sum of its addresses, and the end of the IP payload. -/
  | udp (v4 : Bool) (addrs stop : Nat)
  | vxlan
  | geneve
  deriving DecidableEq, Repr

/-- What the parser knows of the device: the port's MAC address, the stream that takes a UDP port and VNI, whether a QP number is in use, and whether the PTP
engine takes PTP messages. -/
structure ParseCtx where
  mac : List Byte
  streamOf : Nat → Option Nat → Option Nat
  qpn : Nat → Bool
  ptp : Bool

/-- The one's-complement sum of the 16-bit words of bytes. -/
def sum16 (bs : List Byte) : Nat :=
  match bs with
  | [] => 0
  | [a] => a.toNat * 256
  | a :: b :: r => a.toNat * 256 + b.toNat + sum16 r

/-- A sum folded to 16 bits. -/
def fold16 (n : Nat) : Nat := if n = 0 then 0 else (n - 1) % 65535 + 1

/-- Whether an EtherType is a tag's. -/
def isTag (t : Nat) : Bool := t == 0x8100 || t == 0x88A8

/-- What follows an EtherType: a header, or the end of the parse. `outer` holds outside every tunnel; `tags` counts the tags before. -/
def afterType (c : ParseCtx) (outer : Bool) (tags t off : Nat) : Parsed ⊕ Hdr :=
  if isTag t then (if tags < 2 then .inr (.tag tags) else .inl (.dropped .unsupported))
  else if t = 0x0800 then .inr .ipv4
  else if t = 0x86DD then .inr .ipv6
  else if outer && t == 0x0806 then .inl (.arp off)
  else if outer && c.ptp && t == 0x88F7 then .inl .ptp
  else .inl (.dropped .unsupported)

/-- Whether an IPv6 next header is an extension header other than Fragment. -/
def isExt (n : Nat) : Bool := n == 0 || n == 43 || n == 51 || n == 60 || n == 135 || n == 139 || n == 140

/-- What follows an IPv6 next header at `off`. -/
def afterNext (b : List Byte) (outer : Bool) (n ip off stop : Nat) : Parsed ⊕ Hdr :=
  if n = 17 then .inr (.udp false (sum16 (bytesAt b (ip + 8) 32)) stop)
  else if n = 44 then .inl (.dropped .fragment)
  else if isExt n then .inr (.ext n ip stop)
  else if outer && n == 58 && (bytesAt b off 1 == [135]) then .inl (.solicit ip off stop)
  else .inl (.dropped .unsupported)

/-- The ingest header at `off`, whose UDP payload ends at `stop` (R528). -/
def parseIngest (b : List Byte) (stream off stop : Nat) : Parsed :=
  if stop < off + 32 then .dropped .length
  else if leAt b off 4 ≠ 0x31464942 || leAt b (off + 5) 1 ≠ 1 || leAt b (off + 6) 2 ≠ 32 then .dropped .unsupported
  else if leAt b (off + 8) 4 ≠ stop - off - 32 then .dropped .length
  else if 10 ^ 9 ≤ leAt b (off + 18) 4 then .dropped .unsupported
  else .ingest stream (off + 32) stop (leAt b (off + 12) 6 * 10 ^ 9 + leAt b (off + 18) 4)

/-- Whether the checksum of the UDP header at `off`, of a datagram of `len` bytes, is good (Table 15-8). -/
def udpChecksumOk (b : List Byte) (v4 tunnel : Bool) (addrs off len : Nat) : Bool :=
  if beAt b (off + 6) 2 = 0 then v4 || tunnel
  else fold16 (addrs + 17 + len + sum16 (bytesAt b off len)) == 65535

/-- The chain of headers from header `h` at `off`, in bytes that end at `stop`; `vni` is the innermost tunnel's. -/
def parseChain (fuel : Nat) (c : ParseCtx) (b : List Byte) (vni : Option Nat) (h : Hdr) (off stop : Nat) : Parsed :=
  match fuel with
  | 0 => .dropped .depth
  | f + 1 =>
    let outer := vni.isNone
    match h with
    | .eth =>
      if stop < off + 14 then .dropped .length
      else if outer && bytesAt b off 6 != c.mac && (beAt b off 1) % 2 == 0 then .dropped .noMatch
      else match afterType c outer 0 (beAt b (off + 12) 2) (off + 14) with
        | .inl p => p
        | .inr h => parseChain f c b vni h (off + 14) stop
    | .tag before =>
      if stop < off + 4 then .dropped .length
      else match afterType c outer (before + 1) (beAt b (off + 2) 2) (off + 4) with
        | .inl p => p
        | .inr h => parseChain f c b vni h (off + 4) stop
    | .ipv4 =>
      if stop < off + 20 then .dropped .length
      else
        let v := beAt b off 1
        let n := v % 16 * 4
        let total := beAt b (off + 2) 2
        if v / 16 ≠ 4 then .dropped .unsupported
        else if v % 16 < 5 || total < n || stop - off < total then .dropped .length
        else if beAt b (off + 6) 2 % 16384 ≠ 0 then .dropped .fragment
        else if beAt b (off + 9) 1 ≠ 17 then .dropped .unsupported
        else if fold16 (sum16 (bytesAt b off n)) ≠ 65535 then .dropped .checksum
        else parseChain f c b vni (.udp true (sum16 (bytesAt b (off + 12) 8)) (off + total)) (off + n) (off + total)
    | .ipv6 =>
      if stop < off + 40 then .dropped .length
      else
        let n := beAt b (off + 4) 2
        if beAt b off 1 / 16 ≠ 6 then .dropped .unsupported
        else if stop - off - 40 < n then .dropped .length
        else match afterNext b outer (beAt b (off + 6) 1) off (off + 40) (off + 40 + n) with
          | .inl p => p
          | .inr h => parseChain f c b vni h (off + 40) (off + 40 + n)
    | .ext kind ip last =>
      let n := if kind = 51 then (beAt b (off + 1) 1 + 2) * 4 else (beAt b (off + 1) 1 + 1) * 8
      if last < off + 8 || last < off + n then .dropped .length
      else match afterNext b outer (beAt b off 1) ip (off + n) last with
        | .inl p => p
        | .inr h => parseChain f c b vni h (off + n) last
    | .udp v4 addrs last =>
      if last < off + 8 then .dropped .length
      else
        let port := beAt b (off + 2) 2
        let tunnel := port == 4789 || port == 6081
        let roce := outer && port == 4791
        let who := c.streamOf port vni
        let len := beAt b (off + 4) 2
        if !tunnel && !roce && who.isNone then .dropped .noMatch
        else if len < 8 || last - off < len then .dropped .length
        else if !udpChecksumOk b v4 tunnel addrs off len then .dropped .checksum
        else if tunnel then parseChain f c b vni (if port = 4789 then .vxlan else .geneve) (off + 8) (off + len)
        else if roce then
          (if len < 20 then .dropped .length else if c.qpn (beAt b (off + 13) 3) then .roce else .dropped .noMatch)
        else parseIngest b (who.getD 0) (off + 8) (off + len)
    | .vxlan =>
      if stop < off + 8 then .dropped .length
      else parseChain f c b (some (beAt b (off + 4) 3)) .eth (off + 8) stop
    | .geneve =>
      let n := 8 + beAt b off 1 % 64 * 4
      if stop < off + 8 || stop < off + n then .dropped .length
      else if beAt b (off + 2) 2 ≠ 0x6558 then .dropped .unsupported
      else parseChain f c b (some (beAt b (off + 4) 3)) .eth (off + n) stop

/-- A received frame, FCS included, parsed: eight headers at most, and its FCS last. -/
def parseFrame (c : ParseCtx) (b : List Byte) : Parsed :=
  let n := b.length - 4
  if b.length < 18 then .dropped .length
  else match parseChain 8 c (b.take n) none .eth 0 n with
    | .dropped r => .dropped r
    | p => if leAt b n 4 = crc32 (b.take n) then p else .dropped .checksum

/-- The counter of a drop reason (Table 15-12). -/
def Drop.counter : Drop → Nat
  | .depth => Counter.dropDepth
  | .length => Counter.dropLength
  | .unsupported => Counter.dropUnsupported
  | .checksum => Counter.dropChecksum
  | .fragment => Counter.dropFragment
  | .noMatch => Counter.dropNoMatch

/-! ### Answers for local GIDs (R491) -/

/-- The port's MAC address (R490). -/
def Dev.portMac (d : Dev) (port : Nat) : List Byte := beBytes 6 (d.boot.fuses.macs.getD port 0)

/-- Local GIDs in force on a port. -/
def Dev.localGids (d : Dev) (port : Nat) : List (List Byte) :=
  ((d.haul.reservoirs.filter (fun p => p.2.port == port)).map (fun p => p.2.localGid)) ++
  ((d.haul.peers.filter (fun p => p.2.port == port)).map (fun p => p.2.localGid))

/-- The IPv4-mapped GID of an IPv4 address. -/
def mappedGid (a : List Byte) : List Byte := zeros 10 ++ [0xFF, 0xFF] ++ a

/-- A frame filled to 60 bytes, with its FCS. -/
def sealFrame (b : List Byte) : List Byte :=
  let b := b ++ zeros (60 - b.length)
  b ++ leBytes 4 (crc32 b)

/-- The bytes of a frame between its addresses and the EtherType at `off - 2`: its tags. -/
def frameTags (b : List Byte) (off : Nat) : List Byte := bytesAt b 12 (off - 14)

/-- The answer to the ARP packet at `off` of a frame, if it asks for a local GID (R491). -/
def Dev.answerArp (d : Dev) (port : Nat) (b : List Byte) (off : Nat) : Dev :=
  let target := bytesAt b (off + 24) 4
  if b.length < off + 28 || bytesAt b off 8 != [0, 1, 8, 0, 6, 4, 0, 1] || !(d.localGids port).contains (mappedGid target) then d
  else
    let asker := bytesAt b (off + 8) 6
    let mac := d.portMac port
    d.emit (.ethFrame port (sealFrame (asker ++ mac ++ frameTags b off ++ [8, 6, 0, 1, 8, 0, 6, 4, 0, 2] ++ mac ++ target ++ asker ++ bytesAt b (off + 14) 4)))

/-- The answer to the Neighbor Solicitation of a frame, if it asks for a local GID (R491): a Neighbor Advertisement with SOLICITED and OVERRIDE. -/
def Dev.answerSolicit (d : Dev) (port : Nat) (b : List Byte) (ip off stop : Nat) : Dev :=
  let target := bytesAt b (off + 8) 16
  let n := stop - off
  let good := fold16 (sum16 (bytesAt b (ip + 8) 32) + 58 + n + sum16 (bytesAt b off n)) == 65535 && bytesAt b (ip + 7) 1 == [0xFF] && bytesAt b (off + 1) 1 == [0]
  if n < 24 || !good || !(d.localGids port).contains target then d
  else
    let mac := d.portMac port
    let src := bytesAt b (ip + 8) 16
    let unnamed := allZero src
    let dst : List Byte := if unnamed then [0xFF, 2] ++ zeros 13 ++ [1] else src
    let msg := fun (sum : List Byte) => [136, 0] ++ sum ++ [if unnamed then 0x20 else 0x60, 0, 0, 0] ++ target ++ [2, 1] ++ mac
    let sum := 65535 - fold16 (sum16 (target ++ dst) + 58 + 32 + sum16 (msg [0, 0]))
    let head : List Byte := [0x60, 0, 0, 0, 0, 32, 58, 0xFF] ++ target ++ dst
    d.emit (.ethFrame port (sealFrame (bytesAt b 6 6 ++ mac ++ frameTags b ip ++ [0x86, 0xDD] ++ head ++ msg (beBytes 2 sum))))

/-! ### Matching, ageing and policing (R525 to R530, R552, R553) -/

/-- Whether a live-ingest stream takes frames of a port, UDP port and VNI. -/
def Stream.takesFrame (st : Stream) (port udp : Nat) (vni : Option Nat) : Bool :=
  match st.ingest with
  | none => false
  | some g => g.matching && g.closing.isEmpty && st.deleting.isNone && g.key.udpPort == udp && bitOf g.key.portMask port &&
      (!g.key.vniMatch || vni == some g.key.vni)

/-- The stream that takes frames of a port, UDP port and VNI: one that names the VNI before one that names none. -/
def Dev.ingestStream (d : Dev) (port udp : Nat) (vni : Option Nat) : Option Nat :=
  let l := d.streams.filter (fun p => p.2.takesFrame port udp vni)
  let named := l.filter (fun p => ((p.2.ingest).map (fun g => g.key.vniMatch)).getD false)
  ((if named.isEmpty then l else named).head?).map Prod.fst

/-- Whether a QP number is a reservoir's or a peer's on a port. -/
def Dev.qpnOn (d : Dev) (port qpn : Nat) : Bool :=
  d.haul.reservoirs.any (fun p => resQpn p.1 == qpn && p.2.port == port) || d.haul.peers.any (fun p => peerQpn p.1 == qpn && p.2.port == port)

/-- The membership of the group that the device is in, or is joining. -/
def Dev.asMember (d : Dev) : Option Membership :=
  match d.group.member with
  | some m => some m
  | none => d.group.joining.map (fun j => j.2.2)

/-- What the parser of a port knows. -/
def Dev.parseCtx (d : Dev) (port : Nat) : ParseCtx :=
  { mac := d.portMac port, streamOf := d.ingestStream port, qpn := d.qpnOn port
    ptp := (d.asMember.map (fun m => m.ptpEn && m.ptpPort == port)).getD false }

/-- The colours of RFC 2698. -/
inductive Colour3 where
  | green | yellow | red
  deriving DecidableEq, Repr

/-- A frame of `n` bytes metered at `now` ns (R552). -/
def Policer.meter (p : Policer) (now n : Nat) : Policer × Colour3 :=
  let dt := match p.last with | some l => now - l | none => 0
  let b := n * 65536
  let tc := min (p.cbsKib * 1024 * 65536) (p.tc + p.cir * dt * 65536 / 1000)
  let tp := min (p.pbsKib * 1024 * 65536) (p.tp + p.pir * dt * 65536 / 1000)
  if tp < b then ({ p with tc := tc, tp := tp, last := some now }, .red)
  else if tc < b then ({ p with tc := tc, tp := tp - b, last := some now }, .yellow)
  else ({ p with tc := tc - b, tp := tp - b, last := some now }, .green)

/-- The colour of a frame of a tenant; green without a policer. -/
def Dev.meterFrame (d : Dev) (t now n : Nat) : Dev × Colour3 :=
  match (AMap.get? d.tenants t).bind Tenant.policer with
  | none => (d, .green)
  | some p =>
    let (p, c) := p.meter now n
    (d.modTenant t (fun x => { x with policer := some p }), c)

/-- Frames of a stream accepted and not yet drawn (R530). -/
def Stream.undrawn (st : Stream) : Nat :=
  st.samples.countP (fun p => (p.2.state == .flight || p.2.isResident) && !st.isDeferred p.1)

/-- A frame accepted: its sequence, its payload in buffers of INGEST, and the ops after op 0 (R530). -/
def Dev.acceptFrame (d : Dev) (sid : Nat) (hdr data : List Byte) (capture arrival at_ : Nat) : Dev :=
  match d.stream? sid with
  | none => d
  | some st => match st.ingest, d.progOfStream st with
    | some g, some p =>
      let seq := g.nextSeq
      let s : Sample := { Sample.make seq d.tick.count with capture := capture }
      let d := d.count Counter.ingestAccepted st.tenant 1
      let d := d.modStream sid (fun x => { x with ingest := some { g with nextSeq := seq + 1 }, samples := AMap.set x.samples seq s })
      let d := d.logRec sid LogKind.frame (leBytes 8 seq ++ leBytes 8 arrival ++ hdr ++ data)
      if ((p.ops[0]?).map OpRec.outMax).getD 0 < data.length then
        (d.skipCorrupt sid seq Reason.outMaxExceeded 0 (Config.failOffset Op.ingestFrame data)).assemble sid
      else
        let (id, d) := d.addItem st.tenant (.sample sid seq 0) 7 0 0 d.tick.count 1 (1, 1) []
        match d.item? id with
        | some i => d.deliver i OwnerClass.ingest sid seq 0 st (Value.ofBytes data) 0 at_
        | none => d
    | _, _ => d

/-- A frame that matches a stream: aged, metered, and accepted or dropped (R529, R530, R552, R553). -/
def Dev.ingestFrame (d : Dev) (sid size : Nat) (hdr data : List Byte) (capture ns : Nat) : Dev :=
  match d.stream? sid with
  | none => d
  | some st =>
    let ptp := d.boundaryPtp.map (fun b => b + ns)
    let bound := d.param ParamId.stalenessUs sid
    let stale := match ptp with | some now => bound != 0 && decide (bound * 1000 < now - capture) | none => false
    if stale then d.count Counter.ingestStale st.tenant 1
    else
      let (d, c) := d.meterFrame st.tenant (d.tick.clockNs + ns) size
      let held := st.undrawn
      let d := if c = .yellow then d.count Counter.policeYellow st.tenant 1 else d
      if c = .red then d.count Counter.policeRed st.tenant 1
      else if c = .yellow && decide (st.depth / 2 ≤ held) then d.count Counter.policeYellowDrop st.tenant 1
      else if st.depth ≤ held then d.count Counter.ingestOverrun st.tenant 1
      else (if ptp.isNone then d.count Counter.ingestUntimed st.tenant 1 else d).acceptFrame sid hdr data capture (ptp.getD 0) ns

/-- A frame arrives on a port, `ns` ns after the boundary of the running tick (R490, R527). -/
def Dev.ingressFrame (d : Dev) (port : Nat) (b : List Byte) (ns : Nat) : Dev :=
  if !d.portUp port || 9216 < b.length then d
  else match parseFrame (d.parseCtx port) b with
    | .dropped r => d.count r.counter 0 1
    | .roce | .ptp => d
    | .arp off => d.answerArp port b off
    | .solicit ip off stop => d.answerSolicit port b ip off stop
    | .ingest sid start stop capture => d.ingestFrame sid b.length (bytesAt b (start - 32) 32) (bytesAt b start (stop - start)) capture ns

/-- INGRESS_FRAME (R527): the frame with its FCS, `ns` ns after the boundary of the running tick. -/
def execIngressFrame (port : Nat) (frame : List Byte) (ns : Nat) (s : State) : Out := s.onRunning (fun d => d.ingressFrame port frame ns)

/-- ARP_REQUEST (R491): the frame with its FCS; one that the parser does not take for ARP has no effect here. -/
def execArpRequest (port : Nat) (frame : List Byte) (s : State) : Out :=
  s.onRunning (fun d => match d.portUp port, parseFrame (d.parseCtx port) frame with
    | true, .arp off => d.answerArp port frame off
    | _, _ => d)

/-- NEIGHBOR_SOLICITATION (R491): the frame with its FCS; one that the parser does not take for a solicitation has no effect here. -/
def execNeighborSolicitation (port : Nat) (frame : List Byte) (s : State) : Out :=
  s.onRunning (fun d => match d.portUp port, parseFrame (d.parseCtx port) frame with
    | true, .solicit ip off stop => d.answerSolicit port frame ip off stop
    | _, _ => d)

/-! ### INGEST_OPEN and INGEST_CLOSE (R525, R526, R532) -/

/-- The match key of a request (Table 15-7). -/
def ingestKey (x : Ctx) : IngestKey :=
  { udpPort := x.get 16 2, vniMatch := bitOf (x.get 18 1) 0, portMask := x.get 19 1 % 16, vni := x.get 20 3 }

/-- Whether an open ingest stream has a match key that clashes with another (R526). -/
def IngestKey.clashes (a b : IngestKey) : Bool :=
  a.udpPort == b.udpPort && a.vniMatch == b.vniMatch && (!a.vniMatch || a.vni == b.vni) && (a.portMask &&& b.portMask) != 0

/-- INGEST_OPEN (R525). -/
def cmdIngestOpen : Cmd :=
  { opcode := 0x0505
    check := fun d x =>
      let t := x.get 6 2
      let slot := x.get 4 1
      let k := ingestKey x
      { lenOk := x.r.len == 24
        rsvOk := decide (x.get 0 4 < 2 ^ 20) && x.rsv 5 1 && decide (t < 1024) && decide (x.get 18 1 < 2) && decide (x.get 19 1 < 16) && x.rsv 23 1 &&
          (k.vniMatch || k.vni == 0)
        field := needs (decide (1 ≤ x.get 8 4 && x.get 8 4 ≤ 4194304) && k.udpPort != 0 && k.udpPort != 4789 && k.udpPort != 4791 && k.udpPort != 6081 &&
          k.portMask != 0) Status.fieldInvalid
        object := firstFail [d.tenantObject x t, d.tenantSlot slot t]
        state := d.ownerEnabled t
        own := firstFail [
          needs (!AMap.has d.streams (x.get 0 4)) Status.streamExists,
          needs (!d.slotLoaded slot || d.slotIngests slot) Status.ingestProgramRequired,
          needs (d.slotLoaded slot) Status.programBusy,
          needs (decide (d.depthSum t + x.get 8 4 ≤ d.windowRoom t)) Status.windowFull,
          needs (d.streams.all (fun p => match p.2.ingest with | some g => p.2.replayOf.isSome || !g.key.clashes k | none => true)) Status.ingestKeyInUse,
          needs (decide (d.streams.countP (fun p => p.2.ingest.isSome && p.2.replayOf.isNone) < 1024)) Status.ingestLimit,
          needs d.chooseHome.isSome Status.noContextSlot,
          needs (d.takeWindow t).isSome Status.noStockpile] }
    run := fun d x _ =>
      let sid := x.get 0 4
      let a := min 10000000 (x.get 12 4)
      let d := d.createStream sid (x.get 6 2) 0xFFFE (x.get 4 1) (x.get 8 4) false
      let d := d.putParam ParamId.stalenessUs sid a
      let d := d.modStream sid (fun s => { s with
        staleness := a, ingest := some { key := ingestKey x, matching := false, nextSeq := 0, closing := [] }
        cmds := [.epochStart d.nextPlanTick 0 0 0 0 false []] })
      { dev := d, payload := leBytes 4 a } }

/-- INGEST_OPEN (R525). -/
def execIngestOpen (w : Window) (r : Request) (s : State) : Out := s.onDoorbell cmdIngestOpen w r

/-- INGEST_CLOSE (R532). -/
def cmdIngestClose : Cmd :=
  { opcode := 0x0506
    ticketed := true
    check := fun d x =>
      let sid := x.get 0 4
      { lenOk := x.r.len == 4
        rsvOk := decide (sid < 2 ^ 20)
        object := d.streamObject x sid
        state := d.streamOwner sid
        own := needs (((d.stream? sid).map (fun st => st.ingest.isSome && st.replayOf.isNone)).getD false) Status.notIngest
        subject := sid }
    run := fun d x n =>
      let sid := x.get 0 4
      { dev := d.modStream sid (fun s => { s with
          ingest := s.ingest.map (fun g => { g with matching := false, closing := g.closing ++ [(x.w, n, d.tick.count)] }) }) } }

/-- INGEST_CLOSE (R532). -/
def execIngestClose (w : Window) (r : Request) (s : State) : Out := s.onDoorbell cmdIngestClose w r

/-- The INGEST_CLOSE commands outstanding on a stream. -/
def Dev.closings (d : Dev) (sid : Nat) : List (Nat × Nat × Nat) := (((d.stream? sid).bind Stream.ingest).map Ingest.closing).getD []

/-- INGEST_CLOSE_DONE: the epoch of a closed stream ends once its frames are decided or taken and its billets handed over; its context is freed and
the tickets complete (R532). -/
def Dev.ingestClosed (d : Dev) (sid : Nat) : Dev :=
  if (d.closings sid).isEmpty then d
  else
    let d := (d.assemble sid).epochComplete sid
    match d.stream? sid with
    | none => d
    | some st =>
      if st.state != .idle || !st.cmds.isEmpty || d.workRuns sid then d
      else
        let cs := d.closings sid
        let d := (if st.log.isSome then d.endLog sid 0 else d).removeStream sid
        cs.foldl (fun d c => d.completeTicket c.1 c.2.1 Status.success 0) d

/-- INGEST_CLOSE_DONE (R532). -/
def execIngestCloseDone (stream : Nat) (s : State) : Out := s.onRunning (fun d => d.ingestClosed stream)

/-- INGEST_CLOSE_DISCARD: 16 ticks after the acceptance, frames whose work is not complete are dropped (R532). -/
def Dev.ingestDiscard (d : Dev) (sid : Nat) : Dev :=
  match (d.closings sid).head?, d.stream? sid with
  | some (_, _, t), some st =>
    if d.tick.count < t + 16 then d
    else
      let late := (st.samples.filter (fun p => p.2.state == .flight || p.2.isResident)).map Prod.fst
      let d := late.foldl (fun d p => d.leaveSample sid p .screened) d
      (d.tick.items.filter (fun i => i.ofStream sid && i.discard && (i.waiting || i.out.isSome))).foldl (fun d i => d.forgetItem i) d |>.assemble sid
  | _, _ => d

/-- INGEST_CLOSE_DISCARD (R532). -/
def execIngestCloseDiscard (stream : Nat) (s : State) : Out := s.onRunning (fun d => d.ingestDiscard stream)

end Sys2Proof.Machine
end

