-- ==== Sys2Proof/Machine/Tenancy.lean ====
section
/-!
DEFINITION. Machine/Tenancy.lean: tenants created, drained, disabled, enabled and deleted; gate lists; functions and their bus mastering (R127 to R131, R143, R536 to R567).
-/
namespace Sys2Proof.Machine

/-! ### TENANT_CREATE (R538) -/

/-- Whether tenant `t` has a function: PF1 serves tenant 0, and VF t every other (R134, R539). -/
def Dev.functionThere (d : Dev) (t : Nat) : Bool := t == 0 || d.hearth.vfs.contains t

/-- The policer that a request asks for, with its buckets full (R538, R552). -/
def policerOf (x : Ctx) : Option Policer :=
  if !bitOf (x.get 2 1) 0 then none
  else
    let cir := clampParam (x.get 8 4) 0 400000 1
    let cbs := clampParam (x.get 16 4) 64 1048576 64
    let pbs := clampParam (x.get 20 4) 64 1048576 64
    some { cir := cir, pir := clampParam (x.get 12 4) cir 400000 1, cbsKib := cbs, pbsKib := pbs, tc := cbs * 1024 * 65536, tp := pbs * 1024 * 65536, last := none }

/-- The four applied values, all 0 without a policer (Table 16-3). -/
def policerBytes : Option Policer → List Byte
  | none => zeros 16
  | some p => leBytes 4 p.cir ++ leBytes 4 p.pir ++ leBytes 4 p.cbsKib ++ leBytes 4 p.pbsKib

/-- Whether a counter is of tenant scope and of object `t`. -/
def tenantCounter (t id i : Nat) : Bool := i == t && (counterScope id == some .tenant || counterScope id == some .tenantOrReservoir)

/-- A tenant that comes into being: its counters read 0, its parameters are the configuration's or the defaults, and its buckets are full (Table 16-2, R549). -/
def Dev.createTenant (d : Dev) (t : Nat) (p : Option Policer) : Dev :=
  let d := (d.clearCounters (tenantCounter t)).initParams .tenant t
  let cbs : Int := d.param ParamId.egressCbs t * 1024
  let pbs : Int := d.param ParamId.egressPbs t * 1024
  { d with tenants := AMap.set d.tenants t (Tenant.created p (if d.param ParamId.egressCir t = 0 then 0 else cbs) pbs) }

/-- TENANT_CREATE (R538). -/
def cmdTenantCreate : Cmd :=
  { opcode := 0x0201
    admin := true
    check := fun d x =>
      let t := x.get 0 2
      { lenOk := x.r.len == 24
        rsvOk := decide (t < 1024) && decide (x.get 2 1 < 2) && x.rsv 3 5 && (bitOf (x.get 2 1) 0 || x.rsv 8 16)
        own := firstFail [needs (!AMap.has d.tenants t) Status.tenantExists, needs (d.functionThere t) Status.functionAbsent] }
    run := fun d x _ => { dev := d.createTenant (x.get 0 2) (policerOf x), payload := policerBytes (policerOf x) } }

/-- TENANT_CREATE (R538). -/
def execTenantCreate (w : Window) (r : Request) (s : State) : Out := s.onDoorbell cmdTenantCreate w r

/-! ### Step 1 of a drain (R560, R562) -/

/-- An append ended by a drain: its extent is freed (R562). -/
def Dev.dropAppend (d : Dev) (w n : Nat) : Dev :=
  match d.face.extents.find? (fun p => p.2.append == some (w, n)) with
  | none => d
  | some (e, x) =>
    let d : Dev := { d with face := { d.face with
      extents := AMap.del d.face.extents e
      datasets := AMap.mod d.face.datasets x.dataset (fun t => { t with extents := t.extents.filter (fun y => y != e) }) } }
    d.journal 0 e

/-- The program load or unload of a ticket ended: a slot that was LOADING is EMPTY, and one that was UNLOADING is LOADED. -/
def Dev.dropProgTicket (d : Dev) (w n : Nat) : Dev :=
  match d.progOf w n with
  | none => d
  | some (slot, p) =>
    if p.state = .loading then
      let d := d.freePages PageKind.program slot
      { d with progs := AMap.del d.progs slot }
    else { d with progs := AMap.set d.progs slot { p with state := .loaded, ticket := none } }

/-- What the command of a ticket had begun, ended by a drain. -/
def Dev.endCommand (d : Dev) (w n : Nat) : Dev :=
  let d := (d.dropAppend w n).dropProgTicket w n
  let d := d.vocabs.foldl (fun d p => match p.2.load with
    | some (a, b, _) => if a = w && b = n then d.vocabFail p.1 w n Status.drainAborted else d
    | none => d) d
  let d := match d.buildOf w n with
    | some (k, _, b) => if b.built then d else if b.delete then d.modTable k (fun x => { x with build := none }) else d.dropBuild k b
    | none => d
  let datasets : AMap Dataset := AMap.mapKV (fun _ (t : Dataset) => { t with
    sealing := match t.sealing with | some (a, b, _, _) => if a = w && b = n then none else t.sealing | none => none }) d.face.datasets
  let logs : AMap Log := AMap.mapKV (fun _ (l : Log) => { l with
    export_ := if l.export_ = some (w, n) then none else l.export_, delete := if l.delete = some (w, n) then none else l.delete }) d.group.logs
  let streams : AMap Stream := AMap.mapKV (fun _ (s : Stream) => { s with
    deleting := match s.deleting with | some (a, b, _) => if a = w && b = n then none else s.deleting | none => none
    ingest := s.ingest.map (fun g => { g with closing := g.closing.filter (fun c => !(c.1 == w && c.2.1 == n)) }) }) d.streams
  { d with face := { d.face with datasets := datasets }, group := { d.group with logs := logs }, streams := streams }

/-- A ticket of the window of a tenant that drains: an append whose extent is durable ends with SUCCESS, every other with DRAIN_ABORTED (R560, R562). -/
def Dev.abortTicket (d : Dev) (w : Nat) (t : Ticket) : Dev :=
  let d := d.appendDurable w t.num
  match d.ticket? w t.num with
  | none => d
  | some _ => (d.completeTicket w t.num Status.drainAborted 0).endCommand w t.num

/-- A stream of a tenant that drains: DRAINING, with no command to come and its matching stopped; a recording of it ends (R560, R563, R579). -/
def Dev.drainStream (d : Dev) (sid : Nat) : Dev :=
  let d := d.endLog sid 3
  let d : Dev := { d with group := { d.group with replays := d.group.replays.map (fun r => if r.stream = sid then { r with aborted := true } else r) } }
  d.writeStream sid (fun s => { s with state := .draining, cmds := [], ingest := s.ingest.map (fun g => { g with matching := false }) })

/-- Step 1 of a drain: the window's tickets end, streams become DRAINING and reservoirs DETACHING. The answer counts the reservoirs. -/
def Dev.shutTenant (d : Dev) (t : Nat) : Dev × Nat :=
  let d := (d.win t).tickets.foldl (fun d k => d.abortTicket t k) d
  let d := ((d.streamsOf t).map Prod.fst).foldl Dev.drainStream d
  let keys := (d.haul.reservoirs.map Prod.fst).filter (fun k => resTenant k == t)
  (keys.foldl (fun d k => d.startDetach k none) d, keys.length)

/-- A trigger of a drain reaches a tenant: it starts the drain of an ENABLED tenant, joins one that runs, or, for TENANT_DELETE of a DISABLED tenant,
starts the removal (Table 16-2, R564). Triggers are numbered as in R567. -/
def Dev.startDrain (d : Dev) (t trigger : Nat) (tickets : List (Nat × Nat × Nat)) : Dev :=
  match AMap.get? d.tenants t with
  | none => d
  | some x =>
    let next := if trigger = 2 then TenantState.deleting else TenantState.draining
    match x.state, x.drain with
    | .enabled, _ =>
      let (d, n) := d.shutTenant t
      d.modTenant t (fun x => { x with
        state := next, drain := some { trigger := trigger, tickets := tickets, b0 := some (d.tick.count + 1), reservoirs := n, total := none, removing := false } })
    | .draining, some y => d.modTenant t (fun x => { x with
        state := if trigger = 2 then .deleting else .draining, drain := some { y with tickets := y.tickets ++ tickets } })
    | .deleting, some y => d.modTenant t (fun x => { x with drain := some { y with tickets := y.tickets ++ tickets } })
    | .disabled, _ =>
      if trigger = 2 then
        d.modTenant t (fun x => { x with
          state := .deleting, drain := some { trigger := 2, tickets := tickets, b0 := none, reservoirs := 0, total := none, removing := true } })
      else d
    | _, none => d

/-- Whether a tenant is in one of two states. -/
def Dev.tenantIn (d : Dev) (t : Nat) (a b : TenantState) : Bool :=
  ((AMap.get? d.tenants t).map (fun x => x.state == a || x.state == b)).getD false

/-- Checks that TENANT_DELETE, FUNCTION_DISABLE and FUNCTION_ENABLE share (R539). -/
def Dev.tenantChk (d : Dev) (x : Ctx) (own : Option Status) : Chk :=
  let t := x.get 0 2
  { lenOk := x.r.len == 8
    rsvOk := decide (t < 1024) && x.rsv 2 6
    object := needs (AMap.has d.tenants t) Status.noSuchTenant
    own := own
    subject := t }

/-- FUNCTION_DISABLE (R539). -/
def cmdFunctionDisable : Cmd :=
  { opcode := 0x0203
    admin := true
    ticketed := true
    check := fun d x =>
      let t := x.get 0 2
      d.tenantChk x (firstFail [needs (!d.operationBusy 0x0203 t) Status.operationBusy, needs (!d.tenantIn t .disabled .deleting) Status.tenantNotEnabled])
    run := fun d x n => { dev := d.startDrain (x.get 0 2) 1 [(x.w, n, 0x0203)] } }

/-- FUNCTION_DISABLE (R539). -/
def execFunctionDisable (w : Window) (r : Request) (s : State) : Out := s.onDoorbell cmdFunctionDisable w r

/-- TENANT_DELETE (R539). -/
def cmdTenantDelete : Cmd :=
  { opcode := 0x0202
    admin := true
    ticketed := true
    check := fun d x => d.tenantChk x (needs (!d.operationBusy 0x0202 (x.get 0 2)) Status.operationBusy)
    run := fun d x n => { dev := d.startDrain (x.get 0 2) 2 [(x.w, n, 0x0202)] } }

/-- TENANT_DELETE (R539). -/
def execTenantDelete (w : Window) (r : Request) (s : State) : Out := s.onDoorbell cmdTenantDelete w r

/-- FUNCTION_ENABLE (R539). -/
def cmdFunctionEnable : Cmd :=
  { opcode := 0x0204
    admin := true
    check := fun d x =>
      let t := x.get 0 2
      d.tenantChk x (firstFail [needs (d.functionThere t) Status.functionAbsent, needs (!d.tenantIn t .draining .deleting) Status.tenantDraining,
        needs (!d.tenantIn t .enabled .enabled) Status.tenantEnabled])
    run := fun d x _ =>
      let t := x.get 0 2
      { dev := (d.modTenant t (fun y => { y with state := .enabled })).modWin t (fun y => { y with state := .idle }) } }

/-- The negotiated versions after a FUNCTION_ENABLE in window `w`: that of the tenant's window is forgotten (R143). -/
def enableHdr (hdr : AMap Nat) (d : Dev) (w : Nat) (r : Request) : AMap Nat :=
  if cmdFunctionEnable.accepts d w (AMap.getD hdr w 0) r then AMap.del hdr (leAt r.payload 0 2) else hdr

/-- FUNCTION_ENABLE (R539). -/
def execFunctionEnable (w : Window) (r : Request) (s : State) : Out :=
  .next { s with hdr := enableHdr s.hdr s.dev w.num r, dev := cmdFunctionEnable.doorbell s.dev w.num (s.version w.num) r }

/-- FUNCTION_LEVEL_RESET: a Function Level Reset of a VF, or of PF1, drains the tenant of that function; PF1 is tenant 0's (R143). -/
def execFunctionLevelReset (w : Window) (s : State) : Out := s.onRunning (fun d => d.startDrain (if w.num = adminWin then 0 else w.num) 3 [])

/-- VF_REMOVAL (R560). -/
def execVfRemoval (vf : Nat) (s : State) : Out :=
  s.onRunning (fun d => ({ d with hearth := { d.hearth with vfs := d.hearth.vfs.filter (fun v => v != vf) } }).startDrain vf 4 [])

/-- SRIOV_VF_ENABLE (R539). -/
def execSriovVfEnable (vf : Nat) (s : State) : Out :=
  s.onRunning (fun d => { d with hearth := { d.hearth with vfs := if d.hearth.vfs.contains vf then d.hearth.vfs else insertByKey id vf d.hearth.vfs } })

/-- BUS_MASTER_ENABLE_CHANGE: events staged while a function could not master the bus are posted when it can again (R541). -/
def Dev.setBusMaster (d : Dev) (fn : Nat) (on : Bool) : Dev :=
  let others := d.hearth.busMaster.filter (fun f => f != fn)
  let d : Dev := { d with hearth := { d.hearth with busMaster := if on then insertByKey id fn others else others } }
  if !on then d
  else if fn = adminWin then (d.flushStaged adminWin).flushStaged 0
  else if fn = 0 then d
  else d.flushStaged fn

/-- BUS_MASTER_ENABLE_CHANGE (R541). -/
def execBusMasterEnableChange (fn : Nat) (enabled : Bool) (s : State) : Out := s.onRunning (fun d => d.setBusMaster fn enabled)

/-! ### Steps 2 to 5 of a drain (R560) -/

/-- Whether an item is a tenant's. -/
def Item.ofTenant (i : Item) (t : Nat) : Bool := i.queue == t

/-- Step 2: work that does not run is cancelled, and deferred samples with it. -/
def Dev.drainCancel (d : Dev) (t : Nat) : Dev :=
  let mine := d.tick.items.filter (fun i => i.ofTenant t)
  let d := mine.foldl (fun d i => if i.phase = .running && i.out.isNone then d.modItem i.id (fun j => { j with discard := true }) else d.forgetItem i) d
  ((d.streamsOf t).map Prod.fst).foldl (fun d sid => d.writeStream sid (fun s => { s with deferred := [] })) d

/-- Step 3: items still running are stopped, media operations aside, and what the streams hold is DROPped. -/
def Dev.drainStop (d : Dev) (t : Nat) : Dev :=
  let d := (d.tick.items.filter (fun i => i.ofTenant t && i.cls != 0)).foldl (fun d i => d.forgetItem i) d
  ((d.streamsOf t).map Prod.fst).foldl Dev.dropWork d

/-- Step 4: the queue pairs of the tenant are destroyed, those that still hold writes in error (R510). -/
def Dev.destroyQp (d : Dev) (key : Nat) : Dev :=
  match d.res? key with
  | none => d
  | some r =>
    let d := d.loseBillets key
    let d := match d.boundStream key with
      | some (sid, _) => d.setMap sid (resNum key) false
      | none => d
    let d : Dev := { d with haul := { d.haul with reservoirs := AMap.del d.haul.reservoirs key } }
    r.detach.foldl (fun d t => d.completeTicket t.1 t.2 Status.success 0) d

/-- Every queue pair of a tenant destroyed. -/
def Dev.drainQps (d : Dev) (t : Nat) : Dev :=
  ((d.haul.reservoirs.map Prod.fst).filter (fun k => resTenant k == t)).foldl Dev.destroyQp d

/-- Step 5: the audit snapshot of the tenant, then every buffer of it freed (R131). -/
def Dev.drainAudit (d : Dev) (t : Nat) : Dev :=
  let a := d.snapshot { scope := some t, ticket := none, snapTick := none, entries := [] }
  let d : Dev := { d with tongs := { d.tongs with audits := d.tongs.audits ++ [a] } }
  ((d.tongs.bufs.filter (fun p => !p.2.freed && p.2.ownerTenant == t)).map Prod.fst).foldl Dev.freeBuf d

/-- The audit of a tenant's drain, once its snapshot is taken. -/
def Dev.drainAudit? (d : Dev) (t : Nat) : Option Audit := d.tongs.audits.find? (fun a => a.ticket.isNone && a.scope == some t)

/-- The steps of a tenant's drain that the running tick has reached (Table 16-7). -/
def Dev.drainStep (d : Dev) (t : Nat) : Dev :=
  match (AMap.get? d.tenants t).bind Tenant.drain with
  | none => d
  | some y => match y.b0 with
    | none => d
    | some b =>
      let n := d.tick.count
      if y.removing || (d.drainAudit? t).isSome then d
      else
        let d := if b ≤ n then d.drainCancel t else d
        let d := if b + 2 ≤ n then d.drainStop t else d
        let d := if b + 3 ≤ n then d.drainQps t else d
        if b + 4 ≤ n then d.drainAudit t else d

/-- DRAIN_TICK_STEP (R560). -/
def execDrainTickStep (tenant : Nat) (s : State) : Out := s.onRunning (fun d => d.drainStep tenant)

/-! ### The end of a drain (R560, R563, R567) -/

/-- A drained stream: IDLE, its epoch over without EPOCH_COMPLETE, its pins and partitions gone and its run entries due a sweep (R560, R563). -/
def Dev.drainedStream (d : Dev) (sid : Nat) : Dev :=
  match d.stream? sid with
  | none => d
  | some st => (d.screenEpochEnd sid st).writeStream sid (fun s => { s with state := .idle, ended := true, window := [] })

/-- Whether the drain of a tenant runs; that of a tenant whose removal is under way is over. -/
def Tenant.drains (x : Tenant) : Bool := (x.drain.map (fun y => !y.removing)).getD false

/-- The end of a halt: with every function drained the device posts DEVICE_HALTED and waits for a reset (R81, R82). -/
def Dev.finishHalt (d : Dev) : Dev :=
  if d.hearth.halting && d.hearth.state != .halted && d.tenants.all (fun p => !p.2.drains) then
    let d := d.event adminWin EventCode.deviceHalted 0 []
    { d with hearth := { d.hearth with state := .halted } }
  else d

/-- Steps 6 and 7: the leak, if there is one; the streams; FUNCTION_DRAINED; and the tickets of FUNCTION_DISABLE. A DELETING tenant goes on to its removal. -/
def Dev.drainComplete (d : Dev) (t : Nat) : Dev :=
  match d.drainAudit? t, (AMap.get? d.tenants t).bind Tenant.drain with
  | some a, some y =>
    let d : Dev := { d with tongs := { d.tongs with audits := d.tongs.audits.filter (fun b => b != a) } }
    let d := d.leakEvent t a
    let d := ((d.streamsOf t).map Prod.fst).foldl Dev.drainedStream d
    let d := d.event adminWin EventCode.functionDrained t
      [(20, 1, y.trigger), (24, 8, y.b0.getD 0), (32, 4, y.reservoirs), (36, 4, a.entries.length)]
    let d := (y.tickets.filter (fun k => k.2.2 == 0x0203)).foldl (fun d k => d.completeTicket k.1 k.2.1 Status.success 0) d
    let rest := y.tickets.filter (fun k => k.2.2 != 0x0203)
    ((d.modTenant t (fun x =>
      if x.state = .deleting then { x with drain := some { y with tickets := rest, total := some a.entries.length, removing := true } }
      else { x with state := .disabled, drain := none })).count Counter.drainRun 0 1).finishHalt
  | _, _ => d

/-- TONGS_AUDIT_DONE: the audit of a command, or that of a drain (R128, R560). -/
def execTongsAuditDone (audit : AuditRef) (s : State) : Out :=
  s.onRunning (fun d => match audit with
    | .command w n => d.auditDone w.num n
    | .drain t => d.drainComplete t)

/-! ### Removal (R565) -/

/-- A stream deleted with its tenant, and the tickets that awaited its end completed. -/
def Dev.removeTenantStream (d : Dev) (sid : Nat) : Dev :=
  match d.stream? sid with
  | none => d
  | some st =>
    let d := d.removeStream sid
    let d := ((st.ingest.map Ingest.closing).getD []).foldl (fun d c => d.completeTicket c.1 c.2.1 Status.success 0) d
    match st.deleting with
    | some (w, n, _) => d.completeTicket w n Status.success 0
    | none => d

/-- The programs of a tenant unloaded: loads and unloads from the administrative window end with them. -/
def Dev.removePrograms (d : Dev) (t : Nat) : Dev :=
  (d.progs.filter (fun p => p.2.tenant == t)).foldl (fun d p =>
    let d := d.freePages PageKind.program p.1
    let d : Dev := { d with progs := AMap.del d.progs p.1 }
    match p.2.ticket with
    | some (w, n) =>
      if p.2.state = .loading then d.completeReport w n Status.loadInterrupted (loadReport Status.loadInterrupted p.1 wholeProgram p.2)
      else d.completeTicket w n Status.success 0
    | none => d) d

/-- The Screen tables of a tenant deleted, with their generations, builds and sweeps. -/
def Dev.removeTables (d : Dev) (t : Nat) : Dev :=
  (d.tablesOf t).foldl (fun d p =>
    let gens := p.2.current.toList ++ p.2.retired ++ (p.2.build.map Build.gen).toList
    let d := gens.foldl (fun d g => d.freePages PageKind.screen (genOwner p.1 g.num)) d
    let d : Dev := { d with screen := { d.screen with tables := AMap.del d.screen.tables p.1, sweeps := d.screen.sweeps.filter (fun s => s.table != p.1) } }
    match p.2.build with
    | some b => d.completeTicket b.ticket.1 b.ticket.2 (if b.delete then Status.success else Status.buildInterrupted) 0
    | none => d) d

/-- The vocabulary slots of a tenant emptied. -/
def Dev.removeVocabs (d : Dev) (t : Nat) : Dev :=
  (d.vocabs.filter (fun p => p.2.tenant == t)).foldl (fun d p =>
    let d := (d.freePages PageKind.vocab (vocabOwner p.1 false)).freePages PageKind.vocab (vocabOwner p.1 true)
    let d : Dev := { d with vocabs := AMap.del d.vocabs p.1 }
    match p.2.load with
    | some (w, n, img) => d.completeTicket w n (if img.isSome then Status.vocabInterrupted else Status.success) 0
    | none => d) d

/-- Whether a dataset of tenant `t` has an append or a seal outstanding. -/
def Dev.datasetsBusy (d : Dev) (t : Nat) : Bool := d.face.datasets.any (fun p => p.2.tenant == t && (p.2.sealing.isSome || d.appendOutstanding p.1))

/-- The removal of a DELETING tenant whose drain is over (R565); it waits for appends and seals of the administrative window, which run on (R562). -/
def Dev.removeTenant (d : Dev) (t : Nat) : Dev :=
  match (AMap.get? d.tenants t).bind Tenant.drain with
  | none => d
  | some y =>
    if !y.removing || d.datasetsBusy t then d
    else
      let d := ((d.streamsOf t).map Prod.fst).foldl Dev.removeTenantStream d
      let d := ((d.removePrograms t).removeTables t).removeVocabs t
      let d := d.freePages PageKind.window t
      let d := ((d.face.datasets.filter (fun p => p.2.tenant == t)).map Prod.fst).foldl Dev.discardDataset d
      let d := (paramsOf .tenant).foldl (fun d p => d.dropParam p.id t) d
      let d : Dev := { d with tenants := AMap.del d.tenants t }
      y.tickets.foldl (fun d k => d.completeTicket k.1 k.2.1 Status.success 0) d

/-- TENANT_REMOVAL_DONE (R565). -/
def execTenantRemovalDone (tenant : Nat) (s : State) : Out := s.onRunning (fun d => d.removeTenant tenant)

/-! ### Gate lists (R554 to R556) -/

/-- The entries of a request: duration and classes open. -/
def gateEntries (x : Ctx) : List (Nat × Nat) := (List.range (x.get 2 1)).map (fun k => (x.get (16 + 4 * k) 2, x.get (18 + 4 * k) 1))

/-- GATE_LIST_SET (R554). -/
def cmdGateListSet : Cmd :=
  { opcode := 0x0205
    since := 0x0201
    admin := true
    check := fun d x =>
      let n := x.get 2 1
      { lenOk := x.r.len == 16 + 4 * n
        rsvOk := decide (x.get 0 2 < 1024) && decide (x.get 3 1 < 2) && x.rsv 4 4 &&
          (List.range n).all (fun k => decide (x.get (18 + 4 * k) 1 < 32) && x.rsv (19 + 4 * k) 1)
        field := needs (decide (n ≤ 64) && (gateEntries x).all (fun e => e.1 != 0)) Status.fieldInvalid
        object := needs (AMap.has d.tenants (x.get 0 2)) Status.noSuchTenant }
    run := fun d x _ =>
      let a := clampParam (x.get 8 8) (d.tick.count + 4) (d.tick.count + 2 ^ 32) 1
      let g : GateList := { start := a, cycle := bitOf (x.get 3 1) 0, entries := gateEntries x }
      { dev := d.modTenant (x.get 0 2) (fun t => { t with gatesPending := some g })
        payload := leBytes 8 a ++ leBytes 8 (sumNat (g.entries.map Prod.fst)) } }

/-- GATE_LIST_SET (R554). -/
def execGateListSet (w : Window) (r : Request) (s : State) : Out := s.onDoorbell cmdGateListSet w r

/-- A pending gate list whose START_TICK has come takes the place of the one in force; a list of no entries clears it (R555). -/
def Dev.gatesDue (d : Dev) (t : Nat) : Dev :=
  match (AMap.get? d.tenants t).bind Tenant.gatesPending with
  | none => d
  | some g =>
    if d.tick.count < g.start then d
    else d.modTenant t (fun x => { x with gates := if g.entries.isEmpty then none else some g, gatesPending := none })

/-- GATE_LIST_TAKES_EFFECT (R555). -/
def execGateListTakesEffect (tenant : Nat) (s : State) : Out := s.onRunning (fun d => d.gatesDue tenant)

/-- The first entry whose running sum of durations exceeds an offset. -/
def gateAt (o : Nat) : List (Nat × Nat) → Option Nat
  | [] => none
  | (n, open_) :: r => if o < n then some open_ else gateAt (o - n) r

/-- The classes open under a list for tick `n` (R555). -/
def GateList.openAt (g : GateList) (n : Nat) : Nat :=
  let total := sumNat (g.entries.map Prod.fst)
  let o := n - g.start
  if n < g.start || total = 0 then 31 else (gateAt (if g.cycle then o % total else o) g.entries).getD 31

/-- The classes open to a tenant in the plan of tick `n`: every gate is open to the queues of no tenant. -/
def Dev.gatesFor (d : Dev) (t n : Nat) : Nat :=
  match AMap.get? d.tenants t with
  | none => 31
  | some x =>
    let g := match x.gatesPending with
      | some p => if p.start ≤ n then some p else x.gates
      | none => x.gates
    match g with
    | none => 31
    | some g => g.openAt n

end Sys2Proof.Machine
end

