-- ==== Sys2Proof/Machine/Plan.lean ====
section
/-!
DEFINITION. Machine/Plan.lean: the plan of the next tick, frozen before its boundary: charges, fair order, placement, heats, and egress
(R20 to R28, R241, R376 to R383, R389, R522, R541 to R556, R612, R619).
-/
namespace Sys2Proof.Machine

/-! ### The timelines that a plan fills -/

/-- A heat of the plan (R381, R383): its region, the kind of its items, the ring's time and the coefficient in ns, the end of the carried heat that it
follows, and the items of each group. -/
structure Heat where
  num : Nat
  region : Nat
  kind : Nat
  ring : Nat
  cost : Nat
  after : Nat
  groups : List (List Nat × List Nat)
  deriving DecidableEq, Repr

/-- A plan being filled: the tick, its period and admission window in ns, the ladder step, the time taken on each unit, the heats, the queues held in a
domain, and the egress left in bytes. -/
structure Filling where
  tick : Nat
  period : Nat
  window : Nat
  step : Nat
  loads : AMap Nat
  heats : List Heat
  nextHeat : Nat
  blocked : List (Nat × Nat)
  egress : Nat
  deriving DecidableEq, Repr

/-- The time taken on a unit. -/
def Filling.load (f : Filling) (c : UnitClass) (u : Nat) : Nat := AMap.getD f.loads (unitKey c u) 0

/-- Time taken on a unit. -/
def Filling.charge (f : Filling) (c : UnitClass) (u ns : Nat) : Filling := { f with loads := AMap.set f.loads (unitKey c u) (f.load c u + ns) }

/-- Fairness domains (R542): lanes, cells, Hammers, committed and excess egress, and each die. -/
def laneDomain : Nat := 0
def cellDomain : Nat := 1
def hammerDomain : Nat := 2
def committedDomain : Nat := 3
def excessDomain : Nat := 4
def dieDomain (n : Nat) : Nat := 16 + n

/-- The period of the tick that the plan is for (R45). -/
def Dev.planPeriodUs (d : Dev) (t : Nat) : Nat :=
  match d.tick.change with
  | some (p, at_) => if at_ ≤ t then p else d.tick.periodUs
  | none => d.tick.periodUs

/-- An empty filling of the plan of tick `t` (R21). -/
def Dev.emptyFilling (d : Dev) (t : Nat) : Filling :=
  let us := d.planPeriodUs t
  let ceiling := d.planParam t ParamId.admitCeilingPct 0
  { tick := t, period := us * 1000, window := us * 1000 * ceiling / 100, step := d.bellows.nextStep.getD d.bellows.step, loads := [], heats := [], nextHeat := 1,
    blocked := [], egress := d.egressMbps * us * ceiling / 100 }

/-! ### Charges for work that may cross the boundary (R28) -/

/-- The charge of an item that may cross the boundary. -/
def Dev.chargeOf (d : Dev) (i : Item) : Nat :=
  if i.phase = .running then
    let mates := if i.cls = 2 then d.tick.items.countP (fun j => j.cls == 2 && j.phase == .running && j.units == i.units && j.planTick == i.planTick && j.heat == i.heat) else 1
    max 1000 (i.cost - (i.ran + (d.periodNs - i.startAt)) / max 1 mates)
  else max 1000 (i.planEnd - max i.planStart ((d.tick.count + 1 - i.planTick) * d.periodNs))

/-- Whether a plan charges an item that is not complete: items of the planned classes, the egress pool having no carries. -/
def Item.carries (i : Item) : Bool := i.placed && decide (i.cls ≤ 3)

/-- Every item that may cross the boundary charged on the units it holds, ahead of all new work. -/
def Dev.chargeCarries (d : Dev) (f : Filling) : Filling × Dev :=
  let cs := (d.tick.items.filter Item.carries).map (fun i => (i.id, d.chargeOf i))
  let f := (d.tick.items.filter Item.carries).foldl (fun f i => i.units.foldl (fun f u => f.charge (d.itemUnit i) u (d.chargeOf i)) f) f
  (f, d.mapItems (fun i => { i with charged := ((cs.find? (fun c => c.1 == i.id)).map Prod.snd).getD 0 }))

/-! ### Tags (R543 to R546) -/

/-- The weight of a queue (R542, R543). -/
def Dev.queueWeight (d : Dev) (t q : Nat) : Nat := if q = storageQueue then 64 else max 1 (d.planParam t ParamId.tenantWeight q)

/-- A domain. -/
def Dev.domain (d : Dev) (k : Nat) : Domain := AMap.getD d.tick.domains k { v := 0, last := [] }

/-- A domain changed. -/
def Dev.modDomain (d : Dev) (k : Nat) (f : Domain → Domain) : Dev := { d with tick := { d.tick with domains := AMap.set d.tick.domains k (f (d.domain k)) } }

/-- A cost scaled by a weight. -/
def scaledCost (cost w : Nat) : Nat := ceilDiv (cost * 65536) (max 1 w)

/-- The last finish tag of a queue in a domain. -/
def Domain.lastOf (x : Domain) (q : Nat) : Nat := AMap.getD x.last q 0

/-- An item tagged in a domain, once (R543). -/
def Dev.tagItem (d : Dev) (t id k cost : Nat) : Dev :=
  match d.item? id with
  | none => d
  | some i =>
    if i.tags.any (fun g => g.domain == k) then d
    else
      let s := max (d.domain k).v ((d.domain k).lastOf i.queue)
      let f := s + scaledCost cost (d.queueWeight t i.queue)
      (d.modDomain k (fun x => { x with last := AMap.set x.last i.queue f })).modItem id (fun i => { i with
        tags := i.tags ++ [{ domain := k, cost := cost, start := s, finish := f : Tag }] })

/-- A cost added to the last finish tag of a queue: of a carry, or of a re-issued item that is placed (R544). -/
def Dev.addTag (d : Dev) (t q k cost : Nat) : Dev :=
  d.modDomain k (fun x => { x with last := AMap.set x.last q (x.lastOf q + scaledCost cost (d.queueWeight t q)) })

/-- The domains of an item and its cost in each. -/
def Item.domains (i : Item) : List (Nat × Nat) :=
  if i.cls = 0 then i.dies.map (fun n => (dieDomain n.1, n.2))
  else if i.cls = 1 then [(laneDomain, i.cost)]
  else if i.cls = 2 then [(cellDomain, i.cost)]
  else if i.cls = 3 then [(hammerDomain, i.cost)]
  else []

/-- The finish tag of an item in a domain. -/
def Item.finishIn (i : Item) (k : Nat) : Nat := ((i.tags.find? (fun g => g.domain == k)).map Tag.finish).getD 0

/-- The place of an item in the order of its program's samples: the position of its sample in the draw; items made by the draw itself keep the order of
their making. -/
def Item.place (i : Item) : Nat := match i.job with | .sample _ pos _ => pos | _ => 0

/-- The order within a queue: the earliest due tick, then program order (R23): samples in draw order, and the ops of a sample in theirs. -/
def Item.queueKey (i : Item) : Nat := ((i.due * 2 ^ 64 + i.place) * 65536 + i.op) * 2 ^ 64 + i.order

/-! ### Eligible items -/

/-- Whether a stream takes no new reads, because a reservoir of its dealing set holds 64 closed billets whose slots have not fallen due (R517). -/
def Dev.readsStopped (d : Dev) (st : Stream) : Bool :=
  st.dealing.any (fun r => match d.res? (resKey st.tenant r) with
    | none => false
    | some x => (x.state == .attaching || x.state == .active) && decide (64 + x.due.length ≤ st.closed.countP (fun b => b.res == some r)))

/-- Whether a tenant's work is planned: it is ENABLED, with no drain. -/
def Dev.tenantPlans (d : Dev) (t : Nat) : Bool :=
  match AMap.get? d.tenants t with
  | some x => x.state == .enabled && x.drain.isNone
  | none => false

/-- Whether a stream's work is planned: it is RUNNING, and not being deleted (R482, R484). -/
def Dev.streamPlans (d : Dev) (sid : Nat) : Bool :=
  match d.stream? sid with
  | some st => st.state == .running && st.deleting.isNone && d.tenantPlans st.tenant
  | none => false

/-- Whether an item waits for the plan of tick `t`, gates and shapers aside. -/
def Dev.eligible (d : Dev) (t : Nat) (i : Item) : Bool :=
  i.phase == .held && decide (i.since ≤ t) && !i.discard && decide (i.cls ≤ 4) &&
  (match i.job with
   | .sample sid _ k => d.streamPlans sid && !(k == 0 && ((d.stream? sid).map d.readsStopped).getD false)
   | .pack sid _ _ => d.streamPlans sid
   | .emit key _ => d.tenantPlans (resTenant key) && ((d.res? key).map (fun r => r.state == .active)).getD false
   | .storage _ => true
   | .peerServe _ _ => false)

/-- Whether the gate of an item's class is open (R556). -/
def Dev.gateOpen (d : Dev) (t : Nat) (i : Item) : Bool := bitOf (d.gatesFor i.queue t) i.cls

/-! ### Admission -/

/-- The counter of predicted cost admitted, by class (Table 16-9). -/
def admitCounter (cls : Nat) : Nat :=
  if cls = 0 then Counter.admitMediaNs else if cls = 1 then Counter.admitLaneNs else if cls = 2 then Counter.admitCellNs else Counter.admitHammerNs

/-- An item admitted to the plan: it takes its units and times, its domains take its finish tags as virtual times, and its cost is
counted, but for an item that comes back to be run again (R543, R544). -/
def Dev.admitItem (d : Dev) (f : Filling) (i : Item) (units : List Nat) (start fin : Nat) : Dev :=
  let d := d.modItem i.id (fun i => { i with phase := .admitted, units := units, planStart := start, planEnd := fin, planTick := f.tick })
  let d := i.tags.foldl (fun d g => d.modDomain g.domain (fun x => { x with v := g.finish })) d
  if i.queue < 1024 && decide (i.cls < 4) && i.phase != .reissue then d.count (admitCounter i.cls) i.queue (sumNat (i.domains.map Prod.snd)) else d

/-- Whether the step of the plan keeps the block and the cell of unit `u` (R608, R609). -/
def Dev.stepKeeps (d : Dev) (s : Nat) (c : UnitClass) (u : Nat) : Bool :=
  let g := blockOfUnit c u
  match c with
  | .cell => (d.keptBlocks s (d.regionOfBlock g)).contains (g % d.B) && (d.keptCells s g).contains (u % 16)
  | .lane | .swage | .screen | .block => (d.keptBlocks s (d.regionOfBlock g)).contains (g % d.B)
  | _ => true

/-- Units of a class that the plan can use. -/
def Dev.planUnits (d : Dev) (f : Filling) (c : UnitClass) : List Nat := (d.placeables c).filter (fun u => d.stepKeeps f.step c u)

/-- An item of one unit on a unit that has room for it before the window ends (R22). -/
def Dev.placeOn (d : Dev) (f : Filling) (i : Item) (c : UnitClass) (u : Nat) (probe : Bool) : Option (Filling × Dev) :=
  let s := f.load c u
  if f.window < s + i.cost then none
  else
    let d := if probe then d.takeProbe c u else d
    some (f.charge c u i.cost, (d.admitItem f i [u] s (s + i.cost)).modItem i.id (fun i => { i with probe := probe }))

/-- An item of one unit placed: a demoted unit that is due a probe comes first (R65); else the unit whose timeline ends earliest (R24). The items of a
billet stay on its Hammer while it takes work (R469). -/
def Dev.placeSingle (d : Dev) (f : Filling) (i : Item) : Option (Filling × Dev) :=
  let c := d.itemUnit i
  let all := d.planUnits f c
  let own := if c = .hammer then i.units.filter (fun u => all.contains u) else []
  let probe := if own.isEmpty then (List.range (d.unitCount c)).find? (fun u => d.probeable c u && d.stepKeeps f.step c u) else none
  match probe.bind (fun u => d.placeOn f i c u true) with
  | some r => some r
  | none => match argMin (fun u => f.load c u) (if own.isEmpty then all else own) with
    | none => none
    | some u => d.placeOn f i c u false

/-! ### Heats (R376, R383) -/

/-- A heat's length: the ring's time, or the busiest group's items at the coefficient. -/
def Heat.length (h : Heat) : Nat := max h.ring (maxNat (h.groups.map (fun g => g.2.length)) * h.cost)

/-- The cells of a heat. -/
def Heat.cells (h : Heat) : List Nat := h.groups.flatMap Prod.fst

/-- Whether a heat waits for another before it: of the same chain, or with a cell in common. -/
def Heat.follows (h g : Heat) : Bool := h.region == g.region && (h.kind == g.kind || h.cells.any (fun c => g.cells.contains c))

/-- The start and end of each heat, in order: 2.0 µs after the boundary, or after the carried heat and every heat that it follows (R383). -/
def layHeats (l : List Heat) : List (Heat × Nat × Nat) :=
  l.foldl (fun acc h =>
    let s := (acc.filter (fun x => h.follows x.1)).foldl (fun m x => max m x.2.2) (max 2000 h.after)
    acc ++ [(h, s, s + h.length)]) []

/-- The end of a group's timeline: its carried work, and the items it holds in its heats. -/
def Filling.groupEnd (f : Filling) (g : List Nat) : Nat :=
  let carried := maxNat (g.map (f.load .cell))
  (layHeats f.heats).foldl (fun m x =>
    (x.1.groups.filter (fun y => y.1.any (fun c => g.contains c))).foldl (fun m y => max m (x.2.1 + y.2.length * x.1.cost)) m) carried

/-- The placement entry of an op of a program. -/
def Prog.placeOf (p : Prog) (o : OpRec) : Option Placement := (placements p.placement)[o.placeGroup]?

/-- The groups of a placement on the cells for which `ok` holds (R376, R387), in ascending order of their first cell. -/
def Dev.groupsOf (d : Dev) (pl : Placement) (ok : Nat → Bool) : List (List Nat) :=
  (maskBits pl.regions 8).flatMap (fun r => (List.range d.B).flatMap (fun b => (List.range (16 / max 1 pl.group)).filterMap (fun j =>
    let cells := (List.range pl.group).map (fun x => j * pl.group + x)
    let globals := cells.map (fun x => (r * d.B + b) * 16 + x)
    if cells.all (fun x => bitOf pl.cells x) && globals.all ok then some globals else none)))

/-- The ring's time of a heat of an op, in ns rounded up (R380). -/
def Prog.ringTime (p : Prog) (pl : Placement) : Nat := ceilDiv ((modelHdr ((p.models[pl.model]?).getD [])).tilesLen * 128) (pl.shares * 1000)

/-- An item added to the group of a heat. -/
def Heat.add (h : Heat) (g : List Nat) (id cost : Nat) : Heat :=
  { h with
    cost := max h.cost cost
    groups := if h.groups.any (fun x => x.1 == g) then h.groups.map (fun x => if x.1 = g then (x.1, x.2 ++ [id]) else x) else h.groups ++ [(g, [id])] }

/-- The items that a heat's group holds. -/
def Heat.held (h : Heat) (g : List Nat) : Nat := ((h.groups.find? (fun x => x.1 == g)).map (fun x => x.2.length)).getD 0

/-- The heats with an item of a group added: in the earliest heat of its chain with room, or in a new one (R383). -/
def Filling.joinHeat (f : Filling) (i : Item) (g : List Nat) (region batch ring after : Nat) : Filling :=
  match f.heats.find? (fun h => h.region == region && h.kind == i.kind && decide (h.held g < batch)) with
  | some h => { f with heats := f.heats.map (fun x => if x.num = h.num then x.add g i.id i.cost else x) }
  | none =>
    let h : Heat := { num := f.nextHeat, region := region, kind := i.kind, ring := ring, cost := i.cost, after := after, groups := [(g, [i.id])] }
    { f with heats := f.heats ++ [h], nextHeat := f.nextHeat + 1 }

/-- Whether every heat of a region ends within the window (R383). -/
def Filling.heatsFit (f : Filling) (region : Nat) : Bool := (layHeats f.heats).all (fun x => x.1.region != region || decide (x.2.2 ≤ f.window))

/-- An Anvil item on a group, if its heats still fit. -/
def Dev.joinGroup (d : Dev) (f : Filling) (i : Item) (p : Prog) (pl : Placement) (g : List Nat) (probe : Bool) : Option (Filling × Dev) :=
  let region := d.regionOfUnit .cell (g.headD 0)
  let mine := (d.groupsOf pl (fun c => d.regionOfUnit .cell c == region)).flatten
  let f' := f.joinHeat i g region pl.batch (p.ringTime pl) (maxNat (mine.map (f.load .cell)))
  if f'.heatsFit region then
    let d := if probe then g.foldl (fun d c => d.takeProbe .cell c) d else d
    some (f', (d.admitItem f i g 0 0).modItem i.id (fun i => { i with probe := probe }))
  else none

/-- A cell item placed: an Anvil op on the group whose timeline ends earliest, a kernel on one cell; none while the target is Banked or deeper (R619). -/
def Dev.placeCell (d : Dev) (f : Filling) (i : Item) : Option (Filling × Dev) :=
  if d.banked then none
  else match d.kindRec i.kind, AMap.get? d.progs (kindSlot i.kind) with
    | some o, some p =>
      if !o.isAnvil then d.placeSingle f i
      else match p.placeOf o with
        | none => none
        | some pl =>
          let ok := fun c => d.placeable .cell c && d.stepKeeps f.step .cell c
          let due := fun c => d.probeable .cell c && d.stepKeeps f.step .cell c
          let probe := (d.groupsOf pl (fun c => ok c || due c)).find? (fun g => g.any due)
          match probe.bind (fun g => d.joinGroup f i p pl g true) with
          | some r => some r
          | none => (argMin f.groupEnd (d.groupsOf pl ok)).bind (fun g => d.joinGroup f i p pl g false)
    | _, _ => none

/-- The times of the plan's heats written into their items. -/
def Dev.settleHeats (d : Dev) (f : Filling) : Dev :=
  (layHeats f.heats).foldl (fun d x =>
    let ids := x.1.groups.flatMap Prod.snd
    let bound := decide (maxNat (x.1.groups.map (fun g => g.2.length)) * x.1.cost < x.1.ring)
    d.mapItems (fun i => if ids.contains i.id then { i with planStart := x.2.1, planEnd := x.2.2, heat := x.1.num, ringBound := bound } else i)) d

/-! ### Media -/

/-- A media item placed on every die that it touches, if it fits all of them (R22, R543). -/
def Dev.placeMedia (d : Dev) (f : Filling) (i : Item) (limit : Nat) : Option (Filling × Dev) :=
  if i.dies.all (fun n => decide (f.load .die n.1 + n.2 ≤ limit)) then
    let s := maxNat (i.dies.map (fun n => f.load .die n.1))
    let probe := i.dies.any (fun n => (d.unit .die n.1).service == .demoted && (d.unit .die n.1).probeDue)
    let d := if probe then i.dies.foldl (fun d n => d.takeProbe .die n.1) d else d
    some (i.dies.foldl (fun f n => f.charge .die n.1 n.2) f,
      (d.admitItem f i (i.dies.map Prod.fst) s (s + maxNat (i.dies.map Prod.snd))).modItem i.id (fun i => { i with probe := probe }))
  else none

/-- ERASED die blocks of a die: those of manufacture, less the addresses whose state has changed. -/
def Dev.erasedCount (d : Dev) (x : Die) : Nat :=
  d.face.blocksPerPlane - d.spareBlocks + x.blocks.countP (fun b => decide (d.face.blocksPerPlane ≤ b.1 + d.spareBlocks) && b.2 == .erased)
    - x.blocks.countP (fun b => decide (b.1 + d.spareBlocks < d.face.blocksPerPlane) && b.2 != .erased)

/-- Whether set `s` has fewer than 2 FREE benches: fewer than 13 of its dies IN_SERVICE have two ERASED die blocks (R213, R241). -/
def Dev.setShort (d : Dev) (s : Nat) : Bool :=
  decide ((List.range 16).countP (fun o => match AMap.get? d.face.dies (Sys2Proof.Machine.setDie s o) with
    | some x => x.state == .inService && decide (2 ≤ d.erasedCount x)
    | none => false) < 13)

/-- Whether maintenance takes its share ahead of tenant work (R241). -/
def Dev.maintenancePressed (d : Dev) : Bool :=
  decide (d.face.slcLimit < d.slcHeld) || decide (d.face.dirtyPermit < 2 * d.dirtyNow) || d.face.benches.any (fun b => b.2.state == .weak) ||
  (List.range d.numSets).any d.setShort

/-- The maintenance share: a quarter of each die's window while under pressure. -/
def Dev.reserveMaintenance (d : Dev) (f : Filling) : Filling :=
  if d.maintenancePressed then (d.placeables .die).foldl (fun f n => f.charge .die n (f.window / 4)) f else f

/-- Peer service, at most 10 % of each die's window (R522). -/
def Dev.planPeers (d : Dev) (f : Filling) : Filling × Dev :=
  let reads := d.tick.items.filter (fun i => i.queue == peerQueue && i.phase == .held && decide (i.since ≤ f.tick))
  let r := reads.foldl (fun (acc : Filling × Dev × AMap Nat) i =>
    let ok := i.dies.all (fun n => decide (AMap.getD acc.2.2 n.1 0 + n.2 ≤ f.window / 10))
    if !ok then acc
    else match acc.2.1.placeMedia acc.1 i f.window with
      | none => acc
      | some (f', d') => (f', d', i.dies.foldl (fun m n => AMap.upd m n.1 0 (fun x => x + n.2)) acc.2.2)) (f, d, ([] : AMap Nat))
  (r.1, r.2.1)

/-! ### Filling -/

/-- An item placed by its class. -/
def Dev.placeItem (d : Dev) (f : Filling) (i : Item) : Option (Filling × Dev) :=
  if i.cls = 0 then d.placeMedia f i f.window else if i.cls = 2 then d.placeCell f i else d.placeSingle f i

/-- A failed Anvil item that waits to be retried joins a heat on its own group (R387). -/
def Dev.placeRetry (d : Dev) (f : Filling) (i : Item) : Option (Filling × Dev) :=
  match d.kindRec i.kind, AMap.get? d.progs (kindSlot i.kind) with
  | some o, some p => match p.placeOf o with
    | some pl => if i.units.all (fun c => d.placeable .cell c && d.stepKeeps f.step .cell c) && !d.banked then d.joinGroup f i p pl i.units false else d.placeItem f i
    | none => none
  | _, _ => none

/-- Retries and re-issued items go to the head of the plan at their full coefficients; a re-issue counts against its own queue (R61, R387, R544). -/
def Dev.planReissues (d : Dev) (f : Filling) : Filling × Dev :=
  let ids := (sortByKey Item.order (d.tick.items.filter (fun i => i.phase == .reissue && !i.discard))).map Item.id
  ids.foldl (fun (acc : Filling × Dev) id => match acc.2.item? id with
    | none => acc
    | some i => match (if i.retry && i.cls = 2 then acc.2.placeRetry acc.1 i else acc.2.placeItem acc.1 i) with
      | none => acc
      | some (f', d') => (f', if i.retry then d' else i.domains.foldl (fun d k => d.addTag f.tick i.queue k.1 k.2) d')) (f, d)

/-- Items that became eligible since the last plan, tagged in the order within each queue (R543). -/
def Dev.tagAll (d : Dev) (t : Nat) : Dev :=
  let l := sortByKey Item.queueKey (d.tick.items.filter (fun i => i.phase == .held && decide (i.since ≤ t) && decide (i.cls ≤ 3) && i.queue != peerQueue && i.tags.isEmpty))
  l.foldl (fun d i => i.domains.foldl (fun d k => d.tagItem t i.id k.1 k.2) d) d

/-- The item that a domain takes up next: the first of each queue that is not held, by finish tag, the lower queue on a tie (R542, R545). -/
def Dev.nextFor (d : Dev) (f : Filling) (cls k : Nat) : Option Item :=
  let l := d.tick.items.filter (fun i => i.cls == cls && d.eligible f.tick i && d.gateOpen f.tick i && !f.blocked.contains (i.queue, k))
  let firsts := l.filter (fun i => l.all (fun j => j.queue != i.queue || decide (i.queueKey ≤ j.queueKey)))
  argMin (fun i => i.finishIn k * 2048 + i.queue) firsts

/-- A domain of lanes, cells or Hammers filled: a queue whose first item does not fit is held (R545). -/
def Dev.fillDomain (fuel cls k : Nat) (f : Filling) (d : Dev) : Filling × Dev :=
  match fuel with
  | 0 => (f, d)
  | n + 1 => match d.nextFor f cls k with
    | none => (f, d)
    | some i => match d.placeItem f i with
      | some (f', d') => Dev.fillDomain n cls k f' d'
      | none => Dev.fillDomain n cls k { f with blocked := f.blocked ++ [(i.queue, k)] } d

/-- Media items of every die, in ascending order of the greatest of their finish tags (R543). -/
def Dev.fillMedia (f : Filling) (d : Dev) : Filling × Dev :=
  let l := d.tick.items.filter (fun i => i.cls == 0 && d.eligible f.tick i && d.gateOpen f.tick i)
  let ids := (sortByKey (fun i => maxNat (i.tags.map Tag.finish) * 2048 + i.queue) l).map Item.id
  ids.foldl (fun (acc : Filling × Dev) id => match acc.2.item? id with
    | none => acc
    | some i =>
      if i.dies.any (fun n => acc.1.blocked.contains (i.queue, dieDomain n.1)) then acc
      else match acc.2.placeMedia acc.1 i acc.1.window with
        | some r => r
        | none => ({ acc.1 with blocked := acc.1.blocked ++ i.dies.map (fun n => (i.queue, dieDomain n.1)) }, acc.2)) (f, d)

/-! ### Egress (R549, R550) -/

/-- The buckets of every tenant refilled for the plan, in bytes (R549). -/
def Dev.refillBuckets (d : Dev) (t : Nat) : Dev :=
  let us := d.planPeriodUs t
  { d with tenants := AMap.mapKV (fun k (x : Tenant) =>
      let cbs : Int := d.planParam t ParamId.egressCbs k * 1024
      let pbs : Int := d.planParam t ParamId.egressPbs k * 1024
      let cir := d.planParam t ParamId.egressCir k
      { x with
        tc := if cir = 0 then 0 else min cbs (x.tc + (cir * us : Nat))
        tp := min pbs (x.tp + (d.planParam t ParamId.egressPir k * us : Nat)) }) d.tenants }

/-- A tenant's EMITs classed in order on copies of its buckets: 1 committed, 2 excess, 3 shaped (R550). -/
def classEmits (tc tp : Int) : List Item → List (Nat × Nat)
  | [] => []
  | i :: r =>
    let n : Int := i.cost
    if 0 < tc && 0 < tp then (i.id, 1) :: classEmits (tc - n) (tp - n) r
    else if 0 < tp then (i.id, 2) :: classEmits tc (tp - n) r
    else (i.id, 3) :: classEmits tc tp r

/-- Every eligible EMIT classed, and tagged in the virtual time of its class the first time it is classed so. -/
def Dev.classAll (d : Dev) (t : Nat) : Dev :=
  d.tenants.foldl (fun d p =>
    let l := sortByKey Item.queueKey (d.tick.items.filter (fun i => i.cls == 4 && i.queue == p.1 && d.eligible t i && d.gateOpen t i))
    (classEmits p.2.tc p.2.tp l).foldl (fun d c =>
      let d := d.modItem c.1 (fun i => { i with shape := c.2 })
      let cost := ((d.item? c.1).map Item.cost).getD 0
      if c.2 = 1 then d.tagItem t c.1 committedDomain cost
      else if c.2 = 2 then d.tagItem t c.1 excessDomain cost
      else d.count Counter.egressPeakHeld p.1 1) d) (d.mapItems (fun i => if i.cls = 4 && i.phase = .held then { i with shape := 0 } else i))

/-- EMITs of a class admitted while the egress budget lasts (R550). -/
def Dev.fillEgress (fuel shape k : Nat) (f : Filling) (d : Dev) : Filling × Dev :=
  match fuel with
  | 0 => (f, d)
  | n + 1 =>
    let l := d.tick.items.filter (fun i => i.cls == 4 && i.shape == shape && d.eligible f.tick i && !f.blocked.contains (i.queue, k))
    let firsts := l.filter (fun i => l.all (fun j => j.queue != i.queue || decide (i.queueKey ≤ j.queueKey)))
    match argMin (fun i => i.finishIn k * 2048 + i.queue) firsts with
    | none => (f, d)
    | some i =>
      if f.egress < i.cost then Dev.fillEgress n shape k { f with blocked := f.blocked ++ [(i.queue, k)] } d
      else
        let d := d.modItem i.id (fun i => { i with phase := .admitted, units := [], planStart := 0, planEnd := f.window, planTick := f.tick })
        let d := d.modDomain k (fun x => { x with v := i.finishIn k })
        let d := d.modTenant i.queue (fun x => { x with tp := x.tp - i.cost, tc := if shape = 1 then x.tc - i.cost else x.tc })
        let d := d.count (if shape = 1 then Counter.egressCommittedBytes else Counter.egressExcessBytes) i.queue i.cost
        Dev.fillEgress n shape k { f with egress := f.egress - i.cost } d

/-! ### The freeze -/

/-- HELD and GATE_HELD of the items that the plan leaves out (R22, R556). -/
def Dev.countHeld (d : Dev) (t : Nat) : Dev :=
  d.tick.items.foldl (fun d i =>
    if decide (i.queue < 1024) && i.phase == .reissue then d.count Counter.held i.queue 1
    else if decide (i.queue < 1024) && d.eligible t i then
      if !d.gateOpen t i then d.count Counter.gateHeld i.queue 1
      else if i.cls = 4 && i.shape = 3 then d else d.count Counter.held i.queue 1
    else d) d

/-- Items of the plan of tick `t`. -/
def Dev.plannedFor (d : Dev) (t : Nat) : List Item := d.tick.items.filter (fun i => i.phase == .admitted && i.planTick == t)

/-- The launch list: cells that start work at the boundary and run nothing carried (R389). -/
def Dev.launchList (d : Dev) (f : Filling) (t : Nat) : List Nat :=
  ((d.plannedFor t).filter (fun i => i.cls == 2 && decide (i.planStart ≤ 2000))).foldl (fun acc i =>
    i.units.foldl (fun acc c => if acc.contains c || f.load .cell c != 0 && (d.tick.items.any (fun j => j.carries && decide (j.planTick < t) && j.cls == 2 && j.units.contains c)) then acc
      else acc ++ [c]) acc) []

/-- Whether the next tick runs an empty plan by rule: after a resync (R597), while a shallower power state is being reached (R622), or in Slumber. -/
def Dev.plansNothing (d : Dev) : Bool := d.bellows.exiting || d.bellows.slumber || d.hearth.halting || decide (0 < d.tick.emptyTicks)

/-- The plan filled: carries, re-issues, maintenance, peer service, the queues of each domain, and egress (R23, R542). -/
def Dev.fillPlan (d : Dev) (t : Nat) : Dev :=
  let n := 2 * d.tick.items.length + 1
  let (f, d) := d.chargeCarries (d.emptyFilling t)
  let carried := f
  let (f, d) := d.planReissues f
  let (f, d) := d.planPeers (d.reserveMaintenance f)
  let d := d.tagAll t
  let (f, d) := Dev.fillMedia f d
  let (f, d) := Dev.fillDomain n 1 laneDomain f d
  let (f, d) := Dev.fillDomain n 2 cellDomain f d
  let (f, d) := Dev.fillDomain n 3 hammerDomain f d
  let d := d.settleHeats f
  let d := (d.refillBuckets t).classAll t
  let (f, d) := Dev.fillEgress n 1 committedDomain f d
  let (_, d) := Dev.fillEgress n 2 excessDomain f d
  let d := d.countHeld t
  { d with tick := { d.tick with plan := some { tick := t, items := (d.plannedFor t).map Item.id, launch := d.launchList carried t } } }

/-- PLAN_FREEZE: the step and the plan of the next tick, 20 µs before its boundary (Table 01-2, R612). -/
def Dev.freezePlan (d : Dev) : Dev :=
  let t := d.tick.count + 1
  if !d.tick.running || ((d.tick.plan.map (fun p => decide (t ≤ p.tick))).getD false) then d
  else
    let d : Dev := { d with bellows := { d.bellows with nextStep := some d.chooseStep, cEffAtFreeze := d.capEff } }
    if d.plansNothing then
      let d := d.refillBuckets t
      { d with tick := { d.tick with plan := some { tick := t, items := [], launch := [] } } }
    else d.fillPlan t

/-- PLAN_FREEZE (R28, R612). -/
def execPlanFreeze (s : State) : Out := s.onRunning Dev.freezePlan

/-! ### Staged launch (R389 to R391) -/

/-- STAGED_LAUNCH_PRECHARGE: a listed cell runs the pre-charge workload (R390). -/
def Dev.launchPrecharge (d : Dev) (c : Nat) : Dev :=
  match d.tick.plan with
  | some p => if p.launch.contains c && !d.tick.precharge.contains c then { d with tick := { d.tick with precharge := d.tick.precharge ++ [c] } } else d
  | none => d

/-- STAGED_LAUNCH_PRECHARGE (R390). -/
def execStagedLaunchPrecharge (cell : CellRef) (s : State) : Out :=
  s.onRunning (fun d => match d.cellOf cell with | some c => d.launchPrecharge c | none => d)

/-- STAGED_LAUNCH_RELEASE: a listed cell leaves the pre-charge workload and starts its first item, at (c mod 64) × 31.25 ns after the boundary (R391). -/
def Dev.launchRelease (d : Dev) (c : Nat) : Dev :=
  if d.tick.launch.contains c then
    let d : Dev := { d with tick := { d.tick with launch := d.tick.launch.filter (fun x => x != c), precharge := d.tick.precharge.filter (fun x => x != c) } }
    d.startItems (c % 64 * 125 / 4)
  else d

/-- STAGED_LAUNCH_RELEASE (R391). -/
def execStagedLaunchRelease (cell : CellRef) (s : State) : Out :=
  s.onRunning (fun d => match d.cellOf cell with | some c => d.launchRelease c | none => d)

end Sys2Proof.Machine
end

