-- ==== Sys2Proof/Machine/Hierarchy.lean ====
section
/-!
DEFINITION. Machine/Hierarchy.lean: faults of cells, blocks, regions and the chip: retries, quarantine, re-issue, spares, fences, region resets,
lost HBM contents, re-homing and the halt (R57 to R83, R110 to R113, R387, R388, R437, R458, R723).
-/
namespace Sys2Proof.Machine

/-! ### Re-issue (R61, R544) -/

/-- An item back in the state of one that has not run, off its units. -/
def Item.returned (i : Item) : Item :=
  { i with phase := .reissue, units := [], tags := [], ran := 0, startAt := 0, retry := false, probe := false, heat := 0, ringBound := false, charged := 0 }

/-- The end of a unit's timeline in the running tick, as its items are planned. -/
def Dev.timelineEnd (d : Dev) (c : UnitClass) (u : Nat) : Nat :=
  maxNat ((d.tick.items.filter (fun i => i.placed && d.itemUnit i == c && i.units.contains u && decide (i.planTick ≤ d.tick.count))).map
    (fun i => i.planEnd - (d.tick.count - i.planTick) * d.periodNs))

/-- The admission window of the running tick in ns (R21). -/
def Dev.windowNs (d : Dev) : Nat := d.periodNs * d.param ParamId.admitCeilingPct 0 / 100

/-- A re-issued item counted against its own queue (R544). -/
def Dev.chargeReissue (d : Dev) (i : Item) : Dev := i.domains.foldl (fun d k => d.addTag d.tick.count i.queue k.1 k.2) d

/-- A re-issued item set in the queue of a unit. -/
def Dev.placeAgain (d : Dev) (i : Item) (units : List Nat) (start fin heat : Nat) (bound : Bool) : Dev :=
  (d.modItem i.id (fun x => { x.returned with
    phase := .pending, units := units, planTick := d.tick.count, planStart := start, planEnd := fin, heat := heat, ringBound := bound })).chargeReissue i

/-- A group of block `g` on which a re-issued Anvil item still ends within the window: the group, its start, its end, its heat, and whether the ring
sets the pace. An item joins a heat of its chain that has not started, or a new one after the heats of the region (R61, R383, R387). -/
def Dev.groupFor (d : Dev) (i : Item) (g at_ : Nat) : Option (List Nat × Nat × Nat × Nat × Bool) :=
  match d.kindRec i.kind, AMap.get? d.progs (kindSlot i.kind) with
  | some o, some p => match p.placeOf o with
    | none => none
    | some pl =>
      let region := d.regionOfBlock g
      let ring := p.ringTime pl
      let groups := (d.groupsOf pl (d.placeable .cell)).filter (fun cs => blockOfUnit .cell (cs.headD 0) == g)
      let mine := d.tick.items.filter (fun j => j.placed && j.cls == 2 && j.planTick == d.tick.count && j.units.any (fun c => d.regionOfUnit .cell c == region))
      let endOf := maxNat (at_ :: (List.range 16).map (fun b => maxNat ((List.range 16).map (fun c => d.timelineEnd .cell ((region * d.B + b % d.B) * 16 + c)))))
      let join := groups.findSome? (fun cs =>
        let l := mine.filter (fun j => j.kind == i.kind && j.phase != .running && j.units == cs)
        match l.head? with
        | none => none
        | some j => if l.length < pl.batch && decide (j.planStart + max ring ((l.length + 1) * i.cost) ≤ d.windowNs) then
            some (cs, j.planStart, j.planStart + max ring ((l.length + 1) * i.cost), j.heat, decide ((l.length + 1) * i.cost < ring)) else none)
      match join with
      | some r => some r
      | none => match argMin (fun cs => maxNat (cs.map (d.timelineEnd .cell))) groups with
        | none => none
        | some cs =>
          let fin := endOf + max ring i.cost
          if fin ≤ d.windowNs then some (cs, endOf, fin, maxNat (d.tick.items.map Item.heat) + 1, decide (i.cost < ring)) else none
  | _, _ => none

/-- A work item re-issued in block `g`: to a unit of the block that can finish it within the window, else to the scheduler (R61, R67). -/
def Dev.reissueIn (d : Dev) (i : Item) (g at_ : Nat) : Dev :=
  let d := if i.queue < 1024 then d.count Counter.reissue i.queue 1 else d
  let back := d.modItem i.id Item.returned
  let single := fun (c : UnitClass) (n : Nat) =>
    match argMin (fun u => max at_ (d.timelineEnd c u)) (((List.range n).map (fun k => g * n + k)).filter (d.placeable c)) with
    | none => back
    | some u =>
      let s := max at_ (d.timelineEnd c u)
      if s + i.cost ≤ d.windowNs then d.placeAgain i [u] s (s + i.cost) 0 false else back
  if i.cls = 1 then single .lane 4
  else if i.cls = 2 then
    if ((d.kindRec i.kind).map OpRec.isAnvil).getD false then
      match d.groupFor i g at_ with
      | some (cs, s, e, h, b) => d.placeAgain i cs s e h b
      | none => back
    else single .cell 16
  else back

/-- A work item returned to the scheduler by a fence or a step of the ladder (R61, R70, R609); a BLOCK or REGION op goes to another unit of its class at
once, since it is not planned (R185). -/
def Dev.reissueOut (d : Dev) (i : Item) : Dev :=
  let d := if i.queue < 1024 then d.count Counter.reissue i.queue 1 else d
  if i.cls = 5 || i.cls = 6 then
    let c := d.itemUnit i
    let home := match i.job with | .sample sid _ _ => ((d.stream? sid).map Stream.home).getD 0 | _ => 0
    let d := d.modItem i.id (fun x => { x.returned with phase := .pending, planTick := d.tick.count })
    let u := (d.directUnit c none home).toList
    d.modItem i.id (fun x => { x with units := u })
  else d.modItem i.id Item.returned

/-! ### Streams lost (R113, R203) -/

/-- A stream stops: LOST, with STREAM_LOST to its tenant; its recording and its replay end. -/
def Dev.loseStream (d : Dev) (sid : Nat) : Dev :=
  match d.stream? sid with
  | none => d
  | some st =>
    if st.standing = .lost || st.standing = .draining then d
    else
      let d := ((d.endLog sid 3).stopWork sid).screenEpochEnd sid st
      let d : Dev := { d with group := { d.group with replays := d.group.replays.map (fun r => if r.stream = sid then { r with aborted := true } else r) } }
      (d.writeStream sid (fun s => { s with state := .lost, cmds := [] })).event st.tenant EventCode.streamLost sid []

/-- Streams for which `p` holds lost. -/
def Dev.loseStreams (d : Dev) (p : Nat → Stream → Bool) : Dev := (d.streams.filter (fun q => p q.1 q.2)).foldl (fun d q => d.loseStream q.1) d

/-- A program unloaded because its images found no space (R203). -/
def Dev.unloadLost (d : Dev) (slot : Nat) (p : Prog) : Dev :=
  let d := d.event p.tenant EventCode.programUnloaded slot []
  let d := (d.loseStreams (fun _ st => st.slot == slot)).freePages PageKind.program slot
  { d with progs := AMap.del d.progs slot }

/-! ### The halt (R81, R82) -/

/-- The device drains every function; with no drain to wait for, it is halted at once. -/
def Dev.halt (d : Dev) : Dev :=
  let d : Dev :=
    if d.hearth.halting then d
    else
      let d : Dev := { d with hearth := { d.hearth with halting := true } }
      (d.tenants.map Prod.fst).foldl (fun d t => d.startDrain t 5 []) d
  d.finishHalt

/-! ### Samples run again (Table 02-3) -/

/-- A sample whose data are lost runs again from its first op, its bytes read again (Table 02-3). A live-ingest frame cannot be read again. -/
def Dev.rerunSample (d : Dev) (sid pos : Nat) : Dev :=
  match d.stream? sid with
  | none => d
  | some st => match AMap.get? st.samples pos with
    | none => d
    | some s =>
      if s.state != .flight && s.state != .resident then d
      else if st.ingest.isSome then (d.skipCorrupt sid pos Reason.mediaUnreadable 0 0).assemble sid
      else
        let d := d.dropOuts st s
        let d := (d.tick.items.filter (fun i => match i.job with | .sample a b _ => a == sid && b == pos | _ => false)).foldl (fun d i => d.forgetItem i) d
        (d.modSample sid pos (fun x => { x with state := .flight, outs := [], done := [], marks := 0 })).startRead sid pos s.due

/-- Whether a sample has data in a buffer of region `r`. -/
def Sample.inRegion (s : Sample) (r : Nat) : Bool := s.outs.any (fun o => o.bufs.any (fun h => handleRegion h == r))

/-! ### Regions fenced (R78 to R80, R112) -/

/-- Weight images whose only copy was in a lost stack, moved to the lowest-numbered region in service with the pages and the ring shares for them; a program
that finds none is unloaded (R388). -/
def Dev.moveImages (d : Dev) (slot : Nat) : Dev :=
  match AMap.get? d.progs slot with
  | none => d
  | some p =>
    let pls := placements p.placement
    let lost := (List.range pls.length).filter (fun k => match pls[k]? with
      | some e => (maskBits e.regions 8).all (fun r => !d.regionIn r)
      | none => false)
    if lost.isEmpty || p.state != .loaded then d
    else
      let moved := lost.foldl (fun (acc : Option Dev) k => acc.bind (fun d =>
        match AMap.get? d.progs slot, pls[k]? with
        | some p, some e =>
          let n := imagePages ((p.models[e.model]?).getD [])
          match d.regionsIn.find? (fun r => decide (n ≤ d.pagesFree r) && decide (d.ringUsed r + e.shares ≤ 240)) with
          | none => none
          | some r =>
            let d := d.takePages PageKind.program slot r n
            some { d with progs := AMap.set d.progs slot { p with placement := overlay p.placement (16 * k + 6) (leBytes 1 (2 ^ r)) } }
        | _, _ => none)) (some d)
      match moved with
      | some d => d
      | none => d.unloadLost slot p

/-- Whether a stream's program names a dedup table. -/
def Dev.usesTable (d : Dev) (st : Stream) (k : Nat) : Bool :=
  st.tenant == k / 1024 && ((d.progOfStream st).map (fun p => p.dedupTables.any (fun q => q.1 == k % 1024))).getD false &&
  st.standing != .idle && st.standing != .lost && st.standing != .draining

/-- Lines of a dedup table lost: entries dropped, DEDUP_LOST in Open mode, and the Exact-mode streams that use the table stopped (Table 02-3). -/
def Dev.loseTableLines (d : Dev) (k : Nat) (p : Nat → Bool) : Dev :=
  match AMap.get? d.screen.tables k with
  | none => d
  | some x =>
    if x.kind = TableKind.rules then d
    else
      let users := d.streams.filter (fun q => d.usesTable q.2 k)
      let n := if users.isEmpty || users.any (fun q => !q.2.mode) then x.linesIn p else 0
      let d := (d.modTable k (fun x => x.everyGen (fun g => g.dropLines p))).count Counter.dedupLost (k / 1024) n
      d.loseStreams (fun _ st => st.mode && d.usesTable st k)

/-- Every dirty page and granule whose chunk lay in region `r` recorded unreadable; chunk `c` of the flash write buffer lies in region c mod 8. -/
def Dev.loseDirty (d : Dev) (r : Nat) : Dev :=
  let pages := d.face.extents.flatMap (fun p => match p.2.loc with
    | .buffer c =>
      let n := chunksOf p.2.length
      ((List.range n).filter (fun k => decide (n ≤ k + p.2.dirty) && (c + k) % 8 == r)).flatMap (fun k =>
        ((List.range 4).map (fun j => (p.1, 4 * k + j))).filter (fun q => decide (q.2 < pagesOf p.2.length)))
    | _ => [])
  let d := pages.foldl (fun d q => d.pageUnreadable q.1 q.2) d
  (d.face.granules.filter (fun g => g.2.buffered && g.1 % 8 == r)).foldl (fun d g => d.granuleUnreadable g.1) d

/-- The contents of a lost stack, each handled as Table 02-3 lays down. -/
def Dev.loseStack (d : Dev) (r : Nat) (before : List Nat) : Dev :=
  let d := d.loseStreams (fun _ st => st.home == r)
  let d := d.streams.foldl (fun d q => (q.2.samples.filter (fun p => p.2.inRegion r)).foldl (fun d p => d.rerunSample q.1 p.1) d) d
  let d := (d.progs.map Prod.fst).foldl Dev.moveImages d
  let d := if d.regionsIn.isEmpty then d else
    let n := before.length
    let i := (before.findIdx? (fun x => x == r)).getD n
    (d.screen.tables.map Prod.fst).foldl (fun d k => d.loseTableLines k (fun b => b % n == i)) d
  d.loseDirty r

/-- The streams whose contexts are homed in region `r`. -/
def Dev.homedIn (d : Dev) (r : Nat) : AMap Stream := d.streams.filter (fun p => p.2.home == r)

/-- Every stream homed in a fenced region is REHOMING until its context has moved (R112). -/
def Dev.beginRehoming (d : Dev) (r : Nat) : Dev :=
  ((d.homedIn r).filter (fun p => p.2.state != .rehoming)).foldl (fun d p =>
    d.modStream p.1 (fun s => { s with resumeState := s.state, state := .rehoming })) d

/-- Hammer `r` given up: the billets packed on it go to another (R469). -/
def Dev.leaveHammer (d : Dev) (r : Nat) : Dev :=
  let h := d.chooseHammer
  let streams : AMap Stream := AMap.mapKV (fun _ (s : Stream) =>
    let g := fun (b : Billet) => if b.hammer = r then { b with hammer := h } else b
    { s with open_ := s.open_.map g, closed := s.closed.map g }) d.streams
  { d with streams := streams }

/-- Region `r` fenced by the Hearth (R79, R112): its work is planned elsewhere, REGION_FENCED goes to every window, and its contexts are re-homed, or,
with its stack lost, its contents are handled by Table 02-3. After a halt no further fence is made (R82). -/
def Dev.fenceRegion (d : Dev) (r : Nat) (hbmLost : Bool) : Dev :=
  if d.hearth.halting || (d.region r).fenced then d
  else
    let before := d.regionsIn
    let d := d.modRegion r (fun x => { x with fenced := true, hbmLost := hbmLost, resetting := false, resumeAtBoundary := false })
    let d := (d.regionTrouble r RegionBit.fenced).count Counter.regionFence 0 1
    let d := if hbmLost then d.regionTrouble r RegionBit.hbmLost else d
    let d : Dev := { d with tongs := { d.tongs with
      lines := d.tongs.lines.filter (fun l => l.1 / contextSlots != r)
      waiting := d.tongs.waiting.map (fun w => if w.region = r then { w with region := (d.regionsIn.head?).getD r } else w) } }
    let on := d.tick.items.filter (fun i => i.placed && d.itemUnit i != .die && decide (i.cls < 7) && i.units.any (fun u => d.regionOfUnit (d.itemUnit i) u == r))
    let d := (on.foldl Dev.reissueOut d).leaveHammer r
    let e := fun (d : Dev) (w : Nat) => d.event w EventCode.regionFenced r [(20, 1, bitNat hbmLost)]
    let d := e ((d.tenants.map Prod.fst).foldl e d) adminWin
    let d := ((d.interruptBuilds).interruptVocabs).interruptLoads
    let d := if hbmLost then d.loseStack r before else d.beginRehoming r
    if d.regionsIn.isEmpty then d.halt else d

/-- A stream back from its re-homing in the state that it held (R112). -/
def Stream.back (st : Stream) : Stream := { st with state := st.standing }

/-- A context written to slot `k` of region `q`, its new home (R112). -/
def Dev.rehome (d : Dev) (sid q k : Nat) : Dev :=
  ((d.modStream sid (fun s => { s.back with home := q, homeSlot := k })).writeStream sid id).count Counter.ctxRehome 0 1

/-- REHOME_DONE: each context of a region fenced with its stack readable is written to a slot of a region in service; one for which no slot is free is
lost (R112, R113). -/
def Dev.rehomeDone (d : Dev) (r : Nat) : Dev :=
  if (d.region r).fenced && !(d.region r).hbmLost then
    (d.homedIn r).foldl (fun d p =>
      match d.chooseHome with
      | none => (d.modStream p.1 Stream.back).loseStream p.1
      | some (q, k) => d.rehome p.1 q k) d
  else d

/-- REHOME_DONE (R112). -/
def execRehomeDone (region : Fin 8) (s : State) : Out := s.onRunning (fun d => d.rehomeDone region.val)

/-- HBM_CONTROLLER_FAILURE: the region is fenced with HBM_LOST (R78). -/
def execHbmControllerFailure (region : Fin 8) (s : State) : Out := s.onRunning (fun d => d.fenceRegion region.val true)

/-! ### Blocks fenced (R69, R70, R110) -/

/-- Whether fewer than B / 2 blocks of a region are in service (R78). -/
def Dev.regionThin (d : Dev) (r : Nat) : Bool := decide (2 * (d.blocksIn r).length < d.B)

/-- The context lines of block `b` of region `r` pulled out of its cache (R110). -/
def Dev.pullLines (d : Dev) (r b : Nat) : Dev :=
  let f := fun (l : Nat × DirLine) => match l.2.state with
    | .owned c _ => if l.1 / contextSlots = r && c = b then none else some l
    | .shared cs =>
      if l.1 / contextSlots = r && cs.contains b then
        let rest := cs.filter (fun c => c != b)
        if rest.isEmpty then none else some (l.1, { l.2 with state := .shared rest })
      else some l
    | .uncached => some l
  { d with tongs := { d.tongs with lines := d.tongs.lines.filterMap f } }

/-- Cells off the launch list (R390). -/
def Dev.leaveLaunch (d : Dev) (p : Nat → Bool) : Dev :=
  { d with tick := { d.tick with
      launch := d.tick.launch.filter (fun c => !p c), precharge := d.tick.precharge.filter (fun c => !p c)
      plan := d.tick.plan.map (fun x => { x with launch := x.launch.filter (fun c => !p c) }) } }

/-- Whether a unit of a class sits in global block `g`. -/
def inBlockOf (c : UnitClass) (g u : Nat) : Bool :=
  match c with
  | .cell | .lane | .swage | .screen | .block => blockOfUnit c u == g
  | _ => false

/-- Items placed on units of a block. -/
def Dev.itemsOn (d : Dev) (g : Nat) : List Item :=
  d.tick.items.filter (fun i => i.placed && decide (i.cls < 7) && i.units.any (fun u => inBlockOf (d.itemUnit i) g u))

/-- A block fenced at once (R70). -/
def Dev.fenceBlock (d : Dev) (g : Nat) : Dev :=
  if d.hearth.halting || !d.blockIn g then d
  else
    let r := d.regionOfBlock g
    let b := g % d.B
    let spare := decide ((d.region r).owed.length < (d.freeSpareBlocks r).length)
    let on := d.itemsOn g
    let d := (d.modUnit .block g (fun x => { x with service := .fenced })).modBlock g (fun x => { x with sparePending := none })
    let d := ((d.blockTrouble r b).count Counter.blockFence r 1).blockTrouble r (if spare then BlockBit.sparePending else BlockBit.noSpare)
    let d := d.modRegion r (fun x => { x with owed := if spare then x.owed ++ [b] else x.owed, fenceOrder := x.fenceOrder ++ [b] })
    let d := ((d.pullLines r b).leaveLaunch (fun c => c / 16 == g))
    let d := on.foldl Dev.reissueOut d
    if d.regionThin r then d.fenceRegion r false else d

/-! ### Cells (R57 to R64, R387) -/

/-- Whether a block is to be fenced after a quarantine, `last` being the tick of the one before it (R69). -/
def Dev.blockFails (d : Dev) (g : Nat) (last : Option Nat) : Bool :=
  (match last with | some t => decide (d.tick.count < t + 1000) | none => false) || decide ((d.cellsIn g).length < 12)

/-- A cell quarantined: its work is re-issued, its spare is due at the next boundary, and the block may have to be fenced (R60, R61, R63, R69). -/
def Dev.quarantineCell (d : Dev) (c at_ : Nat) : Dev :=
  let g := c / 16
  if d.hearth.halting || !d.unitIn .cell c then d
  else
    let last := (d.block g).lastQuar
    let on := d.tick.items.filter (fun i => i.placed && i.cls == 2 && i.units.contains c)
    let spare := !(d.block g).spareUsed && !(d.freeSpareCells g).isEmpty && (d.block g).sparePending.isNone
    let d := (d.modUnit .cell c (fun x => { x with service := .quarantined, ceTicks := [] })).cellTrouble g (c % 16)
    let d := (d.count Counter.cellQuarantine g 1).modBlock g (fun x => { x with
      lastQuar := some d.tick.count, sparePending := if spare then some (c % 16) else x.sparePending })
    let d := on.foldl (fun d i => d.reissueIn i g at_) (d.leaveLaunch (fun x => x == c))
    if d.blockFails g last then d.fenceBlock g else d

/-- Items of a failed group that have not been retried join the next heat of their placement on the same group: a later heat of the tick with room, or
one of the next plan (R387). -/
def Dev.retryHeat (d : Dev) (i : Item) : Dev :=
  let later := d.tick.items.find? (fun j => j.placed && j.phase != .running && j.cls == 2 && j.kind == i.kind && j.units == i.units)
  let room : Bool := match later with
    | none => false
    | some j => match d.kindRec i.kind, AMap.get? d.progs (kindSlot i.kind) with
      | some o, some p => ((p.placeOf o).map (fun pl =>
          decide (d.tick.items.countP (fun x => x.placed && x.cls == 2 && x.units == j.units && x.planTick == j.planTick && x.heat == j.heat) < pl.batch))).getD false
      | _, _ => false
  match later with
  | some j =>
    if room then d.modItem i.id (fun x => { x with
      retry := true, phase := j.phase, planTick := j.planTick, planStart := j.planStart, planEnd := j.planEnd, heat := j.heat, ringBound := j.ringBound, ran := 0, startAt := 0 })
    else d.modItem i.id (fun x => { x with retry := true, phase := .reissue, ran := 0, startAt := 0, tags := [] })
  | none => d.modItem i.id (fun x => { x with retry := true, phase := .reissue, ran := 0, startAt := 0, tags := [] })

/-- CELL_OP_FAILURE: an op that runs on a cell fails by a residue mismatch or a double-bit error (R57, R58); it is retried once, and a failed retry
quarantines the cell (R59, R60, R387). -/
def Dev.cellOpFailure (d : Dev) (c : Nat) (residue : Bool) (at_ : Nat) : Dev :=
  let on := d.tick.items.filter (fun i => i.phase == .running && i.cls == 2 && i.out.isNone && i.units.contains c)
  if on.isEmpty || !d.unitIn .cell c then d
  else
    let d := d.cellTrouble (c / 16) (if residue then CellBit.residue else CellBit.storeUe)
    let d :=
      if on.any Item.retry then d.quarantineCell c at_
      else on.foldl (fun d i =>
        if ((d.kindRec i.kind).map OpRec.isAnvil).getD false then d.retryHeat i else d.modItem i.id (fun x => { x with retry := true })) d
    d.startItems at_

/-- CELL_OP_FAILURE (R59). -/
def execCellOpFailure (cell : CellRef) (residue : Bool) (atNs : Nat) (s : State) : Out :=
  s.onRunning (fun d => match d.cellOf cell with | some c => d.cellOpFailure c residue atNs | none => d)

/-- CELL_STORE_CE: a corrected error of a cell store; 256 within 64 ticks quarantine the cell (R57, R62). -/
def Dev.cellStoreCe (d : Dev) (c at_ : Nat) : Dev :=
  if !d.unitIn .cell c then d
  else
    let g := c / 16
    let ticks := d.tick.count :: (d.unit .cell c).ceTicks.filter (fun t => decide (d.tick.count < t + 64))
    let d := ((d.count Counter.cellCe g 1).cellTrouble g CellBit.storeCe).modUnit .cell c (fun x => { x with ceTicks := ticks })
    if 256 ≤ ticks.length then ((d.cellTrouble g CellBit.ceStorm).quarantineCell c at_).startItems at_ else d

/-- CELL_STORE_CE (R57, R62). -/
def execCellStoreCe (cell : CellRef) (atNs : Nat) (s : State) : Out :=
  s.onRunning (fun d => match d.cellOf cell with | some c => d.cellStoreCe c atNs | none => d)

/-- Spare cells whose mapping is due, mapped in at a boundary (R63). -/
def Dev.mapSpareCells (d : Dev) : Dev :=
  d.units.blocks.foldl (fun d p => match p.2.sparePending with
    | none => d
    | some c =>
      match (d.freeSpareCells p.1).head? with
      | none => d
      | some s =>
        let d := d.modBlock p.1 (fun x => { x with sparePending := none, spareUsed := true, cellSpares := x.cellSpares ++ [(s, c)] })
        (d.modUnit .cell (p.1 * 16 + c) (fun _ => UnitRec.init)).cellTrouble p.1 CellBit.spareUsed) d

/-! ### Lanes, Swage, Screen and Wedge (R67, R76) -/

/-- Items that run on a unit. -/
def Dev.runningOn (d : Dev) (c : UnitClass) (u : Nat) : List Item :=
  d.tick.items.filter (fun i => i.phase == .running && i.out.isNone && d.itemUnit i == c && i.units.contains u)

/-- A failure on a unit: the first is retried on the same unit; a failed retry goes to `failed`. -/
def Dev.unitFault (d : Dev) (c : UnitClass) (u at_ : Nat) (failed : Dev → Dev) : Dev :=
  let on := d.runningOn c u
  if on.isEmpty || !d.unitIn c u then d
  else if on.any Item.retry then (if d.hearth.halting then d else (failed d).startItems at_)
  else on.foldl (fun d i => d.modItem i.id (fun x => { x with retry := true })) d

/-- A lane quarantined, its work re-issued to the other lanes of its block; with no lane left the block is fenced (R67, R69). -/
def Dev.quarantineLane (d : Dev) (u at_ : Nat) : Dev :=
  let g := u / 4
  let on := d.tick.items.filter (fun i => i.placed && d.itemUnit i == .lane && i.units.contains u)
  let d := (d.modUnit .lane u (fun x => { x with service := .quarantined })).blockTrouble (d.regionOfBlock g) BlockBit.laneQuarantine
  let d := on.foldl (fun d i => d.reissueIn i g at_) d
  if (List.range 4).all (fun l => (d.unit .lane (g * 4 + l)).service == .quarantined) then d.fenceBlock g else d

/-- LANE_FAULT (R67). -/
def execLaneFault (block : BlockRef) (lane : Fin 4) (atNs : Nat) (s : State) : Out :=
  s.onRunning (fun d => match d.blockOf block with
    | some g => d.unitFault .lane (g * 4 + lane.val) atNs (fun d => d.quarantineLane (g * 4 + lane.val) atNs)
    | none => d)

/-- SWAGE_FAULT (R67). -/
def execSwageFault (block : BlockRef) (atNs : Nat) (s : State) : Out :=
  s.onRunning (fun d => match d.blockOf block with
    | some g => d.unitFault .swage g atNs (fun d => (d.blockTrouble (d.regionOfBlock g) BlockBit.swageFault).fenceBlock g)
    | none => d)

/-- SCREEN_FAULT (R67). -/
def execScreenFault (block : BlockRef) (atNs : Nat) (s : State) : Out :=
  s.onRunning (fun d => match d.blockOf block with
    | some g => d.unitFault .screen g atNs (fun d => (d.blockTrouble (d.regionOfBlock g) BlockBit.screenFault).fenceBlock g)
    | none => d)

/-- BLOCK_STORE_UE: lost sample data re-issues the work item that produces it; lost arbiter state fences the block (R68). -/
def Dev.blockStoreUe (d : Dev) (g : Nat) (h : StoreHolds) (at_ : Nat) : Dev :=
  if !d.blockIn g then d
  else
    let d := d.blockTrouble (d.regionOfBlock g) BlockBit.storeUe
    match h with
    | .arbiter => d.fenceBlock g
    | .data sid pos op =>
      match (d.itemsOn g).find? (fun i => i.job == .sample sid pos op && i.phase == .running) with
      | none => d
      | some i => if i.cls = 5 then (d.reissueOut i).startItems at_ else (d.reissueIn i g at_).startItems at_

/-- BLOCK_STORE_UE (R68). -/
def execBlockStoreUe (block : BlockRef) (holds : StoreHolds) (atNs : Nat) (s : State) : Out :=
  s.onRunning (fun d => match d.blockOf block with | some g => d.blockStoreUe g holds atNs | none => d)

/-- BLOCK_STORE_CE: STORE_CE in BLOCK_TROUBLE (R89). -/
def execBlockStoreCe (block : BlockRef) (s : State) : Out :=
  s.onRunning (fun d => match d.blockOf block with
    | some g => if d.blockIn g then d.blockTrouble (d.regionOfBlock g) BlockBit.storeCe else d
    | none => d)

/-! ### Region resets (R75, R77, R78, R111) -/

/-- Work on a region's units stops where it stands, to go on after the reset. -/
def Dev.suspendRegion (d : Dev) (r : Nat) : Dev :=
  d.mapItems (fun i =>
    if i.phase = .running && i.out.isNone && d.itemUnit i != .die && decide (i.cls < 7) && i.units.any (fun u => d.regionOfUnit (d.itemUnit i) u == r) then
      { i with phase := .pending, ran := 0, startAt := 0 }
    else i)

/-- A region reset starts; one needed fewer than 10,000 ticks after the last completed fences the region (R77, R78). The contexts in `lost` could not be
written back (R111). -/
def Dev.resetRegion (d : Dev) (r : Nat) (lost : List Nat) : Dev :=
  let x := d.region r
  if d.hearth.halting || x.fenced || x.resetting then d
  else if (match x.lastResetDone with | some t => decide (d.tick.count < t + 10000) | none => false) then d.fenceRegion r false
  else
    let d := (d.modRegion r (fun x => { x with resetting := true, resumeAtBoundary := false })).regionTrouble r RegionBit.reset
    let d := (d.count Counter.regionReset r 1).suspendRegion r
    let dirty := (d.streams.filter (fun p => p.2.home == r && lost.contains p.1 &&
      (match d.line r p.2.homeSlot with | .owned _ m => m | _ => false))).map Prod.fst
    let d : Dev := { d with tongs := { d.tongs with lines := d.tongs.lines.filter (fun l => l.1 / contextSlots != r) } }
    dirty.foldl Dev.loseStream d

/-- RING_FAULT (R75). -/
def execRingFault (region : Fin 8) (lost : List Nat) (s : State) : Out :=
  s.onRunning (fun d => if d.regionIn region.val then (d.regionTrouble region.val RegionBit.ringFault).resetRegion region.val lost else d)

/-- DIR_FAULT (R75). -/
def execDirFault (region : Fin 8) (lost : List Nat) (s : State) : Out :=
  s.onRunning (fun d => if d.regionIn region.val then (d.regionTrouble region.val RegionBit.dirFault).resetRegion region.val lost else d)

/-- REGION_RESET_DONE: the region resumes at the next boundary (R77). -/
def execRegionResetDone (region : Fin 8) (s : State) : Out :=
  s.onRunning (fun d => if (d.region region.val).resetting then
    d.modRegion region.val (fun x => { x with resetting := false, resumeAtBoundary := true, lastResetDone := some d.tick.count }) else d)

/-- REGION_RESET_TIMEOUT: a reset that takes more than 50 ms fences the region at that moment (R78). -/
def execRegionResetTimeout (region : Fin 8) (s : State) : Out :=
  s.onRunning (fun d => if (d.region region.val).resetting then d.fenceRegion region.val false else d)

/-- Regions whose reset has completed resume at a boundary (R77). -/
def Dev.resumeRegions (d : Dev) : Dev :=
  { d with units := { d.units with regions := AMap.mapKV (fun _ (x : RegionRec) => { x with resumeAtBoundary := false }) d.units.regions } }

/-- A Wedge unit quarantined, its work re-issued to the others of its region; with none left the region is reset (R76). -/
def Dev.quarantineWedge (d : Dev) (u : Nat) : Dev :=
  let r := u / 8
  let on := d.tick.items.filter (fun i => i.placed && d.itemUnit i == .wedge && i.units.contains u)
  let d := (d.modUnit .wedge u (fun x => { x with service := .quarantined })).regionTrouble r RegionBit.wedgeFault
  let d := on.foldl (fun d i =>
    let d := if i.queue < 1024 then d.count Counter.reissue i.queue 1 else d
    let d := d.modItem i.id (fun x => { x.returned with phase := .pending, planTick := d.tick.count })
    let v := (d.directUnit .wedge none r).toList
    d.modItem i.id (fun x => { x with units := v })) d
  if (List.range 8).all (fun k => (d.unit .wedge (r * 8 + k)).service == .quarantined) then d.resetRegion r [] else d

/-- WEDGE_FAULT (R76). -/
def execWedgeFault (region : Fin 8) (unit : Fin 8) (atNs : Nat) (s : State) : Out :=
  let u := region.val * 8 + unit.val
  s.onRunning (fun d => d.unitFault .wedge u atNs (fun d => d.quarantineWedge u))

/-! ### HBM errors (R73, R74) -/

/-- HBM_CE: a corrected error, written back (R73). -/
def execHbmCe (region : Fin 8) (s : State) : Out := s.onRunning (fun d => if d.regionIn region.val then d.count Counter.hbmCe region.val 1 else d)

/-- Items that run on a class and satisfy `p`, re-issued. -/
def Dev.reissueWhere (d : Dev) (p : Item → Bool) : Dev := (d.tick.items.filter (fun i => i.phase == .running && i.out.isNone && p i)).foldl Dev.reissueOut d

/-- HBM_UE: one line uncorrectable, handled by what it holds (R74, Table 02-3, R437). -/
def Dev.hbmUe (d : Dev) (r : Nat) (h : HbmHolds) : Dev :=
  if !d.regionIn r then d
  else
    let d := (d.regionTrouble r RegionBit.hbmUe).count Counter.hbmUeCount r 1
    match h with
    | .sample sid pos => d.rerunSample sid pos
    | .weights slot => d.reissueWhere (fun i => i.cls == 2 && i.kind != 0 && kindSlot i.kind == slot)
    | .extentMap => d
    | .context sid => if ((d.stream? sid).map (fun st => st.home == r)).getD false then d.loseStream sid else d
    | .dedup k b => d.loseTableLines k (fun x => x == b)
    | .vocab v =>
      let names := fun (p : Prog) => p.ops.any (fun o => o.vocab? == some v)
      if (d.regionsIn.filter (fun q => q != r)).isEmpty then d.loseStreams (fun _ st => ((d.progOfStream st).map names).getD false)
      else d.reissueWhere (fun i => i.cls == 6 && ((d.kindRec i.kind).map (fun o => o.vocab? == some v)).getD false)
    | .dirty e k => if ((AMap.get? d.face.extents e).map (fun x => decide (0 < x.dirty) && decide (k < pagesOf x.length))).getD false then d.pageUnreadable e k else d
    | .dirtyGranule g => if ((AMap.get? d.face.granules g).map Granule.buffered).getD false then d.granuleUnreadable g else d

/-- HBM_UE (R74). -/
def execHbmUe (region : Fin 8) (holds : HbmHolds) (s : State) : Out := s.onRunning (fun d => d.hbmUe region.val holds)

/-! ### The chip (R82, R458, R723) -/

/-- CORE_FAULT: a Hearth application core leaves service; with none left the device halts (R82). -/
def execCoreFault (core : Fin 8) (s : State) : Out :=
  s.onRunning (fun d =>
    if !d.hearth.cores.contains core.val then d
    else
      let d := d.chipTrouble ChipBit.coreFault
      let d : Dev := { d with hearth := { d.hearth with cores := d.hearth.cores.filter (fun c => c != core.val) } }
      if d.hearth.cores.isEmpty then d.halt else d)

/-- LOCKSTEP_MISMATCH: the safety cores disagree, and the device halts (R82). -/
def execLockstepMismatch (s : State) : Out := s.onRunning (fun d => (d.chipTrouble ChipBit.lockstepMismatch).halt)

/-- HUB_SRAM_UE: a hub SRAM word is rebuilt from a copy, or, with none, the device halts (R723). -/
def execHubSramUe (copyExists : Bool) (s : State) : Out :=
  s.onRunning (fun d =>
    let d := d.chipTrouble ChipBit.hubSramUe
    if copyExists then d else d.halt)

/-- PERMUTE_FAULT: further positions come from firmware, at the same values (R458). -/
def execPermuteFault (s : State) : Out := s.onRunning (fun d => d.chipTrouble ChipBit.permuteFault)

end Sys2Proof.Machine
end

