-- ==== Sys2Proof/Machine/Power.lean ====
section
/-!
DEFINITION. Machine/Power.lean: energy and its attribution, the rails' gains, the steps of the ladder, power states, droop, thermal limits,
the Quench and the hold-up store (R393, R596, R603 to R636, R714).
-/
namespace Sys2Proof.Machine

/-! ### Energy (R603, R606) -/

/-- The rail and the coefficient in watts of a busy unit at a step (Table 18-1). -/
def Dev.busyRate (d : Dev) (s : Nat) (c : UnitClass) (u : Nat) : Nat × Rat :=
  let r := d.regionOfUnit c u
  match c with
  | .cell => (railCell r, 27125 / 100000 * pointGhz (stepPoint s) * pointScale (stepPoint s))
  | .lane => (railRegion r, 12 / 100)
  | .swage => (railRegion r, 15 / 100)
  | .screen => (railRegion r, 12 / 100)
  | .wedge => (railRegion r, 30 / 100)
  | .hammer => (railRegion r, 60 / 100)
  | .block | .die => (railNand, 0)

/-- Energy in J on a rail, charged to a queue: to a tenant at the rail's gain, to nobody for the other queues. -/
def Dev.chargeEnergy (d : Dev) (rail q : Nat) (j : Rat) : Dev :=
  { d with bellows := { d.bellows with
      railJ := modifyAt d.bellows.railJ rail (fun x => x + j)
      tenantJ := if q < 1024 then AMap.upd d.bellows.tenantJ q 0 (fun x => x + d.gain rail * j) else d.bellows.tenantJ } }

/-- The busy time of an item in the running tick, up to `at_` ns after the boundary, charged on its units; the items of a heat share their group's. -/
def Dev.chargeItem (d : Dev) (i : Item) (at_ : Nat) : Dev :=
  let c := d.itemUnit i
  if i.phase != .running || i.out.isSome || c == .die || decide (4 ≤ i.cls && i.cls ≠ 5 && i.cls ≠ 6) then d
  else
    let mates := if i.cls = 2 then d.tick.items.countP (fun j => j.cls == 2 && j.phase == .running && j.units == i.units && j.planTick == i.planTick && j.heat == i.heat) else 1
    let ns : Rat := ((at_ - i.startAt : Nat) : Rat) / (max 1 mates : Nat)
    i.units.foldl (fun d u =>
      let x := d.busyRate d.bellows.step c u
      d.chargeEnergy x.1 i.queue (x.2 * ns / (10 ^ 9 : Nat))) d

/-- Cells that the step clocks in a region: kept, in service and not gated. -/
def Dev.clockedCells (d : Dev) (r : Nat) : Nat :=
  if d.banked then 0
  else sumNat ((d.keptBlocks d.bellows.step r).map (fun b => (d.keptCells d.bellows.step (r * d.B + b)).countP (fun c =>
    let u := d.unit .cell ((r * d.B + b) * 16 + c)
    !u.gated && !u.ungating)))

/-- The power of the idle cells of a region were every clocked cell idle, in watts before the gain. -/
def Dev.idleRate (d : Dev) (r : Nat) : Rat := d.clockedCells r * (30 / 1000) * pointGhz (stepPoint d.bellows.step) * pointScale (stepPoint d.bellows.step)

/-- The energy of a rail in the tick that ends, in J before the gain: its static terms, and its dynamic ones. A busy cell is not idle. -/
def Dev.tickEnergy (d : Dev) (found : BoundaryFound) (rail : Nat) : Rat × Rat :=
  let t : Rat := (d.tick.periodUs : Nat) / (10 ^ 6 : Nat)
  let nb := fun r => (d.keptBlocks d.bellows.step r).length
  let busy := d.bellows.railJ.getD rail 0
  let idle := if rail < 8 then max 0 (d.idleRate rail * t - busy * (30000 / 271250)) else 0
  let bytes := if rail = railHbm then (found.hbmBytes : Rat) * 11 / (10 ^ 12 : Nat) else 0
  (d.railStatic nb rail * t, busy + idle + bytes)

/-- Whole µJ of an energy. -/
def microJ (j : Rat) : Nat := (Rat.floor (j * (10 ^ 6 : Nat))).toNat

/-- The energy of the tick that ends, attributed: each tenant takes what it was charged and its part of the fixed, leakage and Stockpile energy; the
rest goes to ENERGY_UNATTRIBUTED_UJ (R606). -/
def Dev.energyBoundary (d : Dev) (found : BoundaryFound) : Dev :=
  let d := d.tick.items.foldl (fun d i => d.chargeItem i d.periodNs) d
  let d := found.nandBytes.foldl (fun d b => d.chargeEnergy railNand b.1 ((b.2 : Rat) * 1302 / 10 / (10 ^ 12 : Nat))) d
  let es := (List.range 20).map (fun r => (d.gain r, d.tickEnergy found r))
  let total := es.foldl (fun a x => a + x.1 * (x.2.1 + x.2.2)) (0 : Rat)
  let hbm := match es[railHbm]? with | some x => x.1 * x.2.2 | none => 0
  let shared := es.foldl (fun a x => a + x.1 * x.2.1) hbm
  let direct := d.bellows.tenantJ.foldl (fun a p => a + p.2) (0 : Rat)
  let parts := d.bellows.tenantJ.map (fun p => (p.1, if direct = 0 then 0 else microJ (p.2 + shared * p.2 / direct)))
  let d := parts.foldl (fun d p => d.count Counter.energyUj p.1 p.2) d
  let d := d.count Counter.energyUnattributedUj 0 (microJ total - sumNat (parts.map Prod.snd))
  let t : Rat := (d.tick.periodUs : Nat) / (10 ^ 6 : Nat)
  let rails := (List.range d.bellows.rails.length).map (fun r =>
    let x := d.bellows.rails.getD r Rail.init
    match es[r]? with | some e => { x with acc := x.acc + e.2.1 + e.2.2 } | none => x)
  { d with bellows := { d.bellows with
      rails := rails, powerMw := (Rat.floor (total / t * (1000 : Nat))).toNat, railJ := List.replicate 20 0, tenantJ := [] } }

/-! ### Gains (R605) -/

/-- PMBUS_READ: READ_VOUT in mV and READ_IOUT in mA of each rail over 10 ms, none for a read that failed 3 times in a row: its window is left out of
the update and counted (R605, R707). -/
def Dev.pmbusRead (d : Dev) (reads : List (Option (Nat × Nat))) : Dev :=
  let rails := (List.range d.bellows.rails.length).map (fun r =>
    let x := d.bellows.rails.getD r Rail.init
    match (reads[r]?).join with
    | some (mv, ma) => { x with window := (((mv * ma : Nat) : Rat) / (10 ^ 8 : Nat), x.acc) :: x.window, acc := 0 }
    | none => { x with acc := 0 })
  Dev.count { d with bellows := { d.bellows with rails := rails } } Counter.pmbusFail 0
    ((List.range d.bellows.rails.length).countP (fun r => ((reads[r]?).join).isNone))

/-- PMBUS_READ (R605). -/
def execPmbusRead (reads : List (Option (Nat × Nat))) (s : State) : Out := s.onRunning (fun d => d.pmbusRead reads)

/-- A ratio held from 0.80 to 1.25. -/
def holdGain (g : Rat) : Rat := max (80 / 100) (min (125 / 100) g)

/-- The gain of rail `r` after 100 ms, from the windows that were read; with none, or none modelled, it stands (R605). -/
def Dev.updateGain (d : Dev) (r : Nat) : Dev :=
  let x := d.bellows.rails.getD r Rail.init
  let set := fun (d : Dev) (y : Rail) => { d with bellows := { d.bellows with rails := modifyAt d.bellows.rails r (fun _ => y) } }
  let w := x.window.take 10
  let m := w.foldl (fun a e => a + e.1) (0 : Rat)
  let p := w.foldl (fun a e => a + e.2) (0 : Rat)
  if p = 0 then set d { x with window := [] }
  else
    let q := m / p
    let out := decide (q < 80 / 100) || decide (125 / 100 < q)
    let run := if out then x.drift + 1 else 0
    let d := set d { x with gain := holdGain (x.gain + (q - x.gain) / 8), window := [], drift := run }
    if run = 16 then d.event adminWin EventCode.modelDrift 0 [(20, 1, r), (24, 4, (Rat.floor (q * (1000 : Nat))).toNat)] else d

/-- GAIN_UPDATE (R605). -/
def execGainUpdate (s : State) : Out := s.onRunning (fun d => (List.range 20).foldl Dev.updateGain d)

/-! ### Power states (R617 to R623) -/

/-- Whether the device is quiet (R620). -/
def Dev.quiet (d : Dev) : Bool :=
  d.streams.all (fun p => p.2.state != .running && p.2.state != .paused) && d.hearth.wins.all (fun p => p.2.tickets.isEmpty) &&
  d.nvme.cmds.isEmpty && d.dirtyNow == 0 && d.bellows.test.isNone

/-- The state in force (R618). -/
def Dev.stateInForce (d : Dev) : PowerState :=
  if d.bellows.slumber then .slumber
  else if d.bellows.step = d.stepF then .ember
  else if d.banked then .banked
  else if 7 ≤ d.bellows.step then .glow
  else .blaze

/-- The state in force brought up to date; each change posts POWER_STATE (R618). -/
def Dev.settlePower (d : Dev) : Dev :=
  let n := d.stateInForce
  let o := d.bellows.inForce
  if n = o then d
  else
    let d : Dev := { d with bellows := { d.bellows with inForce := n } }
    d.event adminWin EventCode.powerState 0 [(20, 1, n.code), (21, 1, o.code), (24, 2, d.bellows.step)]

/-- Exit latency of a state in µs (Table 18-5). -/
def PowerState.exitUs : PowerState → Nat
  | .blaze => 0
  | .glow => 2
  | .banked => 20
  | .ember => 2000
  | .slumber => 25000

/-- The two requests replaced: a target shallower than the state in force is to be reached within the exit latency (R617, R621, R622). -/
def Dev.setRequests (d : Dev) (admin storage : PowerState) : Dev :=
  let old := d.powerTarget
  let changed := decide (admin ≠ d.bellows.adminReq) || decide (storage ≠ d.bellows.storageReq)
  let d : Dev := { d with bellows := { d.bellows with adminReq := admin, storageReq := storage } }
  let d := if changed then d.wakeUp else d
  if decide (d.powerTarget.code < old.code) && decide (d.powerTarget.code < d.bellows.inForce.code) then
    { d with bellows := { d.bellows with exiting := true } }
  else d

/-- POWER_STATE_SET (R623). -/
def cmdPowerStateSet : Cmd :=
  { opcode := 0x0907
    admin := true
    check := fun _ x =>
      { lenOk := x.r.len == 8
        rsvOk := x.rsv 1 7
        field := needs (decide (x.get 0 1 ≤ 4)) Status.fieldInvalid }
    run := fun d x _ =>
      let d := d.setRequests (PowerState.ofCode (x.get 0 1)) d.bellows.storageReq
      let f := d.bellows.inForce
      let t := d.powerTarget
      let reply := leBytes 1 f.code ++ leBytes 1 d.bellows.adminReq.code ++ leBytes 1 d.bellows.storageReq.code ++ leBytes 1 t.code ++
        leBytes 4 (if t.code < f.code then f.exitUs else 0)
      { dev := d.settlePower, payload := reply } }

/-- POWER_STATE_SET (R623). -/
def execPowerStateSet (w : Window) (r : Request) (s : State) : Out := s.onDoorbell cmdPowerStateSet w r

/-- SLUMBER_ENTRY: the target is Slumber and the device is quiet (R620). -/
def Dev.enterSlumber (d : Dev) : Dev :=
  if d.powerTarget = .slumber && d.quiet && !d.bellows.slumber && (d.hearth.state == .ready || d.hearth.state == .hold) then
    Dev.settlePower { d with bellows := { d.bellows with slumber := true, wake := false } }
  else d

/-- SLUMBER_ENTRY (R620). -/
def execSlumberEntry (s : State) : Out := s.onRunning Dev.enterSlumber

/-- SLUMBER_EXIT: something has made the device not quiet, or the target is no longer Slumber (R621). A member of a group that has
a reference makes no boundary until it meets it (R597). -/
def Dev.exitSlumber (d : Dev) : Dev :=
  if d.bellows.slumber && (d.bellows.wake || !d.quiet || d.powerTarget != .slumber) then
    let d : Dev := { d with bellows := { d.bellows with slumber := false, wake := false, lpoLost := false, exiting := true } }
    let waits := match d.group.member with
      | some m => m.role == 2 || (m.ptpEn && d.group.base.isSome)
      | none => false
    let d : Dev := { d with group := { d.group with awaiting := d.group.awaiting || waits } }
    d.settlePower
  else d

/-- SLUMBER_EXIT (R621). -/
def execSlumberExit (s : State) : Out := s.onRunning Dev.exitSlumber

/-- POWER_STATE_EXIT_DONE: the configuration of the shallower state is reached; admission resumes from the first plan frozen after it (R622). -/
def execPowerStateExitDone (s : State) : Out :=
  s.onRunning (fun d => if d.bellows.exiting then Dev.settlePower { d with bellows := { d.bellows with exiting := false } } else d)

/-- LPO_CLK_LOSS: in Slumber the tick count does not advance (R714). -/
def execLpoClkLoss (s : State) : Out :=
  s.onRunning (fun d => if d.bellows.slumber then { d with bellows := { d.bellows with lpoLost := true } } else d)

/-! ### The ladder's step takes effect (R607 to R610) -/

/-- A unit gated or restored. -/
def Dev.gateUnit (d : Dev) (c : UnitClass) (u : Nat) (keep : Bool) : Dev :=
  let x := d.unit c u
  if !x.service.isIn then d
  else if keep && x.gated then d.modUnit c u (fun x => { x with gated := false, ungating := true })
  else if !keep && !x.gated then
    let on := d.tick.items.filter (fun i => i.placed && decide (i.cls < 7) &&
      (if c = .block then i.units.any (fun v => inBlockOf (d.itemUnit i) u v) else d.itemUnit i == c && i.units.contains u))
    let d := d.modUnit c u (fun x => { x with gated := true, ungating := false })
    let d := if c = .block then (d.pullLines (d.regionOfBlock u) (u % d.B)).leaveLaunch (fun k => k / 16 == u) else d.leaveLaunch (fun k => k == u)
    on.foldl Dev.reissueOut d
  else d

/-- The blocks and cells that the step in force keeps, and those that it removes (R608, R609). -/
def Dev.gateUnits (d : Dev) : Dev :=
  let s := d.bellows.step
  (List.range d.numBlocks).foldl (fun d g =>
    let d := d.gateUnit .block g ((d.keptBlocks s (d.regionOfBlock g)).contains (g % d.B))
    let kept := d.keptCells s g
    (List.range 16).foldl (fun d c => d.gateUnit .cell (g * 16 + c) (kept.contains c)) d) d

/-- The step chosen for the tick that begins (R612): LADDER_DOWN and LADDER_UP count the steps moved. -/
def Dev.applyStep (d : Dev) : Dev :=
  let old := d.bellows.step
  let new := d.boundaryStep
  let d : Dev := { d with bellows := { d.bellows with step := new, nextStep := none } }
  let d := (d.count Counter.ladderDown 0 (new - old)).count Counter.ladderUp 0 (old - new)
  (if new ≤ 10 && old ≤ 10 then d else d.gateUnits).settlePower

/-- UNIT_UNGATED: a restored unit is up (R609). -/
def execUnitUngated (unit : Nat) (s : State) : Out :=
  s.onRunning (fun d => d.modUnit (UnitClass.ofCode (unit / 65536)) (unit % 65536) (fun x => { x with ungating := false }))

/-! ### Droop (R393, R614) -/

/-- DROOP_DETECT: an episode of a block; more than 256 in a tick set the droop ceiling (R393, R614). -/
def Dev.droopDetect (d : Dev) (g : Nat) : Dev :=
  if !d.blockIn g || (d.block g).drooped then d
  else
    let d := (d.modBlock g (fun x => { x with drooped := true })).count Counter.droopStretch g 1
    let n := d.bellows.stretches + 1
    let d : Dev := { d with bellows := { d.bellows with stretches := n } }
    if n = 257 then
      Dev.count { d with bellows := { d.bellows with droop := some (min d.stepF (d.bellows.step + 1), d.tick.count + 2500) } } Counter.droopLimit 0 1
    else d

/-- DROOP_DETECT (R393). -/
def execDroopDetect (block : BlockRef) (s : State) : Out := s.onRunning (fun d => match d.blockOf block with | some g => d.droopDetect g | none => d)

/-- DROOP_RECOVER: the cells return to the nominal period (R393). -/
def execDroopRecover (block : BlockRef) (s : State) : Out :=
  s.onRunning (fun d => match d.blockOf block with
    | some g => if (d.block g).drooped then d.modBlock g (fun x => { x with drooped := false }) else d
    | none => d)

/-- DROOP_CEILING_EXPIRE: 2,500 ticks after its last trigger the ceiling is gone (R614). -/
def execDroopCeilingExpire (s : State) : Out :=
  s.onRunning (fun d => match d.bellows.droop with
    | some (_, t) => if t ≤ d.tick.count then { d with bellows := { d.bellows with droop := none } } else d
    | none => d)

/-! ### Thermal limits (R624 to R628) -/

/-- The hottest die. -/
def Dev.hottestDie (d : Dev) : Nat :=
  ((List.range d.bellows.temps.length).foldl (fun b k => if d.temp b < d.temp k then k else b) 0)

/-- A THERMAL event. -/
def Dev.thermalEvent (d : Dev) (v : Nat) : Dev :=
  let h := d.hottestDie
  d.event adminWin EventCode.thermal 0 [(20, 1, v), (22, 2, h), (24, 4, (d.temp h % (2 ^ 32 : Nat)).toNat)]

/-- Temperatures read at a boundary, and the thermal cap (R624, R625); CAP_AT_FLOOR when the floor rises above C_set (R616). -/
def Dev.thermalBoundary (d : Dev) (temps : List Int) : Dev :=
  let low := decide (d.pFloor ≤ d.capSet)
  let d : Dev := { d with bellows := { d.bellows with temps := (List.range 9).map (fun k => temps.getD k 0) } }
  let d := if low && decide (d.capSet < d.pFloor) then d.chipTrouble ChipBit.capAtFloor else d
  let c : Rat := d.capInForce
  let cap := fun (x : Option Rat) => { d with bellows := { d.bellows with cTh := x } }
  let hot := d.bellows.temps.any (fun t => decide (95000 ≤ t))
  let cool := d.bellows.temps.all (fun t => decide (t < 93000))
  let d := match d.bellows.cTh with
    | none => if hot then ((cap (some (98 / 100 * min c (d.pPred d.bellows.step)))).chipTrouble ChipBit.thermalThrottle).thermalEvent 1 else d
    | some t =>
      if hot then cap (some (98 / 100 * min t (d.pPred d.bellows.step)))
      else if cool then (if c ≤ t + c / 100 then (cap none).thermalEvent 2 else cap (some (t + c / 100)))
      else d
  if d.bellows.cTh.isSome then d.count Counter.throttleTicks 0 1 else d

/-- E_u reported to the Face (R633). -/
def Dev.reportEu (d : Dev) (e : Rat) : Dev := Dev.setPermit { d with bellows := { d.bellows with euReported := e } } e

/-- The thermal emergency: C_eff is the floor from the next boundary, and E_u is reported as 0 until it ends (R626). -/
def Dev.emergencyBoundary (d : Dev) : Dev :=
  if !d.bellows.emergency && d.bellows.temps.any (fun t => decide (105000 ≤ t)) then
    (Dev.reportEu { d with bellows := { d.bellows with emergency := true } } 0).thermalEvent 3
  else if d.bellows.emergency && d.bellows.temps.all (fun t => decide (t < 95000)) then
    (Dev.reportEu { d with bellows := { d.bellows with emergency := false } } d.bellows.euTest).thermalEvent 4
  else d

/-- QUENCH_TRIP: a comparator reads at least 110 °C; every clock stops, THERMTRIP_L is asserted, and the die and sensor are latched; no flush runs, and
one that runs stops (R627, R628). -/
def execQuenchTrip (die sensor : Nat) (s : State) : Out :=
  s.onDev (fun d => if d.boot.held != 0 || d.bellows.tripped then d else { d with
    bellows := { d.bellows with tripped := true, quench := some (die, sensor) }
    face := { d.face with flushing := false }
    boot := { d.boot with pins := { d.boot.pins with thermtripL := false } } })

/-- STANDBY_POWER_LOSS: the always-on well loses the pending pool sizes, the Quench latch and the rail-fault records (R114, R628, R712). -/
def execStandbyPowerLoss (s : State) : Out :=
  s.onDev (fun d => { d with
    bellows := { d.bellows with quench := none }
    boot := { d.boot with pendPools := [none, none, none, none], railFaults := [] } })

/-! ### The hold-up store (R629 to R634) -/

/-- Whether the bank is present (R629). -/
def Dev.bankPresent (d : Dev) : Bool := decide (4000 ≤ d.bellows.bankMv)

/-- Whether 10 s have passed since the last test ended; the device's clock stands while the tick generator does (R631). -/
def Dev.testCooled (d : Dev) : Bool :=
  match d.bellows.testEnd with
  | none => true
  | some e => !d.tick.running || decide (e + 10000000000 ≤ d.tick.clockNs)

/-- Whether a test can start (R631). -/
def Dev.testCanStart (d : Dev) : Bool :=
  d.bellows.test.isNone && !d.face.pfailLow && !d.face.flushing && d.bankPresent && d.testCooled && !d.bellows.slumber &&
  decide (98 * d.bellows.vFull ≤ 100 * d.bellows.bankMv)

/-- A test started: V1 is the bank voltage, and HOLD_TEST is asserted (Table 18-6). -/
def Dev.startTest (d : Dev) (ticket : Option (Nat × Nat)) : Dev :=
  { d with bellows := { d.bellows with
      test := some { ticket := ticket, v1 := d.bellows.bankMv, tick := d.tick.count }, holdTestPin := true, testDue := false, dueTicket := none } }

/-- HOLDUP_TEST_DUE: a test that cannot start waits and is retried; an absent bank is reported (R630, R632). -/
def Dev.testFallsDue (d : Dev) : Dev :=
  if d.bellows.test.isSome then d
  else if d.testCanStart then d.startTest d.bellows.dueTicket
  else
    let d : Dev := { d with bellows := { d.bellows with testDue := true } }
    if d.bankPresent then d else d.event adminWin EventCode.holdupTestFail 0 [(20, 1, 2)]

/-- HOLDUP_TEST_DUE (R630). -/
def execHoldupTestDue (s : State) : Out := s.onRunning Dev.testFallsDue

/-- Whether the Bellows can measure: the status that refuses HOLDUP_MEASURE (R634). -/
def Dev.measureRefusal (d : Dev) : Option Status :=
  if d.bellows.test.isSome || d.face.flushing || d.face.pfailLow || !d.testCooled || d.bellows.emergency then some Status.holdupBusy
  else needs d.bankPresent Status.holdupNoBank

/-- HOLDUP_MEASURE (R634). -/
def cmdHoldupMeasure : Cmd :=
  { opcode := 0x0906
    since := 0x0302
    admin := true
    ticketed := true
    check := fun d x =>
      { lenOk := x.r.len == 0
        sgl := true
        sglOk := decide (64 ≤ sglBytes x.r.sgl)
        own := d.measureRefusal }
    run := fun d x n =>
      { dev := if d.testCanStart then d.startTest (some (x.w, n)) else { d with bellows := { d.bellows with testDue := true, dueTicket := some (x.w, n) } } } }

/-- HOLDUP_MEASURE (R634). -/
def execHoldupMeasure (w : Window) (r : Request) (s : State) : Out := s.onDoorbell cmdHoldupMeasure w r

/-- A hold-up report (Table 18-7). -/
def Dev.holdupReport (d : Dev) (t : HoldTest) (status v2 dt : Nat) (c : Rat) : List Byte :=
  leBytes 2 status ++ zeros 2 ++ leBytes 4 t.v1 ++ leBytes 4 v2 ++ leBytes 4 dt ++ leBytes 4 (microJ c) ++
  leBytes 4 (Rat.floor (d.bellows.euReported * (1000 : Nat))).toNat ++ leBytes 8 t.tick ++ zeros 32

/-- A test ends: HOLD_TEST is released, and the ticket of a HOLDUP_MEASURE completes with its status and report. -/
def Dev.endTest (d : Dev) (t : HoldTest) (status v2 dt : Nat) (c : Rat) : Dev :=
  let d : Dev := { d with bellows := { d.bellows with test := none, holdTestPin := false, testEnd := some d.tick.clockNs } }
  match t.ticket with
  | none => d
  | some (w, n) => match d.ticket? w n with
    | none => d
    | some k => (d.writeSgl (fnOf w) k.sgl 0 (d.holdupReport t status v2 dt c)).completeTicket w n status 64

/-- HOLDUP_TEST_DONE: the bank has fallen to the stop level after `dt` µs, at `v2` mV; C and E_u follow (Table 18-6). -/
def Dev.testDone (d : Dev) (dt v2 : Nat) : Dev :=
  match d.bellows.test with
  | none => d
  | some t =>
    if t.v1 ≤ v2 || decide (1000000 < dt) then d
    else
      let c : Rat := (2 * dt : Nat) / (1000 * (t.v1 - v2) : Nat)
      let e : Rat := 375 / 1000 * c * ((t.v1 * t.v1 : Nat) / (1000000 : Nat))
      let d : Dev := { d with bellows := { d.bellows with cap := c, vFull := t.v1, euTest := e } }
      let d := (if d.bellows.emergency then d else d.reportEu e).count Counter.holdupTestRun 0 1
      d.endTest t Status.success v2 dt c

/-- HOLDUP_TEST_DONE (R631). -/
def execHoldupTestDone (dtUs v2Mv : Nat) (s : State) : Out := s.onRunning (fun d => d.testDone dtUs v2Mv)

/-- HOLDUP_TEST_TIMEOUT: the voltage has not reached the stop level within 1 s; E_u is 0 (R632). -/
def Dev.testTimeout (d : Dev) : Dev :=
  match d.bellows.test with
  | none => d
  | some t =>
    let d : Dev := { d with bellows := { d.bellows with euTest := 0 } }
    ((d.reportEu 0).event adminWin EventCode.holdupTestFail 0 [(20, 1, 1)]).endTest t Status.holdupTestFailed 0 0 0

/-- HOLDUP_TEST_TIMEOUT (R632). -/
def execHoldupTestTimeout (s : State) : Out := s.onRunning Dev.testTimeout

/-- A test that a fall of PFAIL_L ends: the previous E_u stands (R632). -/
def Dev.abortTest (d : Dev) : Dev :=
  match d.bellows.test with
  | none => d
  | some t => (d.count Counter.holdupTestAbort 0 1).endTest t Status.holdupAborted 0 0 0

/-- The bank at a boundary: E_now, and the lesser of it and the last test's E_u when it has moved by more than 5 % (R629, R633). -/
def Dev.bankBoundary (d : Dev) (mv : Nat) : Dev :=
  let d : Dev := { d with bellows := { d.bellows with bankMv := mv } }
  let last := d.bellows.euReported
  if d.bellows.emergency then d
  else if !d.bankPresent then (if last = 0 then d else d.reportEu 0)
  else if d.bellows.test.isSome || !d.testCooled then d
  else
    let v : Rat := (mv : Rat) / 1000
    let f : Rat := (d.bellows.vFull : Rat) / 2000
    let now := max 0 (d.bellows.cap * (v * v - f * f) / 2)
    let e := min now d.bellows.euTest
    if decide (e < 95 / 100 * last) || decide (105 / 100 * last < e) then d.reportEu e else d

end Sys2Proof.Machine
end

