-- ==== Sys2Proof/Machine/Storage.lean ====
section
/-!
DEFINITION. Machine/Storage.lean: submission and completion of the commands of PF0, and its NVM commands: reads, writes and deallocation
(R641 to R648, R651, R654, R657).
-/
namespace Sys2Proof

/-- SLBA of a Read, a Write or a Write Zeroes. -/
def NvmeRequest.lba (c : NvmeRequest) : Nat := c.cdw10 % 2 ^ 32 + 2 ^ 32 * (c.cdw11 % 2 ^ 32)

/-- The number of its blocks. -/
def NvmeRequest.blocks (c : NvmeRequest) : Nat := c.cdw12 % 65536 + 1

end Sys2Proof
namespace Sys2Proof.Machine

/-! ### Submission and completion (R640, R651, R654) -/

/-- CSTS.RDY (R674). -/
def Dev.nvmeReady (d : Dev) : Bool := d.nvme.ccEn && d.hearth.state == .ready

/-- A status code type and code of NVMe 2.0, which the spec names in words; the values are the standard's (PRESUMED). -/
structure NvmeStatus where
  sct : Nat
  sc : Nat
  deriving DecidableEq, Repr

def NvmeStatus.ok : NvmeStatus := ⟨0, 0x00⟩
def NvmeStatus.invalidOpcode : NvmeStatus := ⟨0, 0x01⟩
def NvmeStatus.invalidField : NvmeStatus := ⟨0, 0x02⟩
def NvmeStatus.abortRequested : NvmeStatus := ⟨0, 0x07⟩
def NvmeStatus.abortedSqDeletion : NvmeStatus := ⟨0, 0x08⟩
def NvmeStatus.invalidNamespace : NvmeStatus := ⟨0, 0x0B⟩
def NvmeStatus.sequenceError : NvmeStatus := ⟨0, 0x0C⟩
def NvmeStatus.sanitizing : NvmeStatus := ⟨0, 0x1D⟩
def NvmeStatus.lbaRange : NvmeStatus := ⟨0, 0x80⟩
def NvmeStatus.capacity : NvmeStatus := ⟨0, 0x81⟩
def NvmeStatus.cqInvalid : NvmeStatus := ⟨1, 0x00⟩
def NvmeStatus.queueId : NvmeStatus := ⟨1, 0x01⟩
def NvmeStatus.queueSize : NvmeStatus := ⟨1, 0x02⟩
def NvmeStatus.aerLimit : NvmeStatus := ⟨1, 0x05⟩
def NvmeStatus.interruptVector : NvmeStatus := ⟨1, 0x08⟩
def NvmeStatus.logPage : NvmeStatus := ⟨1, 0x09⟩
def NvmeStatus.queueDeletion : NvmeStatus := ⟨1, 0x0C⟩
def NvmeStatus.notSaveable : NvmeStatus := ⟨1, 0x0D⟩
def NvmeStatus.testRuns : NvmeStatus := ⟨1, 0x1D⟩
def NvmeStatus.readOnly : NvmeStatus := ⟨1, 0x82⟩
def NvmeStatus.unrecovered : NvmeStatus := ⟨2, 0x81⟩

/-- A completion, with its result dword; one with an error is the last entry of the Error log. -/
def Dev.nvmeDone (d : Dev) (sq cid : Nat) (st : NvmeStatus) (result : Nat) : Dev :=
  let d := d.emit (.nvmeCompletion sq cid st.sct st.sc result)
  if st = .ok then d
  else { d with nvme := { d.nvme with errorCount := d.nvme.errorCount + 1, lastError := some (sq, cid, st.sct * 256 + st.sc) } }

/-- A self-test that a command has suspended resumes once none is outstanding (R654). -/
def Dev.resumeTest (d : Dev) : Dev :=
  if d.nvme.cmds.isEmpty then { d with nvme := { d.nvme with test := d.nvme.test.map (fun t => { t with suspended := false }) } } else d

/-- What a submission does before the command is served: the storage request returns to the state last set, the device leaves Slumber, and a
self-test that runs is suspended (R651, R621, R654). -/
def Dev.nvmeSubmit (d : Dev) : Dev :=
  let d := (d.setRequests d.bellows.adminReq d.bellows.storageSet).settlePower.wakeUp
  match d.nvme.test with
  | some t =>
    if t.suspended then d
    else Dev.count { d with nvme := { d.nvme with test := some { t with suspended := true } } } Counter.selftestSuspend 0 1
  | none => d

/-- A command of PF0 taken from its submission queue: it is served while PF0 is ready and the queue is there; I/O ends with Sanitize In Progress
while a sanitize runs (R657). -/
def Dev.onNvme (d : Dev) (c : NvmeRequest) (io : Bool) (f : Dev → Dev) : Dev :=
  if d.stopped || !d.nvmeReady || (if io then !AMap.has d.nvme.sqs c.sq else c.sq != 0) then d
  else
    let d := d.nvmeSubmit
    (if io && d.nvme.sanitize.isSome then d.nvmeDone c.sq c.cid .sanitizing 0 else f d).resumeTest

/-- A command served at once. -/
def Dev.nvmeReply (d : Dev) (c : NvmeRequest) (st : NvmeStatus) : Dev := d.nvmeDone c.sq c.cid st 0

/-! ### Namespaces (R643, R644) -/

/-- Bytes of a logical block. -/
def lbaBytes : Nat := 4096

/-- Whether a namespace is attached: the scratch namespace, or a dataset's. -/
def Dev.nsActive (d : Dev) (n : Nat) : Bool := n == 1 || (decide (2 ≤ n) && d.nvme.attached.contains (n - 2))

/-- NSZE. -/
def Dev.nsSize (d : Dev) (n : Nat) : Nat := if n = 1 then 4 * d.granuleLimit else d.usable / lbaBytes

/-- The dataset of a namespace: none once it is discarded (R648). -/
def Dev.nsDataset (d : Dev) (n : Nat) : Option Dataset := if n < 2 then none else AMap.get? d.face.datasets (n - 2)

/-- NUSE. -/
def Dev.nsUsed (d : Dev) (n : Nat) : Nat :=
  if n = 1 then 4 * d.face.granules.length else ((d.nsDataset n).map (fun t => ceilDiv t.length lbaBytes)).getD 0

/-- What refuses a Read or a Write at once: no such namespace, more than MDTS, or LBAs beyond NSZE. -/
def Dev.lbaRefusal (d : Dev) (c : NvmeRequest) (moves : Bool) : Option NvmeStatus :=
  if !d.nsActive c.nsid then some .invalidNamespace
  else if moves && decide (512 < c.blocks) then some .invalidField
  else if d.nsSize c.nsid < c.lba + c.blocks then some .lbaRange
  else none

/-! ### Granules (R224, R228, R647) -/

/-- The data of a granule: zeros when it is unmapped. -/
def Dev.granuleData (d : Dev) (g : Nat) : List Byte := padTo (((AMap.get? d.face.granules g).map Granule.data).getD []) pageBytes

/-- A granule written whole: its data wait in the flash write buffer, and it is readable again (R245). -/
def Dev.writeGranule (d : Dev) (g : Nat) (bs : List Byte) : Dev :=
  let d := (d.dropGranulePage g).journal 1 g
  { d with face := { d.face with granules := AMap.set d.face.granules g { data := bs, unreadable := false, buffered := true, flushed := false, spn := 0 } } }

/-- A granule unmapped. -/
def Dev.unmapGranule (d : Dev) (g : Nat) : Dev :=
  if AMap.has d.face.granules g then
    let d := (d.dropGranulePage g).journal 1 g
    { d with face := { d.face with granules := AMap.del d.face.granules g } }
  else d

/-- The granules of blocks `lba` to `lba + n - 1`. -/
def granulesOf (lba n : Nat) : List Nat := if n = 0 then [] else (List.range ((lba + n - 1) / 4 - lba / 4 + 1)).map (fun i => lba / 4 + i)

/-- Blocks of the scratch namespace written, merged into what their granules hold (R647). -/
def Dev.writeScratch (d : Dev) (lba n : Nat) (bs : List Byte) : Dev :=
  (granulesOf lba n).foldl (fun d g =>
    let lo := max lba (4 * g)
    let hi := min (lba + n) (4 * g + 4)
    d.writeGranule g (overlay (d.granuleData g) (lbaBytes * (lo - 4 * g)) (bytesAt bs (lbaBytes * (lo - lba)) (lbaBytes * (hi - lo))))) d

/-- Blocks deallocated: whole granules are unmapped, and parts of granules take zeros (R647). -/
def Dev.deallocate (d : Dev) (lba n : Nat) : Dev :=
  (granulesOf lba n).foldl (fun d g =>
    let lo := max lba (4 * g)
    let hi := min (lba + n) (4 * g + 4)
    if hi - lo = 4 then d.unmapGranule g
    else if AMap.has d.face.granules g then d.writeGranule g (overlay (d.granuleData g) (lbaBytes * (lo - 4 * g)) (zeros (lbaBytes * (hi - lo))))
    else d) d

/-! ### Write (R238, R645, R648) -/

/-- A command that waits, added. -/
def Dev.holdCmd (d : Dev) (c : NvmeRequest) (kind : Nat) (owes : List (Nat × Nat)) (data : List Byte) : Nat × Dev :=
  let id := d.nvme.nextCmd
  let x : NvmeCmd := { id := id, sq := c.sq, cid := c.cid, kind := kind, nsid := c.nsid, lba := c.lba, blocks := c.blocks, owes := owes, data := data }
  (id, { d with nvme := { d.nvme with cmds := d.nvme.cmds ++ [x], nextCmd := id + 1 } })

/-- A waiting command gone. -/
def Dev.dropCmd (d : Dev) (id : Nat) : Dev := { d with nvme := { d.nvme with cmds := d.nvme.cmds.filter (fun c => c.id != id) } }

/-- Chunks of an extent that `n` bytes added at its end touch and that are not waiting to be programmed yet. -/
def touchedChunks (x : Extent) (n : Nat) : Nat :=
  let t := chunksOf (x.length + n) - x.length / chunkBytes
  if x.length % chunkBytes ≠ 0 && 0 < x.dirty then t - 1 else t

/-- Bytes that join the open extent of dataset `k`, which is opened, and closed when it is full: the chunks that they owe, by extent (R645). -/
def Dev.joinExtent (fuel k : Nat) (bs : List Byte) (d : Dev) : List (Nat × Nat) × Dev :=
  match fuel with
  | 0 => ([], d)
  | f + 1 =>
    match AMap.get? d.face.datasets k with
    | none => ([], d)
    | some t => match t.openExtent.bind (fun e => (AMap.get? d.face.extents e).map (fun x => (e, x))) with
      | some (e, x) =>
        let n := min bs.length (2 ^ 30 - x.length)
        let m := touchedChunks x n
        let d := d.modExtent e (fun y => { y with data := y.data ++ bs.take n, length := y.length + n })
        let d := d.modDataset k (fun t => { t with length := t.length + n })
        let d := if x.length + n = 2 ^ 30 then d.closeOpenExtent k else d
        let (l, d) := if bs.length ≤ n then ([], d) else Dev.joinExtent f k (bs.drop n) d
        ((e, m) :: l, d)
      | none => match d.freeExtent with
        | none => ([], d)
        | some e =>
          let pad := (lbaBytes - t.length % lbaBytes) % lbaBytes
          let n := min bs.length (2 ^ 30 - pad)
          let d := d.addExtent e k (zeros pad ++ bs.take n) none 0 true
          let d := (d.modDataset k (fun t => { t with openExtent := some e })).makeDurable e
          let d := if pad + n = 2 ^ 30 then d.closeOpenExtent k else d
          let (l, d) := if bs.length ≤ n then ([], d) else Dev.joinExtent f k (bs.drop n) d
          ((e, chunksOf (pad + n)) :: l, d)

/-- Chunks that become dirty, by extent; an extent discarded meanwhile owes nothing. -/
def Dev.addDirty (d : Dev) (owes : List (Nat × Nat)) : Dev :=
  owes.foldl (fun d o => d.modExtentQuiet o.1 (fun x => if x.state = .discarded then x else { x with dirty := x.dirty + o.2, buffered := true, flushed := false })) d

/-- Chunks owed. -/
def owedChunks (owes : List (Nat × Nat)) : Nat := sumNat (owes.map Prod.snd)

/-- The LBA at which a Write of a dataset namespace must start. -/
def Dataset.appendLba (t : Dataset) : Nat := ceilDiv t.length lbaBytes

/-- Pages by which a Write of `n` bytes adds to the extents of a dataset. -/
def Dev.newPages (d : Dev) (t : Dataset) (n : Nat) : Nat :=
  match t.openExtent.bind (fun e => AMap.get? d.face.extents e) with
  | some x => pagesOf (x.length + n) - pagesOf x.length
  | none => pagesOf (n + (lbaBytes - t.length % lbaBytes) % lbaBytes)

/-- A Write of a dataset namespace (R645). -/
def Dev.writeDataset (d : Dev) (c : NvmeRequest) : Dev :=
  let n := lbaBytes * c.blocks
  match d.nsDataset c.nsid with
  | none => d.nvmeReply c .readOnly
  | some t =>
    if t.sealed_ then d.nvmeReply c .readOnly
    else if c.lba ≠ t.appendLba then d.nvmeReply c .invalidField
    else if decide (d.usable < d.validBytes + pageBytes * d.newPages t n) || d.freeExtent.isNone then d.nvmeReply c .capacity
    else
      let (owes, d) := Dev.joinExtent 3 (c.nsid - 2) (padTo c.data n) d
      let d := d.count Counter.nvmeWriteBytes 0 n
      if d.dirtyRoom (chunkBytes * owedChunks owes) then (d.addDirty owes).nvmeReply c .ok
      else ((d.holdCmd c 1 owes []).2).count Counter.writeStall 0 1

/-- A Write of the scratch namespace; one that finds no room, or waits behind another, waits (R238, R647). -/
def Dev.writeScratchCmd (d : Dev) (c : NvmeRequest) : Dev :=
  let n := lbaBytes * c.blocks
  let waits := d.nvme.cmds.any (fun x => x.kind == 1 && x.nsid == 1)
  if !waits && d.dirtyRoom (pageBytes * (granulesOf c.lba c.blocks).length) then (d.writeScratch c.lba c.blocks (padTo c.data n)).nvmeReply c .ok
  else ((d.holdCmd c 1 [] (padTo c.data n)).2).count Counter.writeStall 0 1

/-- NVME_WRITE (R645, R647). -/
def Dev.nvmeWrite (d : Dev) (c : NvmeRequest) : Dev :=
  match d.lbaRefusal c true with
  | some s => d.nvmeReply c s
  | none => if c.nsid = 1 then (d.count Counter.nvmeWriteBytes 0 (lbaBytes * c.blocks)).writeScratchCmd c else d.writeDataset c

/-- Write (R645). -/
def execNvmeWrite (c : NvmeRequest) (s : State) : Out := s.onDev (fun d => d.onNvme c true (fun d => d.nvmeWrite c))

/-- Writes that wait are admitted in order while they fit, and complete (R238, R645). -/
def Dev.admitNvme (d : Dev) : Dev :=
  (d.nvme.cmds.filter (fun c => c.kind == 1)).foldl (fun d c =>
    let need := if c.nsid = 1 then pageBytes * (granulesOf c.lba c.blocks).length else chunkBytes * owedChunks c.owes
    let first := ((d.nvme.cmds.filter (fun x => x.kind == 1 && x.nsid == c.nsid)).head?).map NvmeCmd.id
    if first ≠ some c.id || !d.dirtyRoom need then d
    else
      let d := d.dropCmd c.id
      let d := if c.nsid = 1 then d.writeScratch c.lba c.blocks c.data else d.addDirty c.owes
      (d.nvmeDone c.sq c.cid .ok 0).resumeTest) d

/-- A Write that does not fit under the permit, programmed straight to the NAND by `n` chunks that are left over: the chunks left. -/
def Dev.programWaiting (n : Nat) (d : Dev) : Nat × Dev :=
  match d.nvme.cmds.find? (fun c => c.kind == 1) with
  | none => (n, d)
  | some c =>
    let need := if c.nsid = 1 then ceilDiv (granulesOf c.lba c.blocks).length 4 else owedChunks c.owes
    if n < need || d.dirtyRoom (chunkBytes * need) then (n, d)
    else
      let d := d.dropCmd c.id
      let d := if c.nsid = 1 then (granulesOf c.lba c.blocks).foldl Dev.programGranule (d.writeScratch c.lba c.blocks c.data) else d
      (n - need, (d.nvmeDone c.sq c.cid .ok 0).resumeTest)

/-- WRITE_PERMIT_ROOM: `n` chunks of the flash write buffer are programmed, and the writes that wait become durable (R238). -/
def Dev.permitRoom (d : Dev) (n : Nat) : Dev :=
  if d.bellows.slumber then d
  else
    let (left, d) := d.programChunks n
    let d := d.admitNvme
    (Dev.programWaiting left d).2

/-- WRITE_PERMIT_ROOM (R238). -/
def execWritePermitRoom (chunks : Nat) (s : State) : Out := s.onRunning (fun d => d.permitRoom chunks)

/-! ### Read (R646) -/

/-- The pages of extents that a Read of a dataset namespace reads. -/
def Dev.nvmePages (d : Dev) (nsid lba blocks : Nat) : List (Nat × Nat) :=
  match d.nsDataset nsid with
  | none => []
  | some t => d.rangePages t (lbaBytes * lba) (lbaBytes * blocks)

/-- The dies that hold what a Read reads, with the pages on each. -/
def Dev.nvmeDies (d : Dev) (nsid lba blocks : Nat) : List (Nat × Nat) :=
  if nsid = 1 then
    let ds := (granulesOf lba blocks).filterMap (fun g => match (AMap.get? d.face.granules g).bind d.granulePlace with
      | none => none
      | some (b, pos) => (AMap.get? d.face.benches b).bind (fun y => y.dieAt pos))
    (sortByKey id ds.eraseDups).map (fun n => (n, ds.countP (fun m => m == n)))
  else d.readDies (d.nvmePages nsid lba blocks)

/-- Blocks of a Read that lie before the first page recorded unreadable (R646). -/
def Dev.blocksBefore (d : Dev) (nsid lba blocks : Nat) : Nat :=
  if nsid = 1 then
    ((List.range blocks).find? (fun i => ((AMap.get? d.face.granules ((lba + i) / 4)).map Granule.unreadable).getD false)).getD blocks
  else
    let bad := (d.nvmePages nsid lba blocks).filterMap (fun p => (AMap.get? d.face.extents p.1).bind (fun x =>
      if x.unreadable.contains p.2 then some (x.offset + p.2 * pageBytes) else none))
    match argMin id bad with
    | none => blocks
    | some o => min blocks (o / lbaBytes - lba)

/-- The bytes of blocks of a namespace. -/
def Dev.nvmeBytes (d : Dev) (nsid lba blocks : Nat) : List Byte :=
  if nsid = 1 then
    bytesAt ((granulesOf lba blocks).flatMap d.granuleData) (lbaBytes * (lba % 4)) (lbaBytes * blocks)
  else match d.nsDataset nsid with
    | none => zeros (lbaBytes * blocks)
    | some t => d.datasetBytes t (lbaBytes * lba) (lbaBytes * blocks)

/-- A Read ends: broken pages are rebuilt or lost, the blocks before the first unreadable page are transferred, and it completes (R244, R646). -/
def Dev.nvmeReadDone (d : Dev) (sq cid nsid lba blocks : Nat) : Dev :=
  let d := if nsid = 1 then d.countGranules (granulesOf lba blocks) else d.countPages (d.nvmePages nsid lba blocks)
  let d := if nsid = 1 then (granulesOf lba blocks).foldl Dev.loseGranule d else d.losePages (d.nvmePages nsid lba blocks)
  let n := d.blocksBefore nsid lba blocks
  let d := if n = 0 then d else (d.emit (.nvmeData sq cid (d.nvmeBytes nsid lba n))).count Counter.nvmeReadBytes 0 (lbaBytes * n)
  d.nvmeDone sq cid (if n < blocks then .unrecovered else .ok) 0

/-- NVME_READ: a Read that needs the media is a work item of the storage queue; its predicted time, that of no program, is 1 ns for each page. -/
def Dev.nvmeRead (d : Dev) (c : NvmeRequest) : Dev :=
  match d.lbaRefusal c true with
  | some s => d.nvmeReply c s
  | none =>
    let dies := d.nvmeDies c.nsid c.lba c.blocks
    if dies.isEmpty then d.nvmeReadDone c.sq c.cid c.nsid c.lba c.blocks
    else
      let (id, d) := d.holdCmd c 2 [] []
      let pages := sumNat (dies.map Prod.snd)
      let (i, d) := d.addItem storageQueue (.storage id) 0 0 0 d.tick.count pages (pages, 1) dies
      d.modItem i (fun x => { x with units := dies.map Prod.fst })

/-- Read (R646). -/
def execNvmeRead (c : NvmeRequest) (s : State) : Out := s.onDev (fun d => d.onNvme c true (fun d => d.nvmeRead c))

/-- A media operation of the storage queue completes, and its Read with it. -/
def Dev.storageComplete (d : Dev) (i : Item) (cmd : Nat) : Dev :=
  let d := d.dropItem i.id
  match d.nvme.cmds.find? (fun c => c.id == cmd) with
  | none => d
  | some c => ((d.dropCmd cmd).nvmeReadDone c.sq c.cid c.nsid c.lba c.blocks).resumeTest

/-! ### Flush, Write Zeroes and Dataset Management (R640, R645, R647) -/

/-- NVME_FLUSH: the open extent of the namespace closes, or of every namespace (R645). -/
def Dev.nvmeFlush (d : Dev) (c : NvmeRequest) : Dev :=
  if c.nsid = 0xFFFFFFFF then (((d.face.datasets.map Prod.fst).foldl Dev.closeOpenExtent d)).nvmeReply c .ok
  else if !d.nsActive c.nsid then d.nvmeReply c .invalidNamespace
  else (if c.nsid = 1 then d else d.closeOpenExtent (c.nsid - 2)).nvmeReply c .ok

/-- Flush (R645). -/
def execNvmeFlush (c : NvmeRequest) (s : State) : Out := s.onDev (fun d => d.onNvme c true (fun d => d.nvmeFlush c))

/-- WRITE_ZEROES: with DEAC, bit 25 of dword 12, blocks are deallocated; else zeros are written (R647). -/
def Dev.writeZeroes (d : Dev) (c : NvmeRequest) : Dev :=
  match d.lbaRefusal c false with
  | some s => d.nvmeReply c s
  | none =>
    if c.nsid ≠ 1 then d.nvmeReply c .invalidField
    else if bitOf c.cdw12 25 then (d.deallocate c.lba c.blocks).nvmeReply c .ok
    else d.writeScratchCmd { c with data := [] }

/-- Write Zeroes (R647). -/
def execWriteZeroes (c : NvmeRequest) (s : State) : Out := s.onDev (fun d => d.onNvme c true (fun d => d.writeZeroes c))

/-- The ranges of a Dataset Management command: starting LBA and length, 16 bytes each. -/
def dsmRanges (c : NvmeRequest) : List (Nat × Nat) :=
  (List.range (c.cdw10 % 256 + 1)).map (fun i => (leAt c.data (16 * i + 8) 8, leAt c.data (16 * i + 4) 4))

/-- DATASET_MANAGEMENT: with the deallocate attribute, bit 2 of dword 11, its ranges are deallocated (R640, R647). -/
def Dev.datasetManagement (d : Dev) (c : NvmeRequest) : Dev :=
  if !d.nsActive c.nsid then d.nvmeReply c .invalidNamespace
  else if c.nsid ≠ 1 then d.nvmeReply c .invalidField
  else if !bitOf c.cdw11 2 then d.nvmeReply c .ok
  else if (dsmRanges c).any (fun r => decide (d.nsSize 1 < r.1 + r.2)) then d.nvmeReply c .lbaRange
  else ((dsmRanges c).foldl (fun d r => d.deallocate r.1 r.2) d).nvmeReply c .ok

/-- Dataset Management (R647). -/
def execDatasetManagement (c : NvmeRequest) (s : State) : Out := s.onDev (fun d => d.onNvme c true (fun d => d.datasetManagement c))

/-- OPEN_EXTENT_CLOSE: 1 s has passed since the last Write (R645). -/
def execOpenExtentClose (dataset : Nat) (s : State) : Out := s.onRunning (fun d => d.closeOpenExtent dataset)

/-! ### Commands that end unserved (R642) -/

/-- A Write that is not durable taken out of its dataset, while it stands at the dataset's end; else its data stay, and are programmed. -/
def Dev.unwrite (d : Dev) (c : NvmeCmd) : Dev :=
  if c.nsid < 2 then d
  else c.owes.reverse.foldl (fun d o =>
    match AMap.get? d.face.extents o.1 with
    | none => d
    | some x =>
      let last := ((AMap.get? d.face.datasets x.dataset).bind (fun t => t.extents.getLast?)) == some o.1
      if !last then d.addDirty [o]
      else
        let keep := lbaBytes * c.lba - x.offset
        let cut := x.length - keep
        let d := d.modDataset x.dataset (fun t => { t with length := t.length - (if lbaBytes ≤ keep then cut else x.length) })
        if lbaBytes ≤ keep then d.modExtent o.1 (fun y => { y with data := y.data.take keep, length := keep })
        else
          let d := d.journal 0 o.1
          let d := d.modDataset x.dataset (fun t => { t with extents := t.extents.filter (fun e => e != o.1), openExtent := none })
          { d with face := { d.face with extents := AMap.del d.face.extents o.1 } }) d

/-- A waiting command ended with a status: its media work is withdrawn, and a Write that is not durable is undone. -/
def Dev.abortCmd (d : Dev) (c : NvmeCmd) (st : NvmeStatus) : Dev :=
  let d := (d.tick.items.filter (fun i => i.job == .storage c.id)).foldl (fun d i => d.dropItem i.id) (d.dropCmd c.id)
  let d := if c.kind = 1 then d.unwrite c else d
  d.nvmeDone c.sq c.cid st 0

/-- The waiting commands of a predicate ended, the newest first. -/
def Dev.abortCmds (d : Dev) (p : NvmeCmd → Bool) (st : NvmeStatus) : Dev := (d.nvme.cmds.filter p).reverse.foldl (fun d c => d.abortCmd c st) d

end Sys2Proof.Machine
end

