-- ==== Sys2Proof/Machine/MediaEvents.lean ====
section
/-!
DEFINITION. Machine/MediaEvents.lean: what happens on the NAND: failed pages, programs, erases and dies, verify, moves and the journal
(R216 to R221, R226, R240, R242, R244, R245).
-/
namespace Sys2Proof.Machine

/-! ### Reads that meet a page (R233, R244) -/

/-- The pages of extents that a media item reads. -/
def Dev.itemPages (d : Dev) (i : Item) : List (Nat × Nat) :=
  match i.job with
  | .sample sid pos 0 => match (d.stream? sid).bind (fun st => AMap.get? d.face.datasets st.dataset), (d.stream? sid).bind (fun st => AMap.get? st.samples pos) with
    | some t, some s => d.pagesRead t s.index s.dirHeld
    | _, _ => []
  | .peerServe peer tag => match d.served? peer tag with
    | some v => ((AMap.get? d.face.datasets v.dataset).map (fun t => d.readPages t v.index)).getD []
    | none => []
  | .storage cmd => match d.nvme.cmds.find? (fun c => c.id == cmd) with
    | some c => if c.nsid = 1 then [] else d.nvmePages c.nsid c.lba c.blocks
    | none => []
  | _ => []

/-- The granules that a media item reads. -/
def Dev.itemGranules (d : Dev) (i : Item) : List Nat :=
  match i.job with
  | .storage cmd => match d.nvme.cmds.find? (fun c => c.id == cmd) with
    | some c => if c.nsid = 1 then granulesOf c.lba c.blocks else []
    | none => []
  | _ => []

/-- A local read of a sample that gives way to a read of the whole sample from a peer (step 3 of R244); none when its program or its replicas do not
allow one. -/
def Dev.toPeer (d : Dev) (i : Item) : Option Dev :=
  match i.job with
  | .sample sid pos 0 =>
    if i.cls ≠ 0 || i.out.isSome || i.discard || !((d.stream? sid).bind d.progOfStream).any Prog.peerOk then none
    else match d.haul.reqs.find? (fun q => q.stream == sid && q.pos == pos) with
      | some q => some ((d.modReq q.tag (fun x => { x with hedge := false })).forgetItem i)
      | none => (d.askPeer sid pos false).map (fun d => d.forgetItem i)
  | _ => none

/-- A page that no step of R244 on local media recovers: reads of samples that a peer can serve go there; where any other read meets it, it is
recorded unreadable. -/
def Dev.pageGone (d : Dev) (e k : Nat) : Dev :=
  let readers := d.tick.items.filter (fun i => i.phase == .running && (d.itemPages i).contains (e, k))
  let (left, d) := readers.foldl (fun (acc : Bool × Dev) i => match acc.2.toPeer i with
    | some d => (acc.1, d)
    | none => (true, acc.2)) (readers.isEmpty, d)
  if left then d.pageUnreadable e k else d

/-- Step 2 of R244: a rebuild from parity where the bench still holds it, else what follows. -/
def Dev.rebuildOr (d : Dev) (p : Option (Nat × Nat)) (gone : Dev → Dev) : Dev :=
  match p.bind (fun q => (AMap.get? d.face.benches q.1).map (fun b => (b, q.2))) with
  | some (b, pos) => if d.rebuildable b pos then d.count Counter.parityRebuild 0 1 else gone d
  | none => gone d

/-- A page that has failed its hard-decision decode, with the step that recovers it: after `n` soft reads, by parity after 3, or none (R244). -/
def Dev.decodeFails (d : Dev) (p : Option (Nat × Nat)) (found : PageFound) (gone : Dev → Dev) : Dev :=
  match found with
  | .soft n => if 1 ≤ n && n ≤ 3 then d.count Counter.softRead 0 n else d
  | .parity => (d.count Counter.softRead 0 3).rebuildOr p gone
  | .unreadable => gone (d.count Counter.softRead 0 3)

/-- PAGE_DECODE_FAIL: the page that holds byte `off` of a dataset, or granule `off` of the scratch namespace (dataset 0xFFFF). A page that is in the
flash write buffer, or recorded unreadable, is not read from the NAND. -/
def Dev.pageDecodeFail (d : Dev) (ds off : Nat) (found : PageFound) : Dev :=
  if ds = 0xFFFF then
    match AMap.get? d.face.granules off with
    | none => d
    | some x => if x.unreadable || (d.granulePlace x).isNone then d else d.decodeFails (d.granulePlace x) found (fun d => d.granuleUnreadable off)
  else match AMap.get? d.face.datasets ds with
    | none => d
    | some t => match d.extentAt t off with
      | none => d
      | some (e, x, k) =>
        if x.unreadable.contains k || (d.pagePlace x k).isNone then d
        else d.decodeFails (d.pagePlace x k) found (fun d => d.pageGone e k)

/-- PAGE_DECODE_FAIL (R244). -/
def execPageDecodeFail (dataset offset : Nat) (found : PageFound) (s : State) : Out := s.onRunning (fun d => d.pageDecodeFail dataset offset found)

/-! ### Programs, verify and erases (R216 to R219) -/

/-- A bench made WEAK: it is closed if it is open, and its data, if any are live, wait to be moved. -/
def Dev.weaken (d : Dev) (id : Nat) (f : Bench → Bench) : Dev :=
  match AMap.get? d.face.benches id with
  | none => d
  | some b =>
    let d := if b.state = .opened then d.closeBench id else d
    ((d.modBench id (fun x => { f x with state := .weak })).reclaimBench id).releaseParity

/-- PROGRAM_FAIL: a program of a member of an open bench fails: the bench closes after the positions sent, and the last of them on that member holds
the failed page (R218). -/
def Dev.programFail (d : Dev) (id m : Nat) : Dev :=
  match AMap.get? d.face.benches id with
  | none => d
  | some b =>
    let w := max 1 b.members.length
    if b.state ≠ .opened || b.members.length ≤ m || b.endPos ≤ m then d
    else
      let pos := (b.endPos - 1 - m) / w * w + m
      (d.weaken id (fun x => { x with failed := x.failed ++ [pos] })).count Counter.programFail 0 1

/-- PROGRAM_FAIL (R218). -/
def execProgramFail (bench member : Nat) (s : State) : Out := s.onRunning (fun d => d.programFail bench member)

/-- BENCH_VERIFY: every page of a closed bench has been read: it is VERIFIED and its parity is released, or it is WEAK (R216, R217). -/
def Dev.benchVerify (d : Dev) (id : Nat) (ok : Bool) : Dev :=
  match AMap.get? d.face.benches id with
  | none => d
  | some b =>
    if b.state ≠ .closed then d
    else if ok then
      let d := b.members.foldl (fun d m => d.setBlock m.1 m.2 .verified) d
      ((d.modBench id (fun x => { x with state := .verified, parityBench := none })).reclaimBench id).releaseParity
    else (d.weaken id (fun x => x)).count Counter.benchWeak 0 1

/-- BENCH_VERIFY (R216). -/
def execBenchVerify (bench : Nat) (ok : Bool) (s : State) : Out := s.onRunning (fun d => d.benchVerify bench ok)

/-- A die block of a bench that is reclaimed has been erased or retired; the bench is FREE once all have. -/
def Dev.blockReturned (d : Dev) (die b : Nat) : Dev :=
  match d.face.benches.find? (fun p => p.2.state == .reclaiming && p.2.members.contains (die, b)) with
  | none => d
  | some (id, x) =>
    let left := x.members.filter (fun m => m != (die, b) && ((AMap.get? d.face.dies m.1).map (fun y => d.blockState y m.2 == .stale)).getD false)
    if left.isEmpty then
      let d := d.journal 2 id
      Dev.freeExtents { d with face := { d.face with benches := AMap.del d.face.benches id, scratchSlots := AMap.keep (fun _ v => v != id) d.face.scratchSlots } }
    else d.modBench id (fun y => { y with members := left })

/-- ERASE_DONE: the erase of a STALE die block ends (Table 06-2); with no SPARE left when it fails, the die is READ_ONLY (Table 06-3). -/
def Dev.eraseDone (d : Dev) (die b : Nat) (ok : Bool) : Dev :=
  match AMap.get? d.face.dies die with
  | none => d
  | some x =>
    if d.blockState x b ≠ .stale || x.state = .failed || x.state = .absent then d
    else if ok then (d.setBlock die b .erased).blockReturned die b
    else
      let spare := (d.takeSpare die).isSome
      let d := d.retireBlock die b
      let d : Dev := if spare || x.state = .readOnly then d
        else
          let d := d.setDie die .readOnly
          { d with face := { d.face with recompute := true, readOnlyFlash := d.face.readOnlyFlash ++ [die] } }
      d.blockReturned die b

/-- ERASE_DONE (R219). -/
def execEraseDone (die block : Nat) (ok : Bool) (s : State) : Out := s.onRunning (fun d => d.eraseDone die block ok)

/-! ### Dies and channels (R220, R221) -/

/-- A read that waits on a die that has FAILED: its pages there are rebuilt, read from a peer, or recorded unreadable; the rest goes on. -/
def Dev.leaveDie (d : Dev) (n id : Nat) : Dev :=
  match d.item? id with
  | none => d
  | some i =>
    if i.cls ≠ 0 || !i.units.contains n then d
    else
      let pages := (d.itemPages i).filter (fun p => ((AMap.get? d.face.extents p.1).bind (fun x => d.pageDie x p.2)) == some n)
      let d := d.modItem id (fun x => { x with units := x.units.filter (fun u => u != n), dies := x.dies.filter (fun u => u.1 != n) })
      match (if pages.any d.pageLost then d.toPeer i else none) with
      | some d => d
      | none => (d.itemGranules i).foldl Dev.loseGranule (d.losePages pages)

/-- A die FAILED: its benches not yet verified are WEAK, FACE_FAULT is set and DIE_FAILED posted (Table 06-3). -/
def Dev.dieFails (d : Dev) (n : Nat) : Dev :=
  let s := d.dieState n
  if s = .absent || s = .failed then d
  else
    let d := (d.setDie n .failed).chipTrouble ChipBit.faceFault
    let weak := d.face.benches.filter (fun p => (p.2.state == .opened || p.2.state == .closed) && p.2.members.any (fun m => m.1 == n))
    let d := weak.foldl (fun d p => d.weaken p.1 (fun x => x)) d
    let d := d.event adminWin EventCode.dieFailed 0 [(20, 2, n), (24, 4, weak.length)]
    let d := (d.tick.items.map Item.id).foldl (fun d id => d.leaveDie n id) d
    { d with face := { d.face with recompute := true } }

/-- DIE_FAILED (R220). -/
def execDieFailed (die : Nat) (s : State) : Out := s.onRunning (fun d => d.dieFails die)

/-- CHANNEL_RETRAIN_FAIL: every die on the channel becomes FAILED (R221). -/
def Dev.channelFails (d : Dev) (c : Nat) : Dev := (List.range 16).foldl (fun d e => d.dieFails (16 * c + e)) d

/-- CHANNEL_RETRAIN_FAIL (R221). -/
def execChannelRetrainFail (channel : Nat) (s : State) : Out := s.onRunning (fun d => d.channelFails channel)

/-! ### The journal and SLC_LIMIT (R226, R242) -/

/-- JOURNAL_TAIL_FLUSH (R226). -/
def execJournalTailFlush (s : State) : Out := s.onRunning Dev.flushJournal

/-- A checkpoint of all the maps. -/
def Dev.checkpoint (d : Dev) : Dev := { d.flushJournal with face := { d.flushJournal.face with checkpointSeq := d.face.journalSeq } }

/-- MAPS_CHECKPOINT (R226). -/
def execMapsCheckpoint (s : State) : Out := s.onRunning Dev.checkpoint

/-- SLC_LIMIT_RECOMPUTE: at every 1,024th boundary, and after a change in the dies in service (R242). -/
def Dev.slcRecompute (d : Dev) : Dev := if d.tick.count % 1024 = 0 || d.face.recompute then d.recomputeSlc else d

/-- SLC_LIMIT_RECOMPUTE (R242). -/
def execSlcLimitRecompute (s : State) : Out := s.onRunning Dev.slcRecompute

/-! ### Folding and garbage collection (R240) -/

/-- The place of an extent in the SLC log. -/
def Extent.logPos (x : Extent) : Option Nat := match x.loc with | .slc p => some p | _ => none

/-- Whether an extent is the next to be folded: the first in log order (R240). -/
def Dev.foldNext (d : Dev) (x : Extent) : Bool :=
  match x.logPos with
  | none => false
  | some p => d.face.extents.all (fun y => y.2.state == .discarded || (y.2.logPos.map (fun q => decide (p ≤ q))).getD true)

/-- Whether garbage collection takes a bench: a WEAK one with live data, or with none such the VERIFIED one of its kind with the fewest
VALID_PAGES (R240). -/
def Dev.collects (d : Dev) (id : Nat) : Bool :=
  match AMap.get? d.face.benches id with
  | none => false
  | some b =>
    if d.face.benches.any (fun p => p.2.state == .weak && 0 < p.2.validPages) then b.state == .weak
    else b.state == .verified && d.face.benches.all (fun p => p.2.state != .verified || p.2.kind != b.kind || decide (b.validPages ≤ p.2.validPages))

/-- An extent's data moved to a NATIVE_DATA bench: its entry changes in one journal record, and its former pages are no longer live. -/
def Dev.moveExtent (d : Dev) (e counter : Nat) (x : Extent) : Dev :=
  let n := pagesOf x.length
  let d := d.countPages ((List.range n).map (fun k => (e, k)))
  let d := d.losePages ((List.range n).map (fun k => (e, k)))
  match d.settleExtent e x true with
  | none => d
  | some d' => (d'.releasePages x).count counter 0 n

/-- MAINTENANCE_MOVE_DONE: the fold or the collection of an extent, or of the granule `what - 2³²`, completes. -/
def Dev.moveDone (d : Dev) (what : Nat) : Dev :=
  if what < 2 ^ 32 then
    match AMap.get? d.face.extents what with
    | none => d
    | some x =>
      if x.state = .discarded || !x.programmed then d
      else if d.foldNext x then d.moveExtent what Counter.foldPage x
      else if (d.extentPieces x).any (fun p => d.collects p.1) then d.moveExtent what Counter.gcPage x
      else d
  else
    let g := what - 2 ^ 32
    match AMap.get? d.face.granules g with
    | none => d
    | some x => match d.granulePlace x with
      | none => d
      | some (b, _) =>
        if x.unreadable || !d.collects b then d
        else
          let d := ((d.countGranules [g]).loseGranule g).programGranule g
          (((d.dropValid [(b, 1)]).reclaimBench b).releaseParity).count Counter.gcPage 0 1

/-- MAINTENANCE_MOVE_DONE (R240). -/
def execMaintenanceMoveDone (what : Nat) (s : State) : Out := s.onRunning (fun d => d.moveDone what)

end Sys2Proof.Machine
end

