-- ==== Sys2Proof/Machine/Complete.lean ====
section
/-!
DEFINITION. Machine/Complete.lean: a work item completes (R19, R59, R244, R584, R606).
-/
namespace Sys2Proof.Machine

/-- Retries that have succeeded: RETRY_OK and CELL_RETRY (R59). -/
def Dev.retriesDone (d : Dev) (l : List Item) : Dev :=
  (l.filter (fun i => i.cls == 2 && i.retry)).foldl (fun d i =>
    let g := blockOfUnit .cell (i.units.headD 0)
    (d.cellTrouble g CellBit.retryOk).count Counter.cellRetry g 1) d

/-- A local read of a sample whose bytes cannot serve: the pages are unreadable and a peer may hold them (step 3 of R244), or a replay needs other bytes,
which a peer may have (R584); none when the read serves. -/
def Dev.readElsewhere (d : Dev) (i : Item) (sid pos ns : Nat) : Option Dev :=
  match d.stream? sid with
  | none => none
  | some st => match AMap.get? d.face.datasets st.dataset with
    | none => none
    | some t =>
      let lost := (d.firstUnreadable t (st.indexOf pos)).isSome
      if i.cls ≠ 0 || i.discard || i.out.isSome then none
      else if st.replayOf.isSome then
        if !lost && d.replayTakes st pos (d.localBytes t (st.indexOf pos)) then none
        else
          let d := (d.noteItem i ns).forgetItem i
          some ((d.askPeer sid pos false).getD (d.inputMissing sid))
      else if lost then (d.noteItem i ns).toPeer i
      else none

/-- MEDIA_PAGE_READ for a media item whose read ends (R233, R522); one that waits for its buffers has been counted. -/
def Dev.countReads (d : Dev) (i : Item) : Dev := if i.cls = 0 && i.out.isNone then d.countPages (d.itemPages i) else d

/-- A work item that runs completes at `at_` ns after the boundary: what it did takes effect, and what waits for its unit starts. -/
def Dev.workItemComplete (d : Dev) (id at_ : Nat) : Dev :=
  match d.item? id with
  | none => d
  | some i =>
    if i.phase ≠ .running || at_ < i.startAt then d
    else
      let mates := if i.out.isSome then [] else d.heatMates i
      let d := (mates.foldl (fun d j => d.chargeItem j at_) d).retriesDone mates
      match i.job with
      | .emit key seq => d.emitComplete i key seq
      | .storage cmd => (d.storageComplete i cmd).startItems at_
      | .peerServe peer tag => ((d.countReads i).serveComplete i peer tag).startItems at_
      | .pack sid _ _ => (d.completeItem i at_).epochComplete sid
      | .sample sid pos k =>
        let d := if k = 0 then d.countReads i else d
        match (if k = 0 then d.readElsewhere i sid pos (i.runFor at_) else none) with
        | some d => (d.startItems at_).epochComplete sid
        | none => (d.completeItem i at_).epochComplete sid

/-- WORK_ITEM_COMPLETE (R19). -/
def execWorkItemComplete (item atNs : Nat) (s : State) : Out := s.onRunning (fun d => d.workItemComplete item atNs)

end Sys2Proof.Machine
end

