-- ==== Sys2Proof/Machine/Configuration.lean ====
section
/-!
DEFINITION. Machine/Configuration.lean: the SPI NOR, the configuration block, and the topology check (R176 to R181, R678, R690 to R693).
-/
namespace Sys2Proof.Machine

/-! ### SPI NOR (R678) -/

/-- An erased byte of the NOR. -/
def norErased : Byte := 0xFF

/-- `n` bytes of the NOR from `a`. -/
def Dev.norBytes (d : Dev) (a n : Nat) : List Byte := Mem.readAll norErased d.boot.nor a n

/-- A sector erased, and bytes programmed into it from its start. -/
def Dev.norProgram (d : Dev) (a size : Nat) (bs : List Byte) : Dev :=
  { d with boot := { d.boot with nor := Mem.writeAll norErased (Mem.erase d.boot.nor a size) a bs } }

/-- Bytes of a sector of the NOR. -/
def norSector : Nat := 65536

/-! ### The configuration block (R176 to R181) -/

/-- Where copy `i` lies: copy A is 0, copy B is 1. -/
def cfgBase (i : Nat) : Nat := 0x01FE0000 + norSector * i

/-- Copy `i` as it stands in the NOR. -/
def Dev.cfgCopy (d : Dev) (i : Nat) : List Byte := d.norBytes (cfgBase i) norSector

/-- MAGIC of a configuration copy. -/
def cfgMagic : Nat := 0x47464342

/-- Whether BODY_LEN and RECORD_COUNT agree and lie in range. -/
def cfgLengthsOk (b : List Byte) : Bool := decide (leAt b 16 4 ≤ 65392) && leAt b 16 4 == 16 * leAt b 20 4

/-- A copy with its CHECK computed over bytes 0 to 65,531. -/
def cfgSeal (b : List Byte) : List Byte := b.take 65532 ++ leBytes 4 (crc32c (b.take 65532))

/-- Whether a copy is valid (R177). -/
def cfgValid (b : List Byte) : Bool :=
  leAt b 0 4 == cfgMagic && leAt b 4 2 / 256 == 1 && cfgLengthsOk b && leAt b 65532 4 == crc32c (b.take 65532)

/-- SEQUENCE of a copy. -/
def cfgSequence (b : List Byte) : Nat := leAt b 8 8

/-- The copy that a bring-up uses: the valid one with the greater SEQUENCE, A on a tie (R178). -/
def Dev.chooseCfg (d : Dev) : Option Nat :=
  let a := d.cfgCopy 0
  let b := d.cfgCopy 1
  match cfgValid a, cfgValid b with
  | true, true => if cfgSequence a < cfgSequence b then some 1 else some 0
  | true, false => some 0
  | false, true => some 1
  | false, false => none

/-- The records of a copy, in order. -/
def cfgRecordsOf (b : List Byte) : List CfgRecord :=
  (List.range (leAt b 20 4)).map (fun j =>
    { id := leAt b (128 + 16 * j) 2, rsv := leAt b (130 + 16 * j) 2, index := leAt b (132 + 16 * j) 4, value := leAt b (136 + 16 * j) 8 })

/-- Whether a record is applied: its parameter is known, its INDEX has its scope's form, and its reserved bytes are 0 (R179). -/
def CfgRecord.usable (r : CfgRecord) : Bool :=
  match paramDef r.id with
  | none => false
  | some p => p.scope.indexOk r.index && r.rsv == 0

/-- The expected topology of a configuration copy (Table 04-26). -/
structure Expected where
  variant : Nat
  regions : Nat
  blocks : Nat
  ports : Nat
  cells : Nat
  hbmGib : Nat
  channels : Nat
  dies : Nat
  tickPosition : Nat
  deriving DecidableEq, Repr

/-- The expected topology of a copy. -/
def expectedOf (b : List Byte) : Expected :=
  { variant := leAt b 64 1, regions := leAt b 65 1, blocks := leAt b 66 1, ports := leAt b 67 1, cells := leAt b 68 2, hbmGib := leAt b 70 2,
    channels := leAt b 72 1, dies := leAt b 74 2, tickPosition := leAt b 76 1 }

/-- The expected topology where factory defaults are in use (R178). -/
def Dev.expectedDefault (d : Dev) : Expected :=
  let v := d.boot.fuses.variant
  { variant := v, regions := 8, blocks := d.B, ports := variantPorts v, cells := 128 * d.B, hbmGib := variantHbm v, channels := variantChannels v,
    dies := d.boot.diesAccepted, tickPosition := 0xFF }

/-- The expected topology of the configuration in use. -/
def Dev.expected (d : Dev) : Expected :=
  match d.hearth.cfgInUse with
  | none => d.expectedDefault
  | some i => expectedOf (d.cfgCopy i)

/-- The image of the factory defaults that CONFIG_READ returns (R181): one record for each parameter, with INDEX 0. -/
def Dev.cfgDefaults (d : Dev) : List Byte :=
  let e := d.expectedDefault
  let n := paramTable.length
  let head := leBytes 4 cfgMagic ++ leBytes 2 0x0100 ++ zeros 2 ++ leBytes 8 0 ++ leBytes 4 (16 * n) ++ leBytes 4 n ++ zeros 40 ++
    leBytes 1 e.variant ++ leBytes 1 e.regions ++ leBytes 1 e.blocks ++ leBytes 1 e.ports ++ leBytes 2 e.cells ++ leBytes 2 e.hbmGib ++
    leBytes 1 e.channels ++ zeros 1 ++ leBytes 2 e.dies ++ leBytes 1 e.tickPosition ++ zeros 51
  let recs := paramTable.flatMap (fun p => leBytes 2 p.id ++ zeros 2 ++ leBytes 4 0 ++ leBytes 8 (d.paramDefault p))
  cfgSeal (padTo (head ++ recs) 65532)

/-- The image that CONFIG_READ returns. -/
def Dev.cfgImage (d : Dev) : List Byte :=
  match d.hearth.cfgInUse with
  | none => d.cfgDefaults
  | some i => d.cfgCopy i

/-- CONFIG_READ (R181). -/
def cmdConfigRead : Cmd :=
  { opcode := 0x0901
    admin := true
    ticketed := true
    check := fun _ x => { lenOk := x.r.len == 0, sgl := true }
    run := fun d _ _ => { dev := d } }

/-- CONFIG_READ (R181). -/
def execConfigRead (w : Window) (r : Request) (s : State) : Out := s.onDoorbell cmdConfigRead w r

/-- CONFIG_READ completes with the copy in use. -/
def Dev.configReadDone (d : Dev) (w n : Nat) : Dev :=
  match d.ticketOf w n 0x0901 with
  | none => d
  | some _ => d.completeWith w n d.cfgImage

/-- CONFIG_READ_DONE (R181). -/
def execConfigReadDone (w : Window) (ticket : Nat) (s : State) : Out := s.onRunning (fun d => d.configReadDone w.num ticket)

/-- Whether the image of a CONFIG_WRITE keeps to Table 04-26, with SEQUENCE and CHECK written as 0 (R180). -/
def cfgImageOk (b : List Byte) : Bool :=
  leAt b 0 4 == cfgMagic && leAt b 4 2 == 0x0100 && cfgLengthsOk b && cfgSequence b == 0 && leAt b 65532 4 == 0 &&
  allZero (bytesAt b 6 2) && allZero (bytesAt b 24 40) && allZero (bytesAt b 73 1) && allZero (bytesAt b 77 51) &&
  (List.range (leAt b 20 4)).all (fun j => allZero (bytesAt b (130 + 16 * j) 2)) &&
  allZero (bytesAt b (128 + leAt b 16 4) (65532 - 128 - leAt b 16 4))

/-- CONFIG_WRITE (R180). -/
def cmdConfigWrite : Cmd :=
  { opcode := 0x0902
    admin := true
    ticketed := true
    check := fun d x =>
      { lenOk := x.r.len == 0
        sgl := true
        sglOk := sglBytes x.r.sgl == 65536
        own := needs (!d.operationBusy 0x0902 0) Status.operationBusy }
    run := fun d _ _ => { dev := d } }

/-- CONFIG_WRITE (R180). -/
def execConfigWrite (w : Window) (r : Request) (s : State) : Out := s.onDoorbell cmdConfigWrite w r

/-! ### The topology check (R690, R691) -/

/-- Blocks in service of region `r`, none while it is out of service. -/
def Dev.foundBlocks (d : Dev) (r : Nat) : Nat := if d.regionIn r then (d.blocksIn r).length else 0

/-- Cells in service on the chip. -/
def Dev.foundCells (d : Dev) : Nat := sumNat ((List.range d.numBlocks).map (fun g => (d.cellsIn g).length))

/-- Stockpile GiB of the regions in service. -/
def Dev.foundHbm (d : Dev) : Nat := sumNat (d.regionsIn.map (fun r => (d.dieFuses r).hbmGib))

/-- The position on the TICK bus that the straps give. -/
def Dev.foundPosition (d : Dev) : Nat := if d.boot.pins.tickEn then d.boot.pins.tickPos % 16 else 0xFF

/-- The items of Table 20-8b that disagree with an expected topology. -/
def Dev.mismatchWith (d : Dev) (e : Expected) : Nat :=
  let bit := fun (i : Nat) (agrees : Bool) => if agrees then 0 else 2 ^ i
  bit 0 (d.boot.fuses.variant == e.variant) + bit 1 (d.regionsIn.length == e.regions) +
  bit 2 (d.regionsIn.all (fun r => d.foundBlocks r == d.B) && e.blocks == d.B) + bit 3 (d.foundCells == e.cells) +
  bit 4 (d.foundHbm == e.hbmGib) + bit 5 (d.boot.channelsTrained == e.channels) + bit 6 (d.boot.diesAccepted == e.dies) +
  bit 7 (d.portsIn == e.ports) + bit 8 (d.foundPosition == e.tickPosition) + bit 9 d.boot.mapsOk

/-- TOPOLOGY_MISMATCH (Table 20-10). -/
def Dev.topologyEvent (d : Dev) (m : Nat) : Dev :=
  d.event adminWin EventCode.topologyMismatch 0
    ([(20, 2, m), (22, 1, d.boot.fuses.variant), (23, 1, d.regionsIn.length)] ++ (List.range 8).map (fun r => (24 + r, 1, d.foundBlocks r)) ++
     [(32, 1, d.portsIn), (33, 1, d.boot.channelsTrained), (34, 2, d.foundCells), (36, 2, d.foundHbm), (38, 2, d.boot.diesAccepted), (40, 1, d.foundPosition)])

/-- The device enters READY: every window reads IDLE (R141). -/
def Dev.enterReady (d : Dev) : Dev :=
  let d := d.windowsIdle
  { d with hearth := { d.hearth with state := .ready, bootStep := 0 }, boot := { d.boot with mismatch := 0 } }

/-- The negotiated versions once every window reads NEGOTIATED 0 (R141); the sideband's, key 1,025, is no window's. -/
def windowsReset (hdr : AMap Nat) : AMap Nat := AMap.keep (fun k _ => decide (1024 < k)) hdr

/-- Whether the completion of CONFIG_WRITE ticket `n` of window `w` moves the device from HOLD to READY (R693). -/
def Dev.configReady (d : Dev) (w n : Nat) (readBackOk : Bool) : Bool :=
  match d.ticketOf w n 0x0902 with
  | none => false
  | some t => !d.stopped && readBackOk && cfgImageOk t.data && d.hearth.state == .hold && d.mismatchWith (expectedOf t.data) == 0

/-- CONFIG_WRITE completes: the image is checked, sealed, and written to the copy not in use, which is read back; what a sector
holds whose read-back fails is a free value (R180, R693). -/
def Dev.configWriteDone (d : Dev) (w n : Nat) (readBackOk : Bool) : Dev :=
  match d.ticketOf w n 0x0902 with
  | none => d
  | some t =>
    if !cfgImageOk t.data then d.completeTicket w n Status.fieldInvalid 0
    else
      let seq := match d.hearth.cfgInUse with
        | none => 1
        | some i => cfgSequence (d.cfgCopy i) + 1
      let target := match d.hearth.cfgInUse with
        | some 0 => 1
        | _ => 0
      let image := cfgSeal (overlay (t.data.take 65536) 8 (leBytes 8 seq))
      let ready := d.configReady w n readBackOk
      if !readBackOk then
        let (k, d) := d.draw
        (d.norProgram (cfgBase target) norSector (padTo (Config.freeBytes k) norSector)).completeTicket w n Status.cfgWriteFailed 0
      else
        let d := (d.norProgram (cfgBase target) norSector image).completeTicket w n Status.success 0
        if ready then d.enterReady else d

/-- CONFIG_WRITE_DONE (R180, R693). -/
def execConfigWriteDone (w : Window) (ticket : Nat) (readBackOk : Bool) (s : State) : Out :=
  .next { s with
    hdr := if s.dev.configReady w.num ticket readBackOk then windowsReset s.hdr else s.hdr
    dev := if s.dev.stopped then s.dev else s.dev.configWriteDone w.num ticket readBackOk }

/-! ### TOPOLOGY_ACK (R692) -/

/-- A die whose benches are forgotten: its blocks in use await an erase. -/
def Die.forgotten (x : Die) : Die :=
  { x with blocks := AMap.mapKV (fun _ (b : BlockState) => match b with
      | .opened | .closed | .verified => BlockState.stale
      | b => b) x.blocks }

/-- The maps empty: no extent, bench, granule or dataset; die blocks that were in benches await an erase (R692). -/
def Face.emptied (f : Face) : Face :=
  { f with dies := AMap.mapKV (fun _ x => Die.forgotten x) f.dies, benches := [], extents := [], granules := [], scratchSlots := [], slcLog := [], datasets := [], journalTail := [] }

/-- TOPOLOGY_ACK (R692). -/
def cmdTopologyAck : Cmd :=
  { opcode := 0x0903
    admin := true
    check := fun d x =>
      { lenOk := x.r.len == 8
        rsvOk := decide (x.get 0 2 < 1024) && x.rsv 2 6
        own := firstFail [needs (d.hearth.state == .hold) Status.notInHold, needs (x.get 0 2 == d.boot.mismatch) Status.topologyAckStale] }
    run := fun d x _ =>
      let d : Dev := if bitOf (x.get 0 2) 9 then { d with face := d.face.emptied } else d
      { dev := d.enterReady } }

/-- TOPOLOGY_ACK (R692): the device moves to READY, every window negotiated anew. -/
def execTopologyAck (w : Window) (r : Request) (s : State) : Out :=
  .next { s with
    hdr := if cmdTopologyAck.accepts s.dev w.num (s.version w.num) r then windowsReset s.hdr else s.hdr
    dev := cmdTopologyAck.doorbell s.dev w.num (s.version w.num) r }

end Sys2Proof.Machine
end

