-- ==== Sys2Proof/Machine/Determinism.lean ====
section
/-!
DEFINITION. Machine/Determinism.lean: recording and replay, barrier groups, PTP and tick epochs (R578 to R597).
-/
namespace Sys2Proof.Machine

/-! ### REPLAY_RECORD (R578, R579) -/

/-- Logs that the chip holds at most. -/
def logsMax : Nat := 256

/-- Whether a stream can be recorded (R578). -/
def Dev.recordCapable (d : Dev) (st : Stream) : Bool :=
  (((d.progOfStream st).map Prog.ops).getD []).all (fun o => !(o.isAnvil && o.p 2 1 == 1 && !o.exactAlt)) &&
  (match st.ingest with
   | some g => g.nextSeq == 0
   | none => true)

/-- A log reserved for a stream, which is armed (R579). -/
def Dev.armLog (d : Dev) (sid id : Nat) (st : Stream) : Dev :=
  let l : Log := { tenant := st.tenant, stream := sid, records := [], fed := 0, ctx := Log.freshCtx, recording := false, armed := true, ended := false,
                   run := none, export_ := none, delete := none, stopAsked := false }
  let d : Dev := { d with group := { d.group with logs := AMap.set d.group.logs id l } }
  d.modStream sid (fun s => { s with log := some (id, false) })

/-- REPLAY_RECORD (R578). -/
def cmdReplayRecord : Cmd :=
  { opcode := 0x0703
    check := fun d x =>
      let sid := x.get 0 4
      { lenOk := x.r.len == 8
        rsvOk := decide (sid < 2 ^ 20) && x.rsv 5 3
        field := needs (decide (x.get 4 1 ≤ 1)) Status.fieldInvalid
        object := d.streamObject x sid
        state := d.streamOwner sid
        own := match d.stream? sid with
          | none => none
          | some st =>
            if x.get 4 1 = 1 then firstFail [needs st.log.isNone Status.logInUse, needs (d.recordCapable st) Status.recordNotCapable,
              needs (decide (d.group.logs.length < logsMax)) Status.logLimit]
            else needs st.log.isSome Status.notRecording }
    run := fun d x _ =>
      let sid := x.get 0 4
      match d.stream? sid with
      | none => { dev := d }
      | some st =>
        if x.get 4 1 = 1 then
          match AMap.firstFree d.group.logs logsMax with
          | none => { dev := d }
          | some id => { dev := d.armLog sid id st, payload := leBytes 4 id ++ zeros 4 }
        else
          match st.log with
          | none => { dev := d }
          | some (id, _) => { dev := d.modLog id (fun l => { l with stopAsked := true }), payload := leBytes 4 id ++ zeros 4 } }

/-- REPLAY_RECORD (R578). -/
def execReplayRecord (w : Window) (r : Request) (s : State) : Out := s.onDoorbell cmdReplayRecord w r

/-! ### REPLAY_RUN (R583, R584) -/

/-- A field of the seed block that a log opens with (Table 17-3). -/
def Log.seed (l : Log) (o n : Nat) : Nat := match l.records with | r :: _ => r.get o n | [] => 0

/-- Bytes of the seed block of a log. -/
def Log.seedBytes (l : Log) (o n : Nat) : List Byte := match l.records with | r :: _ => bytesAt r.body o n | [] => zeros n

/-- Whether a log is armed, recording or being run. -/
def Log.inUse (l : Log) : Bool := l.armed || l.recording || l.run.isSome || l.delete.isSome

/-- Whether a log is of a live-ingest stream. -/
def Log.live (l : Log) : Bool := l.seed 36 2 == 0xFFFE

/-- The status that refuses a RUN, by its checks in order (R583). -/
def Dev.replayRefusal (d : Dev) (l : Log) (slot : Nat) : Option Status :=
  let manifest := ((AMap.get? d.face.datasets (l.seed 36 2)).map Dataset.manifest).getD []
  let same := (((AMap.get? d.progs slot).map Prog.digest).getD [] == l.seedBytes 40 32) && (l.live || manifest == l.seedBytes 72 32)
  firstFail [needs (!l.inUse) Status.logInUse, needs (!AMap.has d.streams l.stream) Status.streamExists,
    needs (AMap.has d.progs slot) Status.noSuchProgram, needs (d.slotLoaded slot) Status.programBusy, needs same Status.logMismatch,
    needs (decide (d.depthSum l.tenant + l.seed 24 4 ≤ d.windowRoom l.tenant)) Status.windowFull, needs d.chooseHome.isSome Status.noContextSlot]

/-- The replay stream of a log: its one epoch starts with the next plan (R584). -/
def Dev.startReplay (d : Dev) (id : Nat) (l : Log) (slot : Nat) (ticket : Nat × Nat) : Dev :=
  let sid := l.stream
  let exact := bitOf (l.seed 6 1) 0
  let t := d.nextPlanTick
  let d := d.createStream sid l.tenant (l.seed 36 2) slot (l.seed 24 4) exact
  let d := d.modStream sid (fun s => { s with
    replayOf := some id
    ingest := if l.live then some { key := { udpPort := 0, vniMatch := false, portMask := 0, vni := 0 }, matching := false, nextSeq := 0, closing := [] } else none })
  let d := match exact, AMap.get? d.progs slot with
    | true, some p => d.makeParts sid l.tenant p (l.seed 16 6)
    | _, _ => d
  let d := d.addStreamCmd sid (.epochStart t (l.seed 12 3) (l.seed 16 6) (l.seed 104 16) (l.seed 120 8) exact (List.range (max 1 (l.seed 38 2))))
  let r : Replay := { log := id, stream := sid, startTick := t, matched := 0, diverged := none, missing := false, aborted := false, done := false }
  let d := d.modLog id (fun l => { l with run := some ticket })
  { d with group := { d.group with replays := d.group.replays ++ [r] } }

/-- REPLAY_RUN (R583). -/
def cmdReplayRun : Cmd :=
  { opcode := 0x0704
    ticketed := true
    check := fun d x =>
      let id := x.get 0 4
      let action := x.get 4 1
      let log := AMap.get? d.group.logs id
      { lenOk := x.r.len == 8
        sgl := action != 2
        rsvOk := decide (id < 256) && x.rsv 6 2
        field := needs (decide (action ≤ 2) && (action == 0 || x.get 5 1 == 0)) Status.fieldInvalid
        object := match log with
          | none => some Status.noSuchLog
          | some l => needs (x.mayName l.tenant) Status.notOwner
        sglOk := action != 0 || sglBytes x.r.sgl == 64
        state := log.bind (fun l => d.ownerEnabled l.tenant)
        own := log.bind (fun l => if action = 0 then d.replayRefusal l (x.get 5 1) else needs (!l.inUse) Status.logInUse)
        subject := id }
    run := fun d x n =>
      let id := x.get 0 4
      match AMap.get? d.group.logs id with
      | none => { dev := d }
      | some l =>
        if x.get 4 1 = 0 then { dev := d.startReplay id l (x.get 5 1) (x.w, n) }
        else if x.get 4 1 = 1 then { dev := d.modLog id (fun l => { l with export_ := some (x.w, n) }) }
        else { dev := d.modLog id (fun l => { l with delete := some (x.w, n) }) } }

/-- REPLAY_RUN (R583). -/
def execReplayRun (w : Window) (r : Request) (s : State) : Out := s.onDoorbell cmdReplayRun w r

/-- An EXPORT finishes: the log's BCB stream is written under R150 (R583). -/
def Dev.exportDone (d : Dev) (w n : Nat) : Dev :=
  match d.group.logs.find? (fun p => p.2.export_ == some (w, n)) with
  | none => d
  | some (id, l) => (d.modLog id (fun l => { l with export_ := none })).completeWith w n l.ctx.out

/-- REPLAY_EXPORT_DONE (R583). -/
def execReplayExportDone (w : Window) (ticket : Nat) (s : State) : Out := s.onRunning (fun d => d.exportDone w.num ticket)

/-- A DELETE finishes: the log's extents are free (R583). -/
def Dev.logDeleteDone (d : Dev) (w n : Nat) : Dev :=
  match d.group.logs.find? (fun p => p.2.delete == some (w, n)) with
  | none => d
  | some (id, _) =>
    let d : Dev := { d with group := { d.group with logs := AMap.del d.group.logs id } }
    d.completeTicket w n Status.success 0

/-- REPLAY_LOG_DELETE_DONE (R583). -/
def execReplayLogDeleteDone (w : Window) (ticket : Nat) (s : State) : Out := s.onRunning (fun d => d.logDeleteDone w.num ticket)

/-- LOG_END of a log, none of a truncated one (R581). -/
def Log.endRec (l : Log) : Option LogRec := l.records.find? (fun r => r.kind == LogKind.logEnd)

/-- TICK_MARK records of a log. -/
def Log.marks (l : Log) : List LogRec := l.records.filter (fun r => r.kind == LogKind.tickMark)

/-- Whether a replay has reached the end of its log (R586). -/
def Replay.reachedEnd (r : Replay) (l : Log) (st : Stream) : Bool :=
  let last := maxNat (l.marks.map (fun m => m.get 0 8))
  let goal := match l.endRec with
    | some e => max last (e.get 8 8)
    | none => last
  st.startTick != 0 && decide (last ≤ r.matched) && decide (goal ≤ st.nextBillet)

/-- The final status of a replay, none while it goes on (R584, R586). -/
def Replay.verdict (r : Replay) (l : Log) (st : Option Stream) : Option Status :=
  if r.aborted then some Status.replayAborted
  else if r.missing then some Status.replayInputMissing
  else if r.diverged.isSome then some Status.replayDiverged
  else match st with
    | none => some Status.replayAborted
    | some st => if r.reachedEnd l st then some Status.success else none

/-- The report of a replay (Table 17-5). -/
def Replay.report (r : Replay) (l : Log) (st : Option Stream) (status now : Nat) : List Byte :=
  let (a, b, c) := r.diverged.getD (2 ^ 64 - 1, 0, 0)
  leBytes 2 status ++ leBytes 1 (bitNat l.endRec.isNone) ++ zeros 1 ++ leBytes 4 r.log ++ leBytes 8 r.matched ++ leBytes 8 a ++ leBytes 8 b ++ leBytes 8 c ++
  leBytes 8 ((st.map Stream.nextBillet).getD 0) ++ leBytes 8 ((st.map Stream.startTick).getD 0) ++ leBytes 8 now

/-- A replay ends: its stream is deleted, its report written, its ticket completed (R586). -/
def Dev.replayEnd (d : Dev) (sid : Nat) : Dev :=
  match d.group.replays.find? (fun r => r.stream == sid) with
  | none => d
  | some r => match AMap.get? d.group.logs r.log with
    | none => d
    | some l =>
      let st := d.stream? sid
      match r.verdict l st with
      | none => d
      | some v =>
        if d.workRuns sid then d.stopWork sid
        else
          let report := r.report l st v d.tick.count
          let d := if ((st.bind Stream.deleting)).isSome then d else d.removeStream sid
          let d : Dev := { d with group := { d.group with replays := d.group.replays.filter (fun x => x.stream != sid) } }
          let d := d.modLog r.log (fun l => { l with run := none })
          match l.run with
          | some (w, n) => d.completeReport w n v report
          | none => d

/-- REPLAY_END (R586): it takes effect once the replay has reached LOG_END, diverged, lost an input or been aborted. -/
def execReplayEnd (stream : Nat) (s : State) : Out := s.onRunning (fun d => d.replayEnd stream)

/-! ### BARRIER_JOIN (R587, R588) -/

/-- The membership that a BARRIER_JOIN asks for (Table 17-6). -/
def joinFields (x : Ctx) : Membership :=
  { role := x.get 1 1, position := x.get 2 1, ptpEn := bitOf (x.get 3 1) 0, groupId := x.get 4 4, groupSize := x.get 8 4, rank := x.get 12 4,
    ptpPort := x.get 16 1, ptpDomain := x.get 17 1 }

/-- Whether the fields of a join hold defined values, in combinations that R588 permits. -/
def Membership.legal (m : Membership) : Bool :=
  decide (m.role ≤ 2) && (decide (m.position ≤ 15) || m.position == 0xFF) && !(m.role == 2 && m.ptpEn) &&
  !(m.role == 0 && (!m.ptpEn || m.position != 0xFF)) && !(m.role != 0 && m.position == 0xFF) && !(m.role == 1 && m.position != 0) &&
  !(m.role == 2 && m.position == 0) && decide (1 ≤ m.groupSize && m.groupSize ≤ 65536) && decide (m.rank < m.groupSize) &&
  (if m.ptpEn then decide (m.ptpPort ≤ 3 && m.ptpDomain ≤ 127) else m.ptpPort == 0 && m.ptpDomain == 0)

/-- Whether a port is in service (R490). -/
def Dev.portServes (d : Dev) (p : Nat) : Bool := ((d.haul.ports[p]?).map Port.inService).getD false && decide (p < variantPorts d.boot.fuses.variant)

/-- The device outside any group: it runs free from its count, and SOURCE reads 0 (R588). -/
def Dev.leaveGroup (d : Dev) : Dev :=
  { d with
    group := { d.group with member := none, joining := none, ptpLocked := false, syncGood := 0, syncBad := 0, epoch := none, base := none, ptpRef := none,
                            aligned := false, awaiting := false }
    tick := { d.tick with source := 0 } }

/-- BARRIER_JOIN (R588). -/
def cmdBarrierJoin : Cmd :=
  { opcode := 0x0701
    admin := true
    ticketed := true
    check := fun d x =>
      let m := joinFields x
      let leave := bitOf (x.get 0 1) 0
      { lenOk := x.r.len == 24
        rsvOk := decide (x.get 0 1 < 2) && (if leave then x.rsv 1 23 else decide (x.get 3 1 < 2) && x.rsv 18 6)
        field := needs (leave || m.legal) Status.fieldInvalid
        own := if leave then needs d.asMember.isSome Status.notInGroup
          else firstFail [needs d.asMember.isNone Status.groupMember, needs (m.position == d.expected.tickPosition) Status.tickPositionMismatch,
            needs (!m.ptpEn || d.portServes m.ptpPort) Status.portUnavailable] }
    run := fun d x n =>
      if bitOf (x.get 0 1) 0 then
        let d := match d.group.joining with
          | some (w, k, _) => d.completeTicket w k Status.notInGroup 0
          | none => d
        { dev := (d.leaveGroup).completeTicket x.w n Status.success 0 }
      else
        let d : Dev := { d with
          hearth := { d.hearth with log := (d.tick.count, x.get 4 4) :: d.hearth.log }
          group := { d.group with joining := some (x.w, n, joinFields x), aligned := false, ptpLocked := false, syncGood := 0, syncBad := 0, base := none,
                                  epoch := none, ptpRef := none } }
        { dev := d } }

/-- BARRIER_JOIN (R588). -/
def execBarrierJoin (w : Window) (r : Request) (s : State) : Out := s.onDoorbell cmdBarrierJoin w r

/-- BARRIER_JOIN_DONE: the join completes once the device is aligned as its role asks (R588). -/
def Dev.joinDone (d : Dev) : Dev :=
  match d.group.joining with
  | none => d
  | some (w, n, m) =>
    let there := if m.role = 0 then d.group.ptpLocked else d.group.aligned && !d.tick.resync
    if there then
      let d : Dev := { d with group := { d.group with joining := none, member := some m } }
      d.completeTicket w n Status.success 0
    else d

/-- BARRIER_JOIN_DONE (R588). -/
def execBarrierJoinDone (s : State) : Out := s.onRunning Dev.joinDone

/-- A join that fails leaves the device outside the group (R588). -/
def Dev.joinFails (d : Dev) (status : Status) : Dev :=
  match d.group.joining with
  | none => d
  | some (w, n, _) => (d.leaveGroup).completeTicket w n status 0

/-- SYNC_TIMEOUT: a join not aligned within 10 s (R588). -/
def execSyncTimeout (s : State) : Out := s.onRunning (fun d => d.joinFails Status.syncTimeout)

/-! ### The TICK bus (R589, R590, R595) -/

/-- The 80 bits of a frame that its CRC covers, as 10 bytes, most significant first. -/
def frameHead (tick period flags : Nat) : List Byte := beBytes 8 tick ++ beBytes 2 (period * 32 + flags)

/-- A frame of the TICK bus (R589). -/
def tickFrameBytes (tick period flags : Nat) : List Byte :=
  let h := frameHead (tick % 2 ^ 64) (period % 2048) (flags % 32)
  h ++ beBytes 2 (crc16Msb 0x1021 0xFFFF h)

/-- A received frame: TICK, PERIOD_US and FLAGS, when its CRC matches and its period lies from 100 to 1,600 (R589). -/
def parseTickFrame (b : List Byte) : Option (Nat × Nat × Nat) :=
  if b.length ≠ 12 || crc16Msb 0x1021 0xFFFF (b.take 10) ≠ beAt b 10 2 then none
  else
    let t := beAt b 0 8
    let p := beAt b 8 2 / 32
    let f := beAt b 8 2 % 32
    if decide (100 ≤ p) && decide (p ≤ 1600) then some (t, p, f) else none

/-- Whether the device makes its boundaries by the pulses of a TICK bus. -/
def Dev.onBus (d : Dev) : Bool := (d.asMember.map (fun m => m.role != 0)).getD false

/-- Whether the device follows a master's frames. -/
def Dev.isFollower (d : Dev) : Bool := (d.asMember.map (fun m => m.role == 2)).getD false

/-- The count loaded with `t`: what the plans hold moves with it (R590, R593, R597); the TROUBLE events of the tick come first (R87). -/
def Dev.renumber (d : Dev) (t : Nat) : Dev :=
  let n := d.tick.count
  let d := d.postTrouble.mapItems (fun i => if i.placed then { i with planTick := i.planTick + t - n } else i)
  { d with tick := { d.tick with count := t, plan := d.tick.plan.map (fun p => { p with tick := p.tick + t - n }) } }

/-- A frame complete and checked, after the boundary that it marks (R590, R594). A device that joins takes the period of a valid frame, and its count
at its reference boundary (RESYNC); a count above the frame's ends the join (R588). -/
def Dev.tickFrameIn (d : Dev) (b : List Byte) : Dev :=
  if !d.onBus then d
  else match parseTickFrame b with
    | none => d.count Counter.tickFrameBad 0 1
    | some (t, p, f) =>
      let waits := d.isFollower && (d.group.awaiting || !d.group.aligned)
      if waits then
        if d.group.joining.isSome && decide (t < d.tick.count) then d.joinFails Status.tickBackwards
        else { d with tick := { d.tick with periodUs := p } }
      else if !bitOf f 0 && t ≠ d.tick.count then d.count Counter.tickFrameBad 0 1
      else
        let d : Dev := if bitOf f 0 then d.renumber t else d
        if d.isFollower then { d with tick := { d.tick with periodUs := p, source := 1 } } else d

/-- TICK_BUS_FRAME (R590). -/
def execTickBusFrame (frame : List Byte) (s : State) : Out := s.onRunning (fun d => d.tickFrameIn frame)

/-- A member out of alignment: SOURCE reads 0, and it says so (R595). -/
def Dev.loseAlignment (d : Dev) (cause : Nat) : Dev :=
  let d : Dev := { d with tick := { d.tick with source := 0 }, group := { d.group with aligned := false, ptpLocked := false, syncGood := 0, syncBad := 0 } }
  ((d.chipTrouble ChipBit.syncLost).count Counter.syncLoss 0 1).event adminWin EventCode.syncLost 0 [(20, 1, cause)]

/-- TICK_PULSE_MISSING: two consecutive boundaries of a follower pass with no pulse (R595). -/
def Dev.pulseMissing (d : Dev) : Dev := if d.isFollower && d.group.member.isSome && d.group.aligned then d.loseAlignment 1 else d

/-- TICK_PULSE_MISSING (R595). -/
def execTickPulseMissing (s : State) : Out := s.onRunning Dev.pulseMissing

/-! ### PTP (R591, R592, R595) -/

/-- Whether the device is a PTP member. -/
def Dev.ptpMember (d : Dev) : Bool := (d.asMember.map Membership.ptpEn).getD false

/-- PTP lost by a member that was locked, or that a tick epoch aligns (R595). -/
def Dev.losePtp (d : Dev) : Dev :=
  if d.group.ptpLocked || d.tick.source = 2 then d.loseAlignment 2 else d

/-- A Sync: the offset measured, and the PTP time that the clock gives the boundary of the running tick. PTP locks after 16 offsets within ±45 ns in a
row, and is lost after 8 beyond ±500 ns in a row. A member that locks again waits for its reference boundary (R591, R595, R597). -/
def Dev.ptpSync (d : Dev) (offset : Int) (boundaryNs : Nat) : Dev :=
  if !d.ptpMember then d
  else
    let good := if offset.natAbs ≤ 45 then d.group.syncGood + 1 else 0
    let bad := if 500 < offset.natAbs then d.group.syncBad + 1 else 0
    let d : Dev := { d with group := { d.group with ptpOffset := offset, syncGood := good, syncBad := bad, ptpRef := some (boundaryNs, d.tick.clockNs) } }
    if 8 ≤ bad then d.losePtp
    else if 16 ≤ good && !d.group.ptpLocked then
      { d with group := { d.group with ptpLocked := true, awaiting := d.group.awaiting || (d.group.member.isSome && d.group.base.isSome && !d.group.aligned) } }
    else d

/-- PTP_SYNC_MESSAGE (R591). -/
def execPtpSyncMessage (offset : Int) (boundaryNs : Nat) (s : State) : Out := s.onRunning (fun d => d.ptpSync offset boundaryNs)

/-- PTP_SYNC_TIMEOUT: no Sync for 3 s (R595). -/
def execPtpSyncTimeout (s : State) : Out := s.onRunning (fun d => if d.ptpMember then d.losePtp else d)

/-- The PTP time of the boundary that began the running tick, by the last Sync (R592). -/
def Dev.ptpBoundary (d : Dev) : Option Nat :=
  if d.group.ptpLocked then d.group.ptpRef.map (fun r => r.1 + (d.tick.clockNs - r.2)) else none

/-! ### TICK_EPOCH_SET (R592) -/

/-- The number that the current schedule gives its last boundary before PTP time `at_`, `now` being the time of the last boundary made. -/
def Dev.lastBefore (d : Dev) (now at_ : Nat) : Nat :=
  let p := d.tick.periodUs * 1000
  match d.tick.change with
  | some (q, t) =>
    let turn := now + (t - d.tick.count) * p
    if d.tick.count < t && turn < at_ then t + (at_ - turn - 1) / (q * 1000) else d.tick.count + (at_ - now - 1) / p
  | none => d.tick.count + (at_ - now - 1) / p

/-- TICK_EPOCH_SET (R592). -/
def cmdTickEpochSet : Cmd :=
  { opcode := 0x0702
    admin := true
    check := fun d x =>
      let at_ := x.get 0 6 * 1000000000 + x.get 8 4
      let period := x.get 12 2
      let now := d.ptpBoundary.getD 0
      { lenOk := x.r.len == 24
        rsvOk := x.rsv 6 2 && x.rsv 14 2
        field := needs (decide (x.get 8 4 ≤ 999999999)) Status.fieldInvalid
        own := firstFail [needs ((d.group.member.map Membership.ptpEn).getD false) Status.ptpNotEnabled, needs d.ptpBoundary.isSome Status.noPtpTime,
          needs (decide (now + 10000000 ≤ at_)) Status.epochTimePast,
          needs (decide (100 ≤ period && period ≤ 1600 && d.fittedMin ≤ period)) Status.groupPeriodTooShort,
          needs (decide (d.lastBefore now at_ < x.get 16 8)) Status.tickBackwards] }
    run := fun d x _ =>
      let e : TickEpoch := { atNs := x.get 0 6 * 1000000000 + x.get 8 4, period := x.get 12 2, tickAt := x.get 16 8 }
      { dev := { d with group := { d.group with epoch := some e } } } }

/-- TICK_EPOCH_SET (R592). -/
def execTickEpochSet (w : Window) (r : Request) (s : State) : Out := s.onDoorbell cmdTickEpochSet w r

end Sys2Proof.Machine
end

