-- ==== Sys2Proof/Machine/Levels.lean ====
section
/-!
DEFINITION. Machine/Levels.lean: READ_COUNTERS and the levels that it reads (R171, R172, R257, R536, R569, R602, R638).
-/
namespace Sys2Proof.Machine

/-- An integer as a 64-bit two's complement number. -/
def int64 (x : Int) : Nat := (x % (2 ^ 64 : Nat)).toNat

/-- A rational rounded down to a whole number of at least 0. -/
def floorNat (q : Rat) : Nat := (Rat.floor q).toNat

/-- The chip-scoped levels of the Face (R257). -/
def Dev.faceLevel (d : Dev) (id : Nat) : Nat :=
  if id = Level.slcLimit then d.face.slcLimit
  else if id = Level.slcHeld then d.slcHeld
  else if id = Level.validBytes then d.validBytes
  else if id = Level.freeBytes then d.freeBytes
  else if id = Level.dirtyPermit then d.face.dirtyPermit
  else if id = Level.dirtyNow then d.dirtyNow
  else if id = Level.diesInService then d.diesInService
  else d.diesIn .demoted

/-- The levels of the Bellows (Table 18-11). -/
def Dev.bellowsLevel (d : Dev) (id : Nat) : Nat :=
  if id = Level.powerMw then d.bellows.powerMw
  else if id = Level.capW then d.capInForce
  else if id = Level.capEffW then floorNat d.capEff
  else if id = Level.pFloorW then d.pFloor
  else if id = Level.ladderStep then d.bellows.step
  else if id = Level.powerState then d.bellows.inForce.code
  else if id = Level.tjMaxMc then int64 (d.bellows.temps.foldl max (d.temp 0))
  else if id = Level.thermalCapW then (d.bellows.cTh.map floorNat).getD 0
  else if id = Level.holdupCUf then floorNat (d.bellows.cap * (1000000 : Nat))
  else if id = Level.holdupEuMj then floorNat (d.bellows.euReported * (1000 : Nat))
  else d.bellows.vFull

/-- The levels of a tenant (Tables 01-5 and 16-10). -/
def Dev.tenantLevel (d : Dev) (id t : Nat) : Nat :=
  if id = Level.deferredNow then d.deferredNow t
  else match AMap.get? d.tenants t with
    | none => 0
    | some x =>
      if id < Level.delayMedia then x.depth.getD (id - Level.depthMedia) 0
      else if id < Level.egressTc then x.delay.getD (id - Level.delayMedia) 0
      else if id = Level.egressTc then int64 x.tc
      else int64 x.tp

/-- The levels of a reservoir (R536). -/
def Dev.reservoirLevel (d : Dev) (id i : Nat) : Nat :=
  match d.res? (resKey (resTenant i) (resNum i)) with
  | none => 0
  | some r =>
    if id = Level.fillBytes then r.fill
    else if id = Level.drainPerTick then floorNat r.d
    else floorNat r.rateSeen

/-- The value of a level. -/
def Dev.level (d : Dev) (id i : Nat) : Nat :=
  match levelScope id with
  | some .tenant => d.tenantLevel id i
  | some .reservoir => d.reservoirLevel id i
  | _ =>
    if id < 0x0700 then d.faceLevel id
    else if id = Level.ptpOffsetNs then int64 d.group.ptpOffset
    else if id = Level.logCount then d.group.logs.length
    else d.bellowsLevel id

/-- The scope of a counter or a level. -/
def readScope (id : Nat) : Option Scope := match counterScope id with | some s => some s | none => levelScope id

/-- The value that READ_COUNTERS returns for an id and an INDEX. -/
def Dev.readValue (d : Dev) (id i : Nat) : Nat :=
  match counterScope id with
  | none => d.level id i
  | some .tenantOrReservoir => d.counter id (if i < 1024 then i else slipResIndex (resKey (resTenant i) (resNum i)))
  | some .reservoir => d.counter id (resKey (resTenant i) (resNum i))
  | some _ => d.counter id i

/-- The entries of READ_COUNTERS: id and INDEX. -/
def counterEntries (x : Ctx) : List (Nat × Nat) := (List.range (x.get 0 2)).map (fun k => (x.get (8 + 8 * k) 2, x.get (12 + 8 * k) 4))

/-- READ_COUNTERS (R172). -/
def cmdReadCounters : Cmd :=
  { opcode := 0x0103
    check := fun d x =>
      let n := x.get 0 2
      let es := counterEntries x
      { lenOk := x.r.len == 8 + 8 * n
        rsvOk := x.rsv 2 6 && (List.range n).all (fun k => x.rsv (10 + 8 * k) 2)
        field := needs (decide (1 ≤ n && n ≤ 64) && es.all (fun e => match readScope e.1 with | some s => s.indexOk e.2 | none => false)) Status.fieldInvalid
        object := firstFail (es.map (fun e => (readScope e.1).bind (fun s => d.scopeObject x s e.2))) }
    run := fun d x _ =>
      { dev := d, payload := leBytes 2 (x.get 0 2) ++ zeros 6 ++ (counterEntries x).flatMap (fun e => leBytes 8 (d.readValue e.1 e.2)) } }

/-- READ_COUNTERS (R172). -/
def execReadCounters (w : Window) (r : Request) (s : State) : Out := s.onDoorbell cmdReadCounters w r

end Sys2Proof.Machine
end

