-- ==== Sys2Proof/Machine/Boundary.lean ====
section
/-!
DEFINITION. Machine/Boundary.lean: what happens at a tick boundary (Table 01-2): carries, coefficients and tags, heads and slots, hand-off, epochs, digests and logs,
replays, the release of the plan, and queue levels; the boundaries of a tick epoch and of a resync (R14 to R45, R87, R464 to R474, R544, R546, R557, R575 to R597).
-/
namespace Sys2Proof.Machine

/-! ### Carries, coefficients and tags (R25, R27, R544, R546) -/

/-- An item as the boundary of the tick `t` that ends leaves it: one that runs goes on, and one admitted and not started is pending (R27). -/
def Item.cross (i : Item) (t periodNs : Nat) : Item :=
  match i.phase with
  | .running => { i with ran := i.ran + (periodNs - i.startAt), startAt := 0 }
  | .admitted => if i.planTick ≤ t then { i with phase := .pending } else i
  | _ => i

/-- CARRY of each item that runs across the boundary, and its charge added to its queue's finish tags (R27, R544). -/
def Dev.carryItem (d : Dev) (i : Item) : Dev :=
  if i.phase != .running then d
  else
    let d := if i.queue < 1024 then d.count Counter.carry i.queue 1 else d
    if i.charged = 0 || i.queue = peerQueue then d else i.domains.foldl (fun d k => d.addTag (d.tick.count + 1) i.queue k.1 i.charged) d

/-- Items that cross a boundary. -/
def Dev.crossItems (d : Dev) : Dev :=
  let d := d.tick.items.foldl Dev.carryItem d
  d.mapItems (fun i => { i.cross d.tick.count d.periodNs with charged := 0 })

/-- The coefficient of a kind after a tick in which its items measured `m`: a sixteenth of the way, held from 0.5 to 4 times the fitted value (R25). -/
def nextCoef (k m : Rat) (fitted : Nat) : Rat := max ((fitted : Rat) / 2) (min (4 * (fitted : Rat)) (k + (m - k) / 16))

/-- Coefficients of the kinds that completed items in the tick (R25). -/
def Dev.updateCoefs (d : Dev) : Dev :=
  let d := d.tick.measured.foldl (fun d p =>
    if (d.kindRec p.1).isNone || p.2.2 = 0 then d
    else { d with tick := { d.tick with coefs := AMap.set d.tick.coefs p.1 (nextCoef (d.coef p.1) (p.2.1 / (p.2.2 : Rat)) (d.kindFitted p.1)) } }) d
  { d with tick := { d.tick with measured := [] } }

/-- Whether a domain holds an item that waits: every EMIT waits in both egress domains. -/
def Item.inDomain (i : Item) (k : Nat) : Bool :=
  i.waiting && (i.tags.any (fun g => g.domain == k) || i.domains.any (fun x => x.1 == k) || (i.cls == 4 && (k == committedDomain || k == excessDomain)))

/-- The least tag in use in a domain: of its virtual time, its last finish tags, and the start tags of items that wait. -/
def Dev.leastTag (d : Dev) (k : Nat) (x : Domain) : Nat :=
  let tags := (d.tick.items.filter Item.waiting).flatMap (fun i => (i.tags.filter (fun g => g.domain == k)).map Tag.start)
  (x.last.map Prod.snd ++ tags).foldl min x.v

/-- A tag lowered. -/
def Tag.lower (g : Tag) (k m : Nat) : Tag := if g.domain = k then { g with start := g.start - m, finish := g.finish - m } else g

/-- The tags of a domain at a boundary: 0 where nothing waits, else lowered by the least in use (R546). -/
def Dev.lowerTags (d : Dev) (k : Nat) (x : Domain) : Dev :=
  if d.tick.items.any (fun i => i.inDomain k) then
    let m := d.leastTag k x
    let d : Dev := { d with tick := { d.tick with domains := AMap.set d.tick.domains k { v := x.v - m, last := AMap.mapKV (fun _ f => f - m) x.last } } }
    d.mapItems (fun i => if i.waiting then { i with tags := i.tags.map (fun g => g.lower k m) } else i)
  else { d with tick := { d.tick with domains := AMap.del d.tick.domains k } }

/-- The tags of every domain at a boundary. -/
def Dev.lowerAllTags (d : Dev) : Dev := d.tick.domains.foldl (fun d p => d.lowerTags p.1 p.2) d

/-! ### The count (R15, R16, R597) -/

/-- Items of plans not yet released, back among those that wait. -/
def Dev.cancelPlan (d : Dev) : Dev :=
  let d := d.mapItems (fun i => if i.phase = .admitted && decide (d.tick.count < i.planTick) then
    { i with phase := .held, units := if i.cls = 3 then i.units else if i.cls = 0 then i.dies.map Prod.fst else [], probe := false, heat := 0, ringBound := false } else i)
  { d with tick := { d.tick with plan := none } }

/-- Whether the plan of the tick that begins is there (R20). -/
def Dev.planReady (d : Dev) (t : Nat) : Bool := (d.tick.plan.map (fun p => p.tick == t)).getD false

/-- A tick without its plan: PLAN_LATE and TICK_PLAN_LATE, but for the empty ticks of a resync and those of Slumber (R20, R596, R597). -/
def Dev.planLate (d : Dev) : Dev :=
  if d.planReady d.tick.count || d.bellows.slumber then d
  else (d.count Counter.planLate 0 1).chipTrouble ChipBit.tickPlanLate

/-- The end of a resync, two ticks after its reference boundary (R597, R601). -/
def Dev.resyncEnd (d : Dev) : Dev :=
  if !d.tick.resync then d
  else
    let (diff, e) := d.group.resyncInfo.getD (0, 0)
    let d : Dev := { d with tick := { d.tick with resync := false }, group := { d.group with resyncInfo := none } }
    d.event adminWin EventCode.resyncDone 0 [(24, 8, int64 diff), (32, 4, min e (2 ^ 32 - 1))]

/-- The count of the boundary, with the TROUBLE events of the tick that ends (R15, R87); the ticks of a resync run on empty plans. -/
def Dev.nextCount (d : Dev) : Dev :=
  let empty := decide (0 < d.tick.emptyTicks)
  let d := (if empty then d.cancelPlan else d).postTrouble
  let d : Dev := { d with tick := { d.tick with count := d.tick.count + 1, clockNs := d.tick.clockNs + d.periodNs, emptyTicks := d.tick.emptyTicks - 1 } }
  if empty then d else d.resyncEnd.planLate

/-- A tick epoch in force from the boundary that it names (R593). -/
def Dev.beginTickEpoch (d : Dev) (e : TickEpoch) : Dev :=
  { d with
    tick := { d.tick with periodUs := e.period, change := none, source := 2 }
    group := { d.group with epoch := none, base := some (e.atNs, e.tickAt), aligned := true } }

/-- The frame that a master drives at its boundary, which also aligns a master that joins (R588, R589). -/
def Dev.driveFrame (d : Dev) (flags : Nat) : Dev :=
  match d.asMember with
  | none => d
  | some m =>
    if m.role != 1 then d
    else
      let d := (d.emit .tickPulse).emit (.tickFrame (tickFrameBytes d.tick.count d.tick.periodUs flags))
      { d with group := { d.group with aligned := true } }

/-! ### Parameters (R169, R529) -/

/-- STALENESS of a live-ingest stream's context brought to its parameter. -/
def Dev.syncStaleness (d : Dev) (sid : Nat) : Dev :=
  match d.stream? sid with
  | none => d
  | some st =>
    let v := d.param ParamId.stalenessUs sid
    if st.ingest.isNone || st.staleness = v then d else d.writeStream sid (fun s => { s with staleness := v })

/-- Parameters that take effect at the boundary. -/
def Dev.paramBoundary (d : Dev) : Dev :=
  let d := (d.applyPending d.tick.count).windowBoundary
  (d.streams.map Prod.fst).foldl Dev.syncStaleness d

/-! ### Slots (R29 to R40, R464, R474, R504) -/

/-- The numbers of the next `k` billets that a reservoir is to take: the closed ones dealt to it, then those to come in the epoch. -/
def Stream.slotNums (st : Stream) (r k : Nat) : List Nat :=
  let mine := (st.closed.filter (fun b => b.res == some r)).map Billet.num
  let n := max 1 st.dealing.length
  let later := match st.dealing.findIdx? (fun x => x == r) with
    | none => []
    | some p => if st.ended then [] else (List.range k).map (fun j => st.nextBillet + (p + n - st.nextBillet % n) % n + j * n)
  (mine ++ later).take k

/-- Reservoirs whose due slots a stream's billets take, with the numbers of those billets. -/
def Dev.dueSlots (d : Dev) (sid : Nat) (st : Stream) : List (Nat × List Nat) :=
  (d.haul.reservoirs.filter (fun p => resTenant p.1 == st.tenant && p.2.state == .active && ((d.slotStream p.1).map Prod.fst) == some sid)).map
    (fun p => (p.1, st.slotNums (resNum p.1) p.2.due.length))

/-- A slot that slips, of the tenant and of the reservoir (R39). -/
def Dev.slip (d : Dev) (t key : Nat) : Dev := (d.count Counter.slip t 1).count Counter.slip (slipResIndex key) 1

/-- The slots of a reservoir decided in order: ready billets are handed over, and from the first that is not, every slot slips (R30, R39, R40). -/
def Dev.decideSlots (d : Dev) (sid t key : Nat) (nums : List Nat) (canHand : Bool) : Dev :=
  let due := ((d.res? key).map Reservoir.due).getD []
  ((due.zip nums).foldl (fun (acc : Dev × Bool) p =>
    let b := (acc.1.stream? sid).bind (fun st => st.closed.find? (fun b => b.num == p.2 && b.packLeft == 0))
    match acc.2, b with
    | true, some b => (acc.1.handOver key sid p.1 b, true)
    | _, _ => (acc.1.slip t key, false)) (d, canHand)).1

/-- The trial, whose placements the Hammer packs as it makes it: they hold back no slot (R464). -/
def Dev.trialAt (d : Dev) (sid want : Nat) : Dev :=
  let n := d.tick.nextItem
  let d := d.trial sid want
  let fresh := d.tick.items.filter (fun i => decide (n ≤ i.id))
  fresh.foldl (fun d i => match i.job with
    | .pack s _ pos => if s = sid then (d.dropItem i.id).modBilletOf sid pos (fun b => { b with packLeft := b.packLeft - 1 }) else d
    | _ => d) d

/-- The slots of a stream at a boundary: the trial when a billet due is not closed, then each reservoir (R464, R484). -/
def Dev.streamSlots (d : Dev) (sid : Nat) : Dev :=
  match d.stream? sid with
  | none => d
  | some st =>
    if st.replayOf.isSome || st.deleting.isSome || st.standing != .running then d
    else
      let open_ := ((d.dueSlots sid st).flatMap Prod.snd).filter (fun n => decide (st.nextBillet ≤ n))
      let d := if open_.isEmpty || st.ended then d else d.trialAt sid (maxNat open_ + 1)
      match d.stream? sid with
      | none => d
      | some st => ((d.dueSlots sid st).foldl (fun d p => d.decideSlots sid st.tenant p.1 p.2 (st.state == .running)) d).discardDealt sid

/-! ### Replays (R584 to R586) -/

/-- The tick offset of a record from its log's header. -/
def LogRec.offset (r : LogRec) (recs : List LogRec) : Nat := r.tick - ((recs.head?).map LogRec.tick).getD 0

/-- FRAME records whose tick offset has come, accepted in SEQUENCE order. -/
def Dev.replayFrames (d : Dev) (sid : Nat) : Dev :=
  match d.stream? sid with
  | none => d
  | some st =>
    let recs := d.replayRecs st
    if st.state != .running then d
    else (recs.filter (fun r => r.kind == LogKind.frame && decide (r.offset recs ≤ d.tick.count - st.startTick))).foldl (fun d r =>
      match ((d.stream? sid).bind Stream.ingest).map Ingest.nextSeq with
      | some n => if r.get 0 8 = n then d.acceptFrame sid (bytesAt r.body 16 32) (r.body.drop 48) 0 0 0 else d
      | none => d) d

/-- Billets handed to places whose slots have fallen due by the HEAD records: they are DROPped. -/
def Dev.replaySlots (d : Dev) (sid : Nat) : Dev :=
  match d.stream? sid with
  | none => d
  | some st =>
    let recs := d.replayRecs st
    let n := max 1 st.dealing.length
    let due := fun (p : Nat) => sumNat ((recs.filter (fun r => r.kind == LogKind.head && r.get 0 2 == p && decide (r.offset recs ≤ d.tick.count - st.startTick))).map
      (fun r => r.get 16 8))
    if st.state != .running then d
    else (st.closed.filter (fun b => b.packLeft == 0 && decide (b.num / n < due (b.num % n)))).foldl (fun d b =>
      (d.dropBufs b.bufs OwnerClass.hammer st.tenant).takeBillet sid b.num) d

/-- The digest that a stream holds for a count of billets, while it keeps it. -/
def Stream.digestAt (st : Stream) (n : Nat) : Option (List Byte) :=
  match st.closed.find? (fun b => b.num + 1 == n) with
  | some b => some b.digest
  | none => if n = st.nextBillet then some st.digest else (st.records.find? (fun r => r.billets == n)).map DigestRec.digest

/-- A replay's digests compared with the TICK_MARK records of the counts that it has reached, up to the first difference (R586). -/
def Replay.compare (r : Replay) (marks : List LogRec) (st : Stream) (now : Nat) : Replay :=
  marks.foldl (fun (r : Replay) m =>
    let n := m.get 0 8
    if r.diverged.isSome || decide (st.nextBillet < n) || decide (n < r.matched) then r
    else match st.digestAt n with
      | none => r
      | some g => if padTo g 32 = bytesAt m.body 8 32 then { r with matched := n } else { r with diverged := some (n, m.tick, now) }) r

/-- The replays at a boundary. -/
def Dev.replayBoundary (d : Dev) : Dev :=
  let rs := d.group.replays.map (fun r => match d.stream? r.stream, AMap.get? d.group.logs r.log with
    | some st, some l => if st.startTick != 0 then r.compare l.marks st d.tick.count else r
    | _, _ => r)
  let d : Dev := { d with group := { d.group with replays := rs } }
  rs.foldl (fun d r => (d.replaySlots r.stream).replayFrames r.stream) d

/-! ### Digests, logs and commands of streams (R483, R576, R579, R581) -/

/-- A log flushed at the boundary; when its bytes find no space, the recording ends (R581). -/
def Dev.logBoundary (d : Dev) (sid : Nat) : Dev :=
  match (d.stream? sid).bind Stream.log with
  | some (id, true) =>
    let d := d.flushLog id
    if d.usable < d.validBytes then d.endLog sid 2 else d
  | _ => d

/-- What a boundary ends and begins on a stream: its digest record, its recording, the commands due, and the recording of a live-ingest stream. -/
def Dev.streamBoundary (d : Dev) (sid : Nat) : Dev :=
  let d := d.digestBoundary sid
  let d := match d.stream? sid with
    | none => d
    | some st => match st.log with
      | none => d
      | some (id, rec_) =>
        if ((AMap.get? d.group.logs id).map Log.stopAsked).getD false then d.endLog sid 1
        else if rec_ && st.state == StreamState.idle then d.endLog sid 0
        else d
  let d := d.streamCmdsDue sid
  let d := match d.stream? sid with
    | some st => if st.ingest.isSome && st.replayOf.isNone && st.state == StreamState.running then d.beginLog sid else d
    | none => d
  (d.modStream sid (fun st => { st with corruptThisTick := 0 })).logBoundary sid

/-! ### The plan released (Table 01-2, R391, R557) -/

/-- Items of BLOCK and REGION ops that found no unit, given one when there is one (R54, R76). -/
def Dev.placeUnplaced (d : Dev) : Dev :=
  (d.tick.items.filter (fun i => i.phase == .pending && i.unplaced)).foldl (fun d i =>
    let near := match i.job with
      | .sample sid pos _ => regionOfBufs ((((d.stream? sid).bind (fun st => AMap.get? st.samples pos)).map (fun s => s.outs.flatMap OpOut.bufs)).getD [])
          (((d.stream? sid).map Stream.home).getD 0)
      | _ => 0
    d.modItem i.id (fun i => { i with units := (d.directUnit (d.itemUnit i) none near).toList })) d

/-- The plan of the tick that has begun, released: its work starts, and its EMITs post their writes. -/
def Dev.releasePlan (d : Dev) : Dev :=
  let n := d.tick.count
  let mine := d.tick.items.filter (fun i => i.phase == .admitted && decide (i.planTick ≤ n))
  let reads := mine.countP (fun i => match i.job with | .sample _ _ 0 => i.cls == 0 | _ => false)
  let launch := match d.tick.plan with | some p => if p.tick = n then p.launch else [] | none => []
  let d : Dev := { d with
    tick := { d.tick with launch := launch, precharge := d.tick.precharge.filter (fun c => launch.contains c), plan := none }
    face := { d.face with readsThisTick := reads, hedgesThisTick := 0 } }
  let d := (d.placeUnplaced).startItems 0
  mine.foldl (fun d i => match i.job with
    | .emit key seq => if ((d.item? i.id).map (fun i => i.phase == .running)).getD false then d.emitStart key seq else d
    | _ => d) d

/-- Items of a tenant's queue in a class that wait, eligible or held (R557). -/
def Dev.queued (d : Dev) (t cls : Nat) : List Item := d.tick.items.filter (fun i => i.queue == t && i.cls == cls && i.waiting && !i.discard)

/-- The depth and the delay of a queue in a class: items, or bytes of egress, and ticks since its oldest became eligible. -/
def Dev.queueLevel (d : Dev) (t cls : Nat) : Nat × Nat :=
  let l := d.queued t cls
  (if cls = 4 then sumNat (l.map Item.cost) else l.length, maxNat (l.map (fun i => d.tick.count + 1 - i.since)))

/-- The queue samples of every tenant (R557). -/
def Dev.queueBoundary (d : Dev) : Dev :=
  { d with tenants := AMap.mapKV (fun t (x : Tenant) => { x with
      depth := (List.range 5).map (fun c => (d.queueLevel t c).1)
      delay := (List.range 5).map (fun c => (d.queueLevel t c).2) }) d.tenants }

/-! ### The boundary -/

/-- Power and heat at a boundary (R612, R624 to R633). -/
def Dev.bellowsBoundary (d : Dev) (found : BoundaryFound) : Dev :=
  let d := ((d.thermalBoundary found.temps).applyStep.emergencyBoundary).bankBoundary found.bankMv
  { d with bellows := { d.bellows with stretches := 0 } }

/-- For each stream of the device, in ascending order. -/
def Dev.eachStream (d : Dev) (f : Dev → Nat → Dev) : Dev := (d.streams.map Prod.fst).foldl f d

/-- A boundary, in the order of Table 01-2; `e` is the tick epoch that takes effect at it. -/
def Dev.boundary (d : Dev) (found : BoundaryFound) (e : Option TickEpoch) : Dev :=
  let d := ((d.energyBoundary found).crossItems).nextCount
  let d := match e with | some e => d.beginTickEpoch e | none => d
  let d := (d.driveFrame (if e.isSome then 1 else 0)).paramBoundary
  let d := (d.updateCoefs.lowerAllTags.auditSnapshots).flushJournal
  let d := d.reservoirBoundary
  let d := ((d.eachStream Dev.ageTick).eachStream Dev.streamSlots).replayBoundary
  let d := d.eachStream (fun d sid => d.epochComplete sid)
  let d := ((d.bellowsBoundary found).mapSpareCells.resumeRegions).limpBoundary
  let d := (d.screenBoundary.placementBoundary).eachStream Dev.streamBoundary
  let d := d.eachStream (fun d sid => ((d.noteDraws sid (((d.stream? sid).map Stream.draws).getD 0)).assemble sid).prefetch sid)
  let d := (d.eachStream (fun d sid => d.epochComplete sid)).releasePlan
  let d := (d.haul.reservoirs.map Prod.fst).foldl Dev.pushReservoir d.sendWaiting
  d.queueBoundary

/-- Whether the generator makes its next boundary: it runs, its oscillator does, and the device does not wait for a reference; a boundary of the old schedule
less than 50 µs before a tick epoch is not made (R593, R596, R597, R714). -/
def Dev.makesBoundary (d : Dev) : Bool :=
  d.tick.running && !d.group.awaiting && !(d.bellows.slumber && d.bellows.lpoLost) &&
  (match d.group.epoch, d.ptpBoundary with
   | some e, some now => decide (now + d.periodNs + 50000 ≤ e.atNs)
   | _, _ => true)

/-- TICK_BOUNDARY (R14). -/
def execTickBoundary (found : BoundaryFound) (s : State) : Out := s.onRunning (fun d => if d.makesBoundary then d.boundary found none else d)

/-! ### The period, tick epochs and resyncs (R45, R593, R597, R598) -/

/-- Whether a barrier waits at a member: it sleeps, waits for its reference, or resyncs (R598). -/
def Dev.barrierWaits (d : Dev) : Bool := d.group.member.isSome && (d.bellows.slumber || d.group.awaiting || d.tick.resync)

/-- PERIOD_CHANGE_TAKES_EFFECT: from the boundary that begins tick PERIOD_AT_TICK the generator counts the new period (R45). -/
def Dev.periodChanges (d : Dev) : Dev :=
  match d.tick.change with
  | none => d
  | some (p, at_) =>
    if d.tick.count < at_ || d.barrierWaits then d
    else { d with tick := { d.tick with periodUs := p, change := none }, hearth := { d.hearth with periodAt := none } }

/-- PERIOD_CHANGE_TAKES_EFFECT (R45). -/
def execPeriodChangeTakesEffect (s : State) : Out := s.onRunning Dev.periodChanges

/-- A tick epoch's boundary: the count is loaded so that it is TICK_AT (R593). -/
def Dev.epochBoundary (d : Dev) (found : BoundaryFound) : Dev :=
  match d.group.epoch with
  | none => d
  | some e => if !d.tick.running || d.barrierWaits then d else (d.renumber (e.tickAt - 1)).boundary found (some e)

/-- TICK_EPOCH_TAKES_EFFECT (R593). -/
def execTickEpochTakesEffect (found : BoundaryFound) (s : State) : Out := s.onRunning (fun d => d.epochBoundary found)

/-- A device aligned to its reference again (R18, R597). -/
def Dev.realign (d : Dev) (m : Membership) : Dev :=
  { d with
    group := { d.group with awaiting := false, aligned := true }
    tick := { d.tick with source := if m.role = 2 then 1 else if m.ptpEn && d.group.base.isSome then 2 else 0 } }

/-- The reference boundary of a member that waits for it, numbered `reference`; `number` is what its own count gives the boundary nearest to it, `eNs` away. Both
equal within 2 µs, the boundary is taken; else the device resyncs. A follower that joins with a greater count fails to join (R588, R597). -/
def Dev.meetReference (d : Dev) (reference number eNs : Nat) (found : BoundaryFound) : Dev :=
  match d.asMember with
  | none => d
  | some m =>
    if !d.tick.running || d.bellows.slumber || !(d.group.awaiting || !d.group.aligned) then d
    else if d.group.joining.isSome && decide (reference < d.tick.count) then d.joinFails Status.tickBackwards
    else if eNs ≤ 2000 && number = reference then
      let d := d.realign m
      if reference ≤ d.tick.count then d else (d.renumber (reference - 1)).boundary found none
    else
      let diff : Int := (reference : Int) - (d.tick.count : Int)
      let d := ((d.cancelPlan.realign m).chipTrouble ChipBit.resync).count Counter.resyncRun 0 1
      let d : Dev := { d with tick := { d.tick with resync := true, emptyTicks := 2 }, group := { d.group with resyncInfo := some (diff, eNs) } }
      (d.renumber (reference - 1)).boundary found none

/-- RESYNC (R597). -/
def execResync (reference number eNs : Nat) (found : BoundaryFound) (s : State) : Out := s.onRunning (fun d => d.meetReference reference number eNs found)

end Sys2Proof.Machine
end

