-- ==== Sys2Proof/Machine/P384.lean ====
section
/-!
DEFINITION. Machine/P384.lean: ECDSA verification on P-384 (FIPS 186-5), which a firmware image's signature passes (R679).
-/
namespace Sys2Proof.Machine

/-- The prime of P-384. -/
def p384P : Nat := 2 ^ 384 - 2 ^ 128 - 2 ^ 96 + 2 ^ 32 - 1

/-- The coefficient b of P-384. -/
def p384B : Nat := 0xb3312fa7e23ee7e4988e056be3f82d19181d9c6efe8141120314088f5013875ac656398d8a2ed19d2a85c8edd3ec2aef

/-- The order of the base point of P-384. -/
def p384N : Nat := 0xffffffffffffffffffffffffffffffffffffffffffffffffc7634d81f4372ddf581a0db248b0a77aecec196accc52973

/-- The base point of P-384. -/
def p384Gx : Nat := 0xaa87ca22be8b05378eb1c71ef320ad746e1d3b628ba79b9859f741e082542a385502f25dbf55296c3a545e3872760ab7
def p384Gy : Nat := 0x3617de4a96262c6f5d9e98bf9292dc29f8f41dbd289a147ce9da3113b5f0b8c00a60b1ce1d7e819d7a431d7c90ea0e5f

/-- `a ^ e mod m` by squaring over the `bits` low bits of `e`, most significant first. -/
def powMod (m a e bits : Nat) : Nat :=
  (List.range bits).foldl (fun r i =>
    let s := r * r % m
    if bitOf e (bits - 1 - i) then s * a % m else s) 1

/-- The inverse modulo a prime below 2³⁸⁴. -/
def invMod (m a : Nat) : Nat := powMod m a (m - 2) 384

/-- A point of the curve; none is the point at infinity. -/
abbrev EcPoint := Option (Nat × Nat)

/-- The sum of two points of P-384. -/
def ecAdd (p q : EcPoint) : EcPoint :=
  match p, q with
  | none, q => q
  | p, none => p
  | some (x1, y1), some (x2, y2) =>
    let m := p384P
    if x1 = x2 ∧ (y1 + y2) % m = 0 then none
    else
      let l := if x1 = x2 then (3 * x1 * x1 + (m - 3)) % m * invMod m (2 * y1 % m) % m
               else (y2 + m - y1) % m * invMod m ((x2 + m - x1) % m) % m
      let x3 := (l * l + 2 * m - x1 - x2) % m
      some (x3, (l * ((x1 + m - x3) % m) + m - y1) % m)

/-- The multiple `k` of a point. -/
def ecMul (k : Nat) (p : EcPoint) : EcPoint :=
  (List.range 384).foldl (fun r i =>
    let d := ecAdd r r
    if bitOf k (383 - i) then ecAdd d p else d) none

/-- Whether (x, y) lies on P-384. -/
def ecOn (x y : Nat) : Bool := decide (x < p384P) && decide (y < p384P) && (y * y % p384P == (x * x * x + (p384P - 3) * x + p384B) % p384P)

/-- ECDSA P-384: whether (r, s) signs the 48-byte digest under the public key (x, y). -/
def ecdsaVerify (x y r s : Nat) (digest : List Byte) : Bool :=
  let n := p384N
  if r = 0 || s = 0 || n ≤ r || n ≤ s || !(ecOn x y) then false
  else
    let e := beNat digest
    let w := invMod n s
    match ecAdd (ecMul (e * w % n) (some (p384Gx, p384Gy))) (ecMul (r * w % n) (some (x, y))) with
    | none => false
    | some (px, _) => px % n == r

end Sys2Proof.Machine
end

