-- ==== Sys2Proof/Machine/Firmware.lean ====
section
/-!
DEFINITION. Machine/Firmware.lean: firmware images, slots and activation records, the boot log, FW_STAGE and FW_ACTIVATE (R678 to R683).
-/
namespace Sys2Proof.Machine

/-! ### Images and slots (R678, R679) -/

/-- Where slot `s` lies in the NOR, and its size. -/
def slotBase (s : Nat) : Nat := 0x00F00000 * s
def slotSize : Nat := 0x00F00000

/-- MAGIC, FORMAT, BODY_LEN, KEY_INDEX and SVN of an image (Table 20-5). -/
def imageBodyLen (b : List Byte) : Nat := leAt b 16 4
def imageKey (b : List Byte) : Nat := leAt b 6 1
def imageSvn (b : List Byte) : Nat := leAt b 12 1
def imageVersion (b : List Byte) : Nat := leAt b 8 4

/-- Whether BODY_LEN lies in its range. -/
def imageLenOk (b : List Byte) : Bool := decide (4096 ≤ imageBodyLen b) && decide (imageBodyLen b ≤ 15728128) && imageBodyLen b % 16 == 0

/-- Check 1 of R679. -/
def imageFormOk (b : List Byte) : Bool :=
  leAt b 0 4 == 0x31574642 && leAt b 4 2 / 256 == 1 && decide (imageKey b ≤ 3) && decide (imageSvn b ≤ 64) && imageLenOk b &&
  b.length == 512 + imageBodyLen b && allZero (bytesAt b 7 1) && allZero (bytesAt b 13 3) && allZero (bytesAt b 20 44) &&
  allZero (bytesAt b 208 48) && allZero (bytesAt b 352 160)

/-- Checks 2 and 3 of R679: the key is not revoked and is fused, and SIGNATURE verifies over header bytes 0 to 255. -/
def Dev.imageSigned (d : Dev) (b : List Byte) : Bool :=
  let k := imageKey b
  !bitOf d.boot.fuses.keyRevoke k && sha384 (bytesAt b 112 96) == d.boot.fuses.keyHash.getD k [] &&
  ecdsaVerify (beAt b 112 48) (beAt b 160 48) (beAt b 256 48) (beAt b 304 48) (sha384 (bytesAt b 0 256))

/-- The status that the checks of R679 give an image. -/
def Dev.imageStatus (d : Dev) (b : List Byte) : Status :=
  if !imageFormOk b then Status.fwImageBad
  else if !d.imageSigned b || sha384 (b.drop 512) != bytesAt b 64 48 then Status.fwSignatureBad
  else if imageSvn b < d.boot.fuses.svnFloor then Status.fwSvnLow
  else Status.success

/-- The image in slot `s`: its header, and the body where BODY_LEN lies in its range. -/
def Dev.slotImage (d : Dev) (s : Nat) : List Byte :=
  let h := d.norBytes (slotBase s) 512
  if imageLenOk h then h ++ d.norBytes (slotBase s + 512) (imageBodyLen h) else h

/-! ### Activation records (R678) -/

/-- Where copy `i` of the activation record lies. -/
def recordBase (i : Nat) : Nat := 0x01E00000 + norSector * i

/-- MAGIC of an activation record. -/
def recordMagic : Nat := 0x54434142

/-- A copy of the activation record as it stands. -/
def Dev.recordCopy (d : Dev) (i : Nat) : List Byte := d.norBytes (recordBase i) 20

/-- Whether a copy is valid. -/
def recordValid (b : List Byte) : Bool :=
  leAt b 0 4 == recordMagic && decide (leAt b 12 1 ≤ 1) && decide (leAt b 13 1 ≤ 1) && leAt b 14 2 == 0 && leAt b 16 4 == crc32c (b.take 16)

/-- The copy in use: the valid one with the greater SEQUENCE, A on a tie. -/
def Dev.recordInUse (d : Dev) : Option Nat :=
  match recordValid (d.recordCopy 0), recordValid (d.recordCopy 1) with
  | true, true => if leAt (d.recordCopy 0) 4 8 < leAt (d.recordCopy 1) 4 8 then some 1 else some 0
  | true, false => some 0
  | false, true => some 1
  | false, false => none

/-- The slot that the record in use names, slot A when none is valid (R680). -/
def Dev.recordSlot (d : Dev) : Nat := (d.recordInUse.map (fun i => leAt (d.recordCopy i) 12 1)).getD 0

/-- COMMIT_SVN of the record in use. -/
def Dev.recordCommits (d : Dev) : Bool := (d.recordInUse.map (fun i => leAt (d.recordCopy i) 13 1 == 1)).getD false

/-- A new activation record, written over the copy not in use. -/
def Dev.writeRecord (d : Dev) (slot : Nat) (commit : Bool) : Dev :=
  let seq := match d.recordInUse with
    | none => 1
    | some i => leAt (d.recordCopy i) 4 8 + 1
  let target := match d.recordInUse with
    | some 0 => 1
    | _ => 0
  let b := leBytes 4 recordMagic ++ leBytes 8 seq ++ leBytes 1 slot ++ leBytes 1 (bitNat commit) ++ zeros 2
  d.norProgram (recordBase target) norSector (b ++ leBytes 4 (crc32c b))

/-! ### The boot log (R681) -/

/-- KIND of a boot log entry. -/
def BootKind.firmware : Nat := 1
def BootKind.activation : Nat := 2
def BootKind.config : Nat := 3
def BootKind.slagMap : Nat := 4
def BootKind.stepDone : Nat := 5

/-- An entry of the boot log, measured for KIND 1 to 4; its time is a free value. -/
def Dev.bootEntry (d : Dev) (kind step result : Nat) (digest : List Byte) : Dev :=
  let (k, d) := d.draw
  let e : BootEntry := { kind := kind, step := step, result := result, ms := Config.freeValue k % 2 ^ 32, digest := digest }
  { d with boot := { d.boot with
    log := d.boot.log ++ [e]
    measure := if kind = BootKind.stepDone then d.boot.measure else sha384 (d.boot.measure ++ digest) } }

/-- A step done. -/
def Dev.stepDone (d : Dev) (step : Nat) : Dev :=
  Dev.bootEntry { d with hearth := { d.hearth with bootStep := step + 1 } } BootKind.stepDone step 0 (zeros 48)

/-- The bytes of an entry. -/
def BootEntry.bytes (e : BootEntry) : List Byte :=
  leBytes 1 e.kind ++ leBytes 1 e.step ++ leBytes 2 e.result ++ leBytes 4 e.ms ++ zeros 8 ++ padTo e.digest 48

/-! ### FW_STAGE (R682) -/

/-- FW_STAGE (R682). -/
def cmdFwStage : Cmd :=
  { opcode := 0x0904
    admin := true
    ticketed := true
    check := fun d x =>
      { lenOk := x.r.len == 8
        sgl := true
        own := needs (!d.operationBusy 0x0904 0) Status.operationBusy }
    run := fun d _ _ =>
      let target := 1 - d.boot.slot
      { dev := { d with boot := { d.boot with activation := d.boot.activation.filter (fun a => a.1 != target) } } } }

/-- FW_STAGE (R682). -/
def execFwStage (w : Window) (r : Request) (s : State) : Out := s.onDoorbell cmdFwStage w r

/-- An image written to slot `target` and read back: the status, and the device. What a slot holds whose read-back fails is a free value. -/
def Dev.stageImage (d : Dev) (target : Nat) (b : List Byte) (readBackOk : Bool) : Status × Dev :=
  let st := d.imageStatus b
  if st ≠ Status.success then (st, d)
  else if readBackOk then
    let d := d.norProgram (slotBase target) slotSize b
    (Status.success, { d with boot := { d.boot with staged := some (target, imageVersion b, imageSvn b) } })
  else
    let (k, d) := d.draw
    let d := d.norProgram (slotBase target) slotSize (padTo (Config.freeBytes k) b.length)
    (Status.fwWriteFailed, { d with boot := { d.boot with staged := none } })

/-- FW_STAGE of a ticket completes. -/
def Dev.fwStageDone (d : Dev) (w n : Nat) (readBackOk : Bool) : Dev :=
  match d.ticketOf w n 0x0904 with
  | none => d
  | some t =>
    let (st, d) := d.stageImage (1 - d.boot.slot) (padTo t.data (leAt t.req 0 8)) readBackOk
    d.completeTicket w n st 0

/-- FW_STAGE_DONE (R682). -/
def execFwStageDone (w : Window) (ticket : Nat) (readBackOk : Bool) (s : State) : Out := s.onRunning (fun d => d.fwStageDone w.num ticket readBackOk)

/-! ### FW_ACTIVATE (R683) -/

/-- FW_ACTIVATE (R683). -/
def cmdFwActivate : Cmd :=
  { opcode := 0x0905
    admin := true
    check := fun d x =>
      { lenOk := x.r.len == 8
        rsvOk := decide (x.get 0 1 < 2) && x.rsv 1 7
        own := firstFail [needs (!d.operationBusy 0x0904 0) Status.fwBusy, needs d.boot.staged.isSome Status.fwNotStaged] }
    run := fun d x _ =>
      match d.boot.staged with
      | none => { dev := d }
      | some (slot, version, _) =>
        { dev := { d with boot := { d.boot with activation := some (slot, x.get 0 1 == 1) } }
          payload := leBytes 1 slot ++ zeros 3 ++ leBytes 4 version } }

/-- FW_ACTIVATE (R683). -/
def execFwActivate (w : Window) (r : Request) (s : State) : Out := s.onDoorbell cmdFwActivate w r

/-- The activation accepted is written to the NOR. -/
def Dev.recordWritten (d : Dev) : Dev :=
  match d.boot.activation with
  | none => d
  | some (slot, commit) => Dev.writeRecord { d with boot := { d.boot with activation := none } } slot commit

/-- ACTIVATION_RECORD_WRITTEN (R683). -/
def execActivationRecordWritten (s : State) : Out := s.onRunning Dev.recordWritten

end Sys2Proof.Machine
end

