-- ==== Sys2Proof/Machine/Nvme.lean ====
section
/-!
DEFINITION. Machine/Nvme.lean: PF0's admin commands: queues, Identify, log pages, features, asynchronous events, self-tests, the start of a
sanitize, resets and autonomous power transitions (R639, R640, R642, R643, R649 to R656, R674). Layouts of the NVM command set that the spec takes
from NVMe 2.0 are PRESUMED.
-/
namespace Sys2Proof.Machine

/-! ### Queues (R639) -/

/-- QID and QSIZE of a queue command: the identifier and the number of entries. -/
def queueId (c : NvmeRequest) : Nat := c.cdw10 % 65536
def queueSize (c : NvmeRequest) : Nat := c.cdw10 / 65536 % 65536 + 1

/-- What refuses a queue id or size: 1 to 64 pairs, each of up to 4,096 entries. -/
def Dev.queueRefusal (d : Dev) (c : NvmeRequest) (used : Bool) : Option NvmeStatus :=
  if queueId c = 0 || d.nvme.numQueues < queueId c || used then some .queueId
  else if queueSize c < 2 || 4096 < queueSize c then some .queueSize
  else none

/-- Create I/O Completion Queue, on one of 65 vectors. -/
def Dev.createCq (d : Dev) (c : NvmeRequest) : Dev :=
  match d.queueRefusal c (AMap.has d.nvme.cqs (queueId c)) with
  | some s => d.nvmeReply c s
  | none =>
    if 65 ≤ c.cdw11 / 65536 % 65536 then d.nvmeReply c .interruptVector
    else Dev.nvmeReply { d with nvme := { d.nvme with cqs := AMap.set d.nvme.cqs (queueId c) (queueSize c) } } c .ok

/-- Create I/O Completion Queue (R639). -/
def execNvmeCreateIoCq (c : NvmeRequest) (s : State) : Out := s.onDev (fun d => d.onNvme c false (fun d => d.createCq c))

/-- Create I/O Submission Queue, on a completion queue that exists. -/
def Dev.createSq (d : Dev) (c : NvmeRequest) : Dev :=
  let cq := c.cdw11 / 65536 % 65536
  if !AMap.has d.nvme.cqs cq then d.nvmeReply c .cqInvalid
  else match d.queueRefusal c (AMap.has d.nvme.sqs (queueId c)) with
    | some s => d.nvmeReply c s
    | none => Dev.nvmeReply { d with nvme := { d.nvme with sqs := AMap.set d.nvme.sqs (queueId c) { size := queueSize c, cq := cq } } } c .ok

/-- Create I/O Submission Queue (R639). -/
def execNvmeCreateIoSq (c : NvmeRequest) (s : State) : Out := s.onDev (fun d => d.onNvme c false (fun d => d.createSq c))

/-- Delete I/O Submission Queue: its commands end first. -/
def Dev.deleteSq (d : Dev) (c : NvmeRequest) : Dev :=
  let q := c.cdw10 % 65536
  if !AMap.has d.nvme.sqs q then d.nvmeReply c .queueId
  else
    let d := d.abortCmds (fun x => x.sq == q) .abortedSqDeletion
    Dev.nvmeReply { d with nvme := { d.nvme with sqs := AMap.del d.nvme.sqs q } } c .ok

/-- Delete I/O Submission Queue (R639). -/
def execNvmeDeleteIoSq (c : NvmeRequest) (s : State) : Out := s.onDev (fun d => d.onNvme c false (fun d => d.deleteSq c))

/-- Delete I/O Completion Queue: no submission queue may use it. -/
def Dev.deleteCq (d : Dev) (c : NvmeRequest) : Dev :=
  let q := c.cdw10 % 65536
  if !AMap.has d.nvme.cqs q then d.nvmeReply c .queueId
  else if d.nvme.sqs.any (fun p => p.2.cq == q) then d.nvmeReply c .queueDeletion
  else Dev.nvmeReply { d with nvme := { d.nvme with cqs := AMap.del d.nvme.cqs q } } c .ok

/-- Delete I/O Completion Queue (R639). -/
def execNvmeDeleteIoCq (c : NvmeRequest) (s : State) : Out := s.onDev (fun d => d.onNvme c false (fun d => d.deleteCq c))

/-! ### Identify (R639, R644, R649) -/

/-- A block of bytes, zeros but for the fields given: offset, width and value. -/
def fieldBlock (n : Nat) (fs : List (Nat × Nat × Nat)) : List Byte := fs.foldl (fun b f => overlay b f.1 (leBytes f.2.1 f.2.2)) (zeros n)

/-- Table 19-3: MP, ENLAT, EXLAT and NOPS of PS0 to PS4. -/
def powerDescriptors : List (Nat × Nat × Nat × Nat) := [(65535, 0, 0, 0), (65535, 2, 2, 0), (65535, 20, 20, 0), (30000, 2000, 2000, 0), (4500, 25000, 25000, 1)]

/-- The Identify Controller data structure (Tables 19-1 and 19-3), with what NVMe 2.0 requires of every controller: VER, CNTRLTYPE, OAES and OACS for
the events and commands of Table 19-2, SQES and CQES. -/
def identifyController : List Byte :=
  let psd := (List.range 5).flatMap (fun k => match powerDescriptors[k]? with
    | none => []
    | some (mp, en, ex, nops) => [(2048 + 32 * k, 2, mp), (2051 + 32 * k, 1, 2 * nops), (2052 + 32 * k, 4, en), (2056 + 32 * k, 4, ex)])
  fieldBlock 4096 ([(77, 1, 9), (80, 4, 0x00020000), (92, 4, 0x100), (111, 1, 1), (256, 2, 0x10), (260, 1, 0x03), (263, 1, 4), (265, 1, 1), (316, 2, 45),
    (328, 4, 3), (512, 1, 0x66), (513, 1, 0x44), (516, 4, 65534), (520, 2, 0x0C), (525, 1, 0)] ++ psd)

/-- The Identify Namespace data structure (R643, R644); zeros for a namespace that is not attached. -/
def Dev.identifyNamespace (d : Dev) (n : Nat) : List Byte :=
  if d.nsActive n then fieldBlock 4096 [(0, 8, d.nsSize n), (8, 8, d.nsSize n), (16, 8, d.nsUsed n), (130, 1, 12)] else zeros 4096

/-- The namespaces attached above `n`, in ascending order. -/
def Dev.activeAbove (d : Dev) (n : Nat) : List Nat := (1 :: sortByKey id (d.nvme.attached.map (fun k => k + 2))).filter (fun k => decide (n < k))

/-- The data that Identify returns, none for a CNS that the spec does not list; a namespace's UUID is a free value. -/
def Dev.identifyData (d : Dev) (c : NvmeRequest) : Option (List Byte) :=
  match c.cdw10 % 256 with
  | 0 => some (d.identifyNamespace c.nsid)
  | 1 => some identifyController
  | 2 => some (padTo (((d.activeAbove c.nsid).take 1024).flatMap (leBytes 4)) 4096)
  | 3 => some (padTo ([3, 16, 0, 0] ++ padTo (Config.nsUuid c.nsid) 16 ++ [4, 1, 0, 0, 0]) 4096)
  | _ => none

/-- IDENTIFY (R639, R640). -/
def Dev.identify (d : Dev) (c : NvmeRequest) : Dev :=
  let bad := (c.cdw10 % 256 == 0 && (c.nsid == 0 || decide (65534 < c.nsid))) || (c.cdw10 % 256 == 3 && !d.nsActive c.nsid)
  if bad then d.nvmeReply c .invalidNamespace
  else match d.identifyData c with
    | none => d.nvmeReply c .invalidField
    | some b => (d.emit (.nvmeData 0 c.cid b)).nvmeReply c .ok

/-- Identify (R639). -/
def execIdentify (c : NvmeRequest) (s : State) : Out := s.onDev (fun d => d.onNvme c false (fun d => d.identify c))

/-! ### Log pages (R640, R655) -/

/-- The Error Information log: its one entry is the last error. -/
def Dev.errorLog (d : Dev) : List Byte :=
  match d.nvme.lastError with
  | none => zeros 64
  | some (sq, cid, st) => fieldBlock 64 [(0, 8, d.nvme.errorCount), (8, 2, sq), (10, 2, cid), (12, 2, 2 * st), (14, 2, 0xFFFF)]

/-- The SMART / Health log: temperature, bytes moved, media errors and error entries; what the spec does not measure is a free value. -/
def Dev.smartLog (d : Dev) : List Byte :=
  let t := (d.bellows.temps.foldl max 0).toNat
  let units := fun id => leBytes 16 (ceilDiv (d.counter id 0) 512000)
  let b := overlay (padTo (Config.freeBytes d.draws) 512) 1 (leBytes 2 (t / 1000 + 273))
  let b := overlay (overlay b 32 (units Counter.nvmeReadBytes)) 48 (units Counter.nvmeWriteBytes)
  overlay (overlay b 160 (leBytes 16 (d.counter Counter.pageUnreadable 0))) 176 (leBytes 16 d.nvme.errorCount)

/-- The Firmware Slot log: slot 1 is the active one. -/
def firmwareLog : List Byte := fieldBlock 512 [(0, 1, 1)]

/-- A Device Self-test result: result and code, segment, failing die and the namespace field (R653, R655); its hours are a free value. -/
def SelfTestLog.bytes (x : SelfTestLog) : List Byte :=
  let b := fieldBlock 28 [(0, 1, x.result + 16 * x.code), (1, 1, x.segment)]
  match x.die with
  | none => b
  | some n => overlay (overlay (overlay b 2 [1]) 12 (leBytes 4 0xFFFFFFFF)) 26 (leBytes 2 n)

/-- The Device Self-test log: what runs, a completion percentage that is a free value, and the last 20 results. -/
def Dev.selfTestLog (d : Dev) : List Byte :=
  let now := match d.nvme.test with
    | none => [byteOf 0, byteOf 0]
    | some t => [byteOf t.code, byteOf (Config.freeValue d.draws % 101)]
  let none_ := fieldBlock 28 [(0, 1, 0xF)]
  padTo (now ++ zeros 2 ++ (d.nvme.tests.take 20).flatMap SelfTestLog.bytes ++ (List.replicate (20 - d.nvme.tests.length) none_).flatten) 564

/-- The log page of an identifier of Table 19-2. -/
def Dev.logPage (d : Dev) (lid : Nat) : Option (List Byte) :=
  match lid with
  | 1 => some d.errorLog
  | 2 => some d.smartLog
  | 3 => some firmwareLog
  | 6 => some d.selfTestLog
  | _ => none

/-- GET_LOG_PAGE (R640): NUMD dwords from byte LPO. -/
def Dev.getLogPage (d : Dev) (c : NvmeRequest) : Dev :=
  match d.logPage (c.cdw10 % 256) with
  | none => d.nvmeReply c .logPage
  | some b =>
    let n := 4 * (c.cdw10 / 65536 % 65536 + 65536 * (c.cdw11 % 65536) + 1)
    let o := c.cdw12 + 2 ^ 32 * c.cdw13
    if b.length < o then d.nvmeReply c .invalidField
    else (d.draw.2.emit (.nvmeData 0 c.cid (bytesAt b o (min n (b.length - o))))).nvmeReply c .ok

/-- Get Log Page (R640). -/
def execGetLogPage (c : NvmeRequest) (s : State) : Out := s.onDev (fun d => d.onNvme c false (fun d => d.getLogPage c))

/-! ### Abort, invalid opcodes and asynchronous events (R640) -/

/-- Whether a command has been sent to the Face: a Write, or a Read whose work item has been admitted. -/
def Dev.cmdSent (d : Dev) (x : NvmeCmd) : Bool :=
  x.kind == 1 || d.tick.items.any (fun i => i.job == .storage x.id && !i.waiting)

/-- ABORT: a command not yet sent to the Face ends; result bit 0 is 1 when none was. -/
def Dev.abort (d : Dev) (c : NvmeRequest) : Dev :=
  match d.nvme.cmds.find? (fun x => x.sq == c.cdw10 % 65536 && x.cid == c.cdw10 / 65536 % 65536) with
  | none => d.nvmeDone 0 c.cid .ok 1
  | some x => if d.cmdSent x then d.nvmeDone 0 c.cid .ok 1 else (d.abortCmd x .abortRequested).nvmeDone 0 c.cid .ok 0

/-- Abort (R640). -/
def execAbort (c : NvmeRequest) (s : State) : Out := s.onDev (fun d => d.onNvme c false (fun d => d.abort c))

/-- An opcode that Table 19-2 does not list (R640). -/
def execNvmeInvalidOpcode (c : NvmeRequest) (s : State) : Out :=
  s.onDev (fun d => d.onNvme c (c.sq != 0) (fun d => d.nvmeReply c .invalidOpcode))

/-- ASYNCHRONOUS_EVENT_REQUEST: it completes with the oldest event that waits, or waits for one; one may wait, since AERL reads 0 (R639). -/
def Dev.eventRequest (d : Dev) (c : NvmeRequest) : Dev :=
  match d.nvme.events with
  | (kind, info, page) :: rest =>
    Dev.nvmeDone { d with nvme := { d.nvme with events := rest } } 0 c.cid .ok (kind + 256 * info + 65536 * page)
  | [] => if d.nvme.aers.isEmpty then { d with nvme := { d.nvme with aers := [c.cid] } } else d.nvmeReply c .aerLimit

/-- Asynchronous Event Request (R640). -/
def execAsynchronousEventRequest (c : NvmeRequest) (s : State) : Out := s.onDev (fun d => d.onNvme c false (fun d => d.eventRequest c))

/-! ### Features (R640, R650, R651) -/

/-- ITPS and ITPT of an entry of the transition table. -/
def apstTarget (e : Nat) : Nat := bitField e 3 5
def apstTime (e : Nat) : Nat := bitField e 8 24

/-- SET_FEATURES (R640, R650, R651). -/
def Dev.setFeatures (d : Dev) (c : NvmeRequest) : Dev :=
  if bitOf c.cdw10 31 then d.nvmeReply c .notSaveable
  else match c.cdw10 % 256 with
    | 0x02 =>
      if 4 < c.cdw11 % 32 then d.nvmeReply c .invalidField
      else
        let p := PowerState.ofCode (c.cdw11 % 32)
        let d := (d.setRequests d.bellows.adminReq p).settlePower
        Dev.nvmeReply { d with bellows := { d.bellows with storageSet := p } } c .ok
    | 0x07 =>
      let sq := c.cdw11 % 65536
      let cq := c.cdw11 / 65536 % 65536
      if sq = 65535 || cq = 65535 then d.nvmeReply c .invalidField
      else if !d.nvme.sqs.isEmpty || !d.nvme.cqs.isEmpty then d.nvmeReply c .sequenceError
      else
        let n := min 64 (min sq cq + 1)
        Dev.nvmeDone { d with nvme := { d.nvme with numQueues := n } } 0 c.cid .ok ((n - 1) * 65537)
    | 0x0B => Dev.nvmeReply { d with nvme := { d.nvme with aec := c.cdw11 % 2 ^ 32 } } c .ok
    | 0x0C =>
      let l := (List.range 32).map (fun k => leAt c.data (8 * k) 8)
      if l.any (fun e => apstTime e != 0 && decide (4 < apstTarget e)) then d.nvmeReply c .invalidField
      else Dev.nvmeReply { d with nvme := { d.nvme with apste := bitOf c.cdw11 0, apst := l } } c .ok
    | _ => d.nvmeReply c .invalidField

/-- Set Features (R650, R651). -/
def execSetFeatures (c : NvmeRequest) (s : State) : Out := s.onDev (fun d => d.onNvme c false (fun d => d.setFeatures c))

/-- GET_FEATURES: current, default and saved values, and capabilities: every feature can be changed (R640, R650). -/
def Dev.getFeatures (d : Dev) (c : NvmeRequest) : Dev :=
  let sel := bitField c.cdw10 8 3
  let cur := sel == 0
  let reply := fun (d : Dev) (v dflt : Nat) => d.nvmeDone 0 c.cid .ok (if sel = 3 then 4 else if cur then v else dflt)
  match c.cdw10 % 256 with
  | 0x02 => reply d d.bellows.storageReq.code 0
  | 0x07 => reply d ((d.nvme.numQueues - 1) * 65537) (63 * 65537)
  | 0x0B => reply d d.nvme.aec 0
  | 0x0C =>
    let l := if cur then d.nvme.apst else List.replicate 32 0
    let d := if sel = 3 then d else d.emit (.nvmeData 0 c.cid (l.flatMap (leBytes 8)))
    reply d (bitNat d.nvme.apste) 0
  | _ => d.nvmeReply c .invalidField

/-- Get Features (R650). -/
def execGetFeatures (c : NvmeRequest) (s : State) : Out := s.onDev (fun d => d.onNvme c false (fun d => d.getFeatures c))

/-- Whether PF0 is idle (R651). -/
def Dev.nvmeIdle (d : Dev) : Bool := d.nvme.cmds.isEmpty && d.nvme.test.isNone

/-- APST_TRANSITION: PF0 has been idle for the ITPT of the entry of the storage request (R651). -/
def Dev.apstTransition (d : Dev) : Dev :=
  let e := d.nvme.apst.getD d.bellows.storageReq.code 0
  if !d.nvmeReady || !d.nvme.apste || !d.nvmeIdle || apstTime e = 0 then d
  else ((d.setRequests d.bellows.adminReq (PowerState.ofCode (apstTarget e))).settlePower).count Counter.apstTransition 0 1

/-- APST_TRANSITION (R651). -/
def execApstTransition (s : State) : Out := s.onRunning Dev.apstTransition

/-! ### Self-tests (R652 to R655) -/

/-- A self-test ends with a result of Table 19-6: its log entry, SELFTEST_DONE, and the event of Table 19-2, whose code is a free value. -/
def Dev.endSelfTest (d : Dev) (result segment : Nat) (die : Option Nat) : Dev :=
  match d.nvme.test with
  | none => d
  | some t =>
    let x : SelfTestLog := { code := t.code, result := result, segment := segment, die := die }
    let d : Dev := { d with nvme := { d.nvme with test := none, tests := (x :: d.nvme.tests).take 20 } }
    let d := d.event adminWin EventCode.selftestDone 0 [(20, 1, t.code), (21, 1, result), (22, 1, segment)]
    let (k, d) := d.draw
    d.nvmeEvent (Config.freeValue k % 8) (Config.freeValue k / 8 % 256) 6

/-- DEVICE_SELF_TEST (R652). -/
def Dev.deviceSelfTest (d : Dev) (c : NvmeRequest) : Dev :=
  let code := c.cdw10 % 16
  if code = 0xF then (d.endSelfTest 1 0 none).nvmeReply c .ok
  else if code ≠ 1 && code ≠ 2 then d.nvmeReply c .invalidField
  else if d.nvme.test.isSome then d.nvmeReply c .testRuns
  else Dev.nvmeReply { d with nvme := { d.nvme with test := some { code := code, segment := 1, suspended := false } } } c .ok

/-- Device Self-test (R652). -/
def execDeviceSelfTest (c : NvmeRequest) (s : State) : Out := s.onDev (fun d => d.onNvme c false (fun d => d.deviceSelfTest c))

/-- Whether a segment belongs to a test (Table 19-5). -/
def testHas (code segment : Nat) : Bool := decide (1 ≤ segment) && decide (segment ≤ if code = 1 then 5 else 7)

/-- SELFTEST_DONE: the test that runs has passed every segment (segment 0), or fails in one of its segments (R652 to R655). -/
def Dev.selfTestDone (d : Dev) (segment : Nat) (die : Option Nat) : Dev :=
  match d.nvme.test with
  | none => d
  | some t =>
    if t.suspended then d
    else if segment = 0 then d.endSelfTest 0 0 none
    else if testHas t.code segment then d.endSelfTest 7 segment die
    else d

/-- SELFTEST_DONE (R655). -/
def execSelftestDone (segment : Nat) (die : Option Nat) (s : State) : Out := s.onRunning (fun d => d.selfTestDone segment die)

/-! ### Sanitize (R656) -/

/-- A sanitize starts: its flag is set, and every key is destroyed (steps 1 and 2 of R656). -/
def Dev.startSanitize (d : Dev) (blocks : Bool) : Dev :=
  { d with
    nvme := { d.nvme with sanitize := some blocks }
    face := { d.face with
      scratchKeyMode := 0, scratchKey := []
      datasets := AMap.mapKV (fun _ (t : Dataset) => { t with keyMode := 0, key := [] }) d.face.datasets } }

/-- NVME_SANITIZE: Block Erase and Crypto Erase; Exit Failure Mode finds no failure (R639, R656). -/
def Dev.nvmeSanitize (d : Dev) (c : NvmeRequest) : Dev :=
  if d.nvme.sanitize.isSome then d.nvmeReply c .sanitizing
  else match c.cdw10 % 8 with
    | 1 => d.nvmeReply c .ok
    | 2 => (d.startSanitize true).nvmeReply c .ok
    | 4 => (d.startSanitize false).nvmeReply c .ok
    | _ => d.nvmeReply c .invalidField

/-- Sanitize (R656). -/
def execNvmeSanitize (c : NvmeRequest) (s : State) : Out := s.onDev (fun d => d.onNvme c false (fun d => d.nvmeSanitize c))

/-! ### CC.EN and the resets of PF0 (R642, R674) -/

/-- CC_EN_SET (R674). -/
def execCcEnSet (s : State) : Out := s.onRunning (fun d => { d with nvme := { d.nvme with ccEn := true } })

/-- PF0 reset: its commands and requests end, a self-test is aborted, its queues are gone and the storage request is Blaze; a sanitize goes on (R642). -/
def Dev.pf0Reset (d : Dev) : Dev :=
  let d := d.abortCmds (fun _ => true) .abortedSqDeletion
  let d := d.nvme.aers.foldl (fun d cid => d.nvmeDone 0 cid .abortedSqDeletion 0) d
  let d := d.endSelfTest 2 0 none
  let d := (d.setRequests d.bellows.adminReq .blaze).settlePower
  { d with
    nvme := { Nvme.init with tests := d.nvme.tests, attached := d.nvme.attached, errorCount := d.nvme.errorCount, lastError := d.nvme.lastError, sanitize := d.nvme.sanitize }
    bellows := { d.bellows with storageSet := .blaze } }

/-- PF0_RESET (R642). -/
def execPf0Reset (s : State) : Out := s.onRunning Dev.pf0Reset

end Sys2Proof.Machine
end

