-- ==== Sys2Proof/Machine/Bringup.lean ====
section
/-!
DEFINITION. Machine/Bringup.lean: resets, bring-up, the hold-up flush, rail faults and the end of a sanitize (R251 to R253, R656, R657, R669 to R693,
R709 to R712). A row that resets the device runs its bring-up to the end.
-/
namespace Sys2Proof.Machine

/-! ### What a reset ends (R84, R99, R116, R191, R537, R606, R617, R642, R668) -/

/-- Writes that are under way as a reset comes: open extents close, buffered appends are whole, and what never found room is gone. -/
def Dev.endWrites (d : Dev) : Dev :=
  let d := d.nvme.cmds.reverse.foldl (fun d c => if c.kind = 1 then d.unwrite c else d) d
  let d := (d.face.datasets.map Prod.fst).foldl Dev.closeOpenExtent d
  let d := d.face.extents.foldl (fun d p =>
    if p.2.state ≠ .filling then d
    else if p.2.buffered || p.2.programmed then
      ((d.makeDurable p.1).finishExtent p.1).modExtentQuiet p.1 (fun y => { y with append := none })
    else d.mediaWriteFailed p.1 { p.2 with append := none }) d
  { d with face := { d.face with datasets := AMap.mapKV (fun _ (t : Dataset) => { t with sealing := none }) d.face.datasets } }

/-- Steps 4 and 5 of Table 06-11, and the flush record: every dirty chunk and granule has a flushed copy, and the journal tail is in flash. -/
def Dev.flushBuffer (d : Dev) (warm : Bool) : Dev :=
  let d := d.flushJournal
  let extents : AMap Extent := AMap.mapKV (fun _ (x : Extent) => { x with flushed := x.buffered }) d.face.extents
  let granules : AMap Granule := AMap.mapKV (fun _ (x : Granule) => { x with flushed := x.buffered }) d.face.granules
  { d with face := { d.face with flushRecord := some warm, extents := extents, granules := granules } }

/-- The retention records written (R672). -/
def Dev.writeRetention (d : Dev) : Dev :=
  { d with boot := { d.boot with retention := { valid := true, imageDigest := d.boot.imageDigest, slot := d.boot.slot, mapsSeq := d.face.flashedSeq } } }

/-- A replay log over a reset: what records, runs or is exported stops (R581). -/
def Log.cut (x : Log) : Log :=
  { x with
    ctx := { x.ctx with held := [] }
    recording := false
    armed := false
    run := none
    export_ := none
    delete := none
    stopAsked := false }

/-- PF0 after a reset of the device: a self-test that runs has its log entry, and a sanitize goes on (R642, R655, R657). -/
def Nvme.afterReset (x : Nvme) : Nvme :=
  let aborted := x.test.toList.map (fun t => ({ code := t.code, result := 2, segment := 0, die := none } : SelfTestLog))
  { Nvme.init with tests := (aborted ++ x.tests).take 20, errorCount := x.errorCount, lastError := x.lastError, sanitize := x.sanitize }

/-- What a reset of either kind leaves: flash, NOR, fuses, the always-on well and the self-test log. -/
def Dev.afterReset (d : Dev) : Dev :=
  let logs : AMap Log := AMap.mapKV (fun _ x => Log.cut x) d.group.logs
  { Dev.init with
    hearth := { Hearth.init with log := d.hearth.log }
    group := { Group.init with logs := logs }
    face := { d.face with hedgesThisTick := 0, readsThisTick := 0, drawRates := [], flushing := false }
    bellows := { Bellows.init with quench := d.bellows.quench, bankMv := d.bellows.bankMv }
    nvme := d.nvme.afterReset
    side := { d.side with mctp := Side.init.mctp }
    boot := { d.boot with
      log := [], measure := zeros 48, staged := none, activation := none, held := 0, mismatch := 0, mapsOk := false, fallback := false
      failedStatus := 0, pins := { d.boot.pins with thermtripL := true } }
    draws := d.draws
    out := d.out }

/-- What a cold reset leaves (R84, R250, R605, R668, R672, R702). -/
def Dev.afterCold (d : Dev) : Dev :=
  let a := d.afterReset
  { a with
    face := { a.face with dirtyPermit := 268435456 }
    side := { a.side with jtag := { a.side.jtag with extest := false } }
    boot := { a.boot with reached := false, retention := { a.boot.retention with valid := false } } }

/-- A unit's record over a warm reset: a quarantine, a fence or an absence stands; gating, demotion and history do not (R72). -/
def UnitRec.kept (x : UnitRec) : UnitRec :=
  { UnitRec.init with service := if x.service = .demoted then .inService else x.service }

/-- What a warm reset leaves (R72, R84, R221, R250, R605, R677). -/
def Dev.afterWarm (d : Dev) : Dev :=
  let a := d.afterReset
  let recs : AMap UnitRec := AMap.mapKV (fun _ x => UnitRec.kept x) d.units.recs
  let blocks : AMap BlockRec := AMap.mapKV (fun _ (x : BlockRec) => { x with lastQuar := none, drooped := false }) d.units.blocks
  let regions : AMap RegionRec := AMap.mapKV (fun _ (x : RegionRec) =>
    { RegionRec.init with fenced := x.fenced, hbmLost := x.hbmLost, fenceOrder := x.fenceOrder }) d.units.regions
  let dies : AMap Die := AMap.mapKV (fun _ (x : Die) => if x.state = .demoted then { x with state := .inService } else x) d.face.dies
  { a with
    hearth := { a.hearth with counters := d.hearth.counters, cores := d.hearth.cores }
    units := { d.units with recs := recs, blocks := blocks, regions := regions, bankPtr := [], xbarPtr := [] }
    tick := { a.tick with clockNs := d.tick.clockNs }
    face := { a.face with dies := dies }
    bellows := { a.bellows with
      rails := d.bellows.rails.map (fun r => { Rail.init with gain := r.gain }), cap := d.bellows.cap, vFull := d.bellows.vFull, euTest := d.bellows.euTest,
      euReported := d.bellows.euReported, testEnd := d.bellows.testEnd }
    boot := { a.boot with channelsTrained := d.boot.channelsTrained } }

/-! ### Steps 1 to 4 (R673, R677 to R681, R684 to R686) -/

/-- The device in RECOVERY: only the recovery port serves commands (R680). -/
def Dev.toRecovery (d : Dev) : Dev := { d with hearth := { d.hearth with state := .recovery } }

/-- The image of slot `s` checked and measured (R679, R681). -/
def Dev.trySlot (d : Dev) (s : Nat) : Status × Dev :=
  let b := d.slotImage s
  let st := d.imageStatus b
  let g := sha384 b
  let d := d.bootEntry BootKind.firmware 2 st g
  if st = Status.success then
    (st, { d with
      hearth := { d.hearth with fwVersion := imageVersion b }
      boot := { d.boot with slot := s, imageDigest := g } })
  else (st, d)

/-- Step 2: the slot that the record names, then the other (R680): whether one booted. -/
def Dev.bootSlot (d : Dev) : Bool × Dev :=
  let s := d.recordSlot
  let (a, d) := d.trySlot s
  if a = Status.success then (true, d)
  else
    let (b, d) := d.trySlot (1 - s)
    (decide (b = Status.success), { d with boot := { d.boot with fallback := decide (b = Status.success), failedStatus := a } })

/-- Step 2 of a warm bring-up: the image kept in the hub reserve boots unless the record names another slot; it is the one that booted before, whose
signature verifies (Table 20-3). -/
def Dev.bootKept (d : Dev) : Bool × Dev :=
  if d.recordSlot = d.boot.retention.slot then
    let b := d.slotImage d.boot.retention.slot
    let d := d.bootEntry BootKind.firmware 2 Status.success d.boot.retention.imageDigest
    (true, { d with
      hearth := { d.hearth with fwVersion := imageVersion b }
      boot := { d.boot with slot := d.boot.retention.slot, imageDigest := d.boot.retention.imageDigest } })
  else d.bootSlot

/-- A record of chip scope applied at step 3 (R179, R616). -/
def Dev.applyChipRecord (d : Dev) (r : CfgRecord) : Dev :=
  match paramDef r.id with
  | none => d
  | some p =>
    let v := d.clampedParam p 0 r.value
    if !r.usable || p.scope != .chip || p.takes == .reset then d
    else if p.id = ParamId.tickPeriodUs then { d with tick := { d.tick with periodUs := v } }
    else if p.id = ParamId.periodAtTick then { d with hearth := { d.hearth with periodAt := some v } }
    else if p.id = ParamId.powerCapW then
      let f := d.pFloor
      (if v < f then d.chipTrouble ChipBit.capAtFloor else d).putParam p.id 0 (max v f)
    else d.putParam p.id 0 v

/-- The size in MiB that a reset asks for pool `k`: pending, recorded or default (R114). -/
def Dev.poolAsked (d : Dev) (recs : List CfgRecord) (k : Nat) : Nat :=
  match paramDef (ParamId.tongsPool4k + k) with
  | none => 0
  | some p => match d.boot.pendPools.getD k none with
    | some v => v
    | none => match recs.reverse.find? (fun r => r.id == p.id && r.usable) with
      | some r => d.clampedParam p 0 r.value
      | none => d.paramDefault p

/-- The pool sizes from a reset on: those asked for, reduced in proportion when they sum to more than half the pooled area (R114). -/
def Dev.poolSizes (d : Dev) (recs : List CfgRecord) : List Nat :=
  let l := (List.range 4).map (d.poolAsked recs)
  if d.pooledMib / 2 < sumNat l then
    (List.range 4).map (fun k => match paramDef (ParamId.tongsPool4k + k) with
      | none => 0
      | some p => max p.lo (roundDown (l.getD k 0 * (d.pooledMib / 2) / sumNat l) p.step))
  else l

/-- Step 3: the configuration copy is chosen, and its records of chip scope are applied (R178, R179, R114). -/
def Dev.stepConfig (d : Dev) : Dev :=
  let use := d.chooseCfg
  let d := d.bootEntry BootKind.config 3 Status.success (match use with | some i => sha384 (d.cfgCopy i) | none => zeros 48)
  let recs := match use with | some i => cfgRecordsOf (d.cfgCopy i) | none => []
  let d : Dev := { d with hearth := { d.hearth with cfgInUse := use } }
  let d := if use.isNone then d.chipTrouble ChipBit.cfgDefaulted else d
  let d := recs.foldl Dev.applyChipRecord d
  let kept := recs.filter (fun r => r.usable && ((paramDef r.id).map (fun p => p.scope != .chip)).getD false)
  { d with
    hearth := { d.hearth with cfgRecords := kept }
    tongs := { d.tongs with poolMiB := d.poolSizes recs }
    boot := { d.boot with pendPools := [none, none, none, none] } }

/-- The code of a fused state (Table 20-6). -/
def FuseState.code : FuseState → Nat
  | .disabled => 0
  | .enabled => 1
  | .spare => 2
  | .never => 3

/-- Bits of a list of fields of `w` bits, from bit `lo` up. -/
def packBits (lo w : Nat) (l : List Nat) : Nat := (l.foldr (fun v x => v + 2 ^ w * x) 0) * 2 ^ lo

/-- A fuse block: its bits from 32 up, and the CHECK over them; the value of a CHECK that fails is free. -/
def sealFuses (n bits covered : Nat) (ok : Bool) (k : Nat) : List Byte :=
  leBytes 4 (if ok then crc32c ((leBytes n covered).drop 4) else Config.freeValue k) ++ (leBytes n bits).drop 4

/-- The fuse block of a region die (Table 20-6). -/
def DieFuses.bytes (f : DieFuses) (k : Nat) : List Byte :=
  let x := packBits 336 8 [f.hbmGib] + packBits 344 8 [f.lambda] + packBits 352 2 (f.blocks.map FuseState.code) +
    packBits 388 34 (f.cells.map (fun l => packBits 0 2 (l.map FuseState.code)))
  sealFuses 128 x x f.checkOk k

/-- The fuse block of the hub die (Table 20-7). -/
def Fuses.hubBytes (f : Fuses) (k : Nat) : List Byte :=
  let x := packBits 348 4 [f.variant] + packBits 352 4 [f.portEn] + packBits 356 64 [f.nandChEn] + packBits 420 8 [f.hubLambda] +
    packBits 428 8 [f.stepping] + packBits 504 384 (f.keyHash.map leNat)
  let y := x + packBits 436 4 [f.keyRevoke] + packBits 440 64 [2 ^ f.svnFloor - 1]
  sealFuses 256 y x f.checkOk k

/-- The fused slag map: the blocks of the region dies, then that of the hub die. -/
def Fuses.bytes (f : Fuses) (k : Nat) : List Byte := f.dies.flatMap (fun x => DieFuses.bytes x k) ++ f.hubBytes k

/-- Whether a region die is fused as its variant's row of Table 20-8a lays down. -/
def DieFuses.agrees (f : DieFuses) (v : Nat) : Bool :=
  let usable := (List.range f.blocks.length).filter (fun b => f.blocks[b]? == some .enabled || f.blocks[b]? == some .spare)
  f.checkOk && f.blocks.countP (· == .enabled) == variantB v && decide (f.blocks.countP (· == .spare) ≤ 2) && !f.blocks.contains .never &&
  f.hbmGib == variantHbm v / 8 && f.cells.all (fun l => !l.contains .never) &&
  usable.all (fun b => let l := f.cells.getD b []; l.countP (· == .enabled) == 16 && decide (l.countP (· == .spare) ≤ 1))

/-- Whether the slag map passes the checks of R686. -/
def Fuses.agrees (f : Fuses) : Bool :=
  f.checkOk && decide (1 ≤ f.variant) && decide (f.variant ≤ 3) && f.dies.length == 8 && f.dies.all (fun x => x.agrees f.variant) &&
  f.portEn == 2 ^ variantPorts f.variant - 1 && f.nandChEn == 2 ^ variantChannels f.variant - 1

/-- Step 4: the slag map read and checked (R686): whether it passes. -/
def Dev.stepSlagMap (d : Dev) : Bool × Dev :=
  let (k, d) := d.draw
  let ok := d.boot.fuses.agrees
  (ok, d.bootEntry BootKind.slagMap 4 (if ok then Status.success else Status.fwImageBad) (sha384 (d.boot.fuses.bytes k)))

/-! ### Mapping after BIST (R70, R71, R80, R687 to R689) -/

/-- Whether a physical block fails BIST; its Swage engine and its Screen unit are parts of it. -/
def physBad (bad : List PhysRef) (r pb : Nat) : Bool := bad.contains (.block r pb) || bad.contains (.swage r pb) || bad.contains (.screen r pb)

/-- The fused cells of a physical block that are in one state. -/
def Dev.physCells (d : Dev) (r pb : Nat) (s : FuseState) : List Nat := fusedAs ((d.dieFuses r).cells.getD pb []) s

/-- The assignment of the cells of a physical block: the logical cells that find no cell, and the spare in use with the logical cell it serves. -/
def Dev.assignCells (d : Dev) (bad : List PhysRef) (r pb : Nat) : List Nat × List (Nat × Nat) :=
  let cells := d.physCells r pb .enabled
  let fails := (List.range cells.length).filter (fun c => bad.contains (.cell r pb (cells.getD c 0)))
  match (d.physCells r pb .spare).find? (fun s => !bad.contains (.cell r pb s)), fails with
  | some s, c :: rest => (rest, [(s, c)])
  | _, l => (l, [])

/-- Whether a physical block passes BIST with at least 12 cells in service. -/
def Dev.physUsable (d : Dev) (bad : List PhysRef) (r pb : Nat) : Bool :=
  !physBad bad r pb && decide (12 ≤ 16 - (d.assignCells bad r pb).1.length)

/-- Physical block `pb` at logical index `b` of region `r`, with its own cells and lanes as BIST found them; `repl` when it replaces the block fused
there (R688, R71). -/
def Dev.mapBlock (d : Dev) (bad : List PhysRef) (r b pb : Nat) (repl : Bool) : Dev :=
  let g := r * d.B + b
  let (absent, spares) := d.assignCells bad r pb
  let d := (d.modUnit .block g (fun _ => UnitRec.init)).modBlock g (fun _ =>
    { BlockRec.init with cellSpares := spares, spareUsed := !spares.isEmpty, physOverride := if repl then some pb else none })
  let d := if spares.isEmpty then d else d.cellTrouble g CellBit.spareUsed
  let d := (List.range 16).foldl (fun d c =>
    if absent.contains c then (d.modUnit .cell (g * 16 + c) (fun _ => { UnitRec.init with service := .absent })).cellTrouble g c
    else if repl then d.modUnit .cell (g * 16 + c) (fun _ => UnitRec.init) else d) d
  let d := if repl then d.blockTrouble r BlockBit.spareUsed else d
  let d := (List.range 4).foldl (fun d l =>
    if bad.contains (.lane r pb l) then (d.modUnit .lane (g * 4 + l) (fun _ => { UnitRec.init with service := .quarantined })).blockTrouble r BlockBit.laneQuarantine
    else if repl then d.modUnit .lane (g * 4 + l) (fun _ => UnitRec.init) else d) d
  if (List.range 4).all (fun l => bad.contains (.lane r pb l)) then d.fenceBlock g else d

/-- Logical indices of region `r` assigned (R687, R688). -/
def Dev.mapRegion (d : Dev) (bad : List PhysRef) (r : Nat) : Dev :=
  let fused := fusedAs (d.dieFuses r).blocks .enabled
  let spares := (fusedAs (d.dieFuses r).blocks .spare).filter (fun pb => d.physUsable bad r pb)
  ((List.range d.B).foldl (fun (acc : List Nat × Dev) b =>
    let pb := fused.getD b 0
    if d.physUsable bad r pb then (acc.1, acc.2.mapBlock bad r b pb false)
    else match acc.1 with
      | s :: rest => (rest, acc.2.mapBlock bad r b s true)
      | [] => ([], ((acc.2.modUnit .block (r * d.B + b) (fun _ => { UnitRec.init with service := .absent })).blockTrouble r b).blockTrouble r BlockBit.noSpare))
    (spares, d)).2

/-- The units of region `r` outside its blocks after BIST: Wedge units, the Hammer, the ring and the directory; then a region with too few blocks is
fenced (R687, R78). -/
def Dev.mapRegionUnits (d : Dev) (bad : List PhysRef) (r : Nat) : Dev :=
  let d := (List.range 8).foldl (fun d u =>
    if bad.contains (.wedge r u) then (d.modUnit .wedge (r * 8 + u) (fun x => { x with service := .quarantined })).regionTrouble r RegionBit.wedgeFault else d) d
  let d := if bad.contains (.hammer r) then d.modUnit .hammer r (fun x => { x with service := .quarantined }) else d
  if bad.contains (.ring r) || bad.contains (.dir r) || d.regionThin r then d.fenceRegion r false else d

/-- Step 5: BIST and the assignment of logical indices (R687, R688). -/
def Dev.stepBist (d : Dev) (found : BringupFound) : Dev :=
  let bad := found.bad
  let d : Dev := { d with units := { d.units with recs := [], blocks := [], regions := [], bistBad := bad } }
  let d := (List.range 8).foldl (fun d r => d.mapRegion bad r) d
  let d := (List.range 8).foldl (fun d r => d.mapRegionUnits bad r) d
  let cores := Hearth.init.cores.filter (fun c => !bad.contains (.core c))
  let d : Dev := { d with hearth := { d.hearth with cores := cores } }
  let d := if cores.length < 8 then d.chipTrouble ChipBit.coreFault else d
  if cores.isEmpty then d.halt else d

/-- A fenced block that a spare takes at a warm reset (R689). -/
def Dev.takeSpareBlock (d : Dev) (r b : Nat) : Dev :=
  match (d.freeSpareBlocks r).find? (fun pb => d.physUsable d.units.bistBad r pb) with
  | none => d
  | some pb => (d.mapBlock d.units.bistBad r b pb true).modRegion r (fun x => { x with fenceOrder := x.fenceOrder.filter (fun y => y != b) })

/-- The trial that a warm reset gives a fenced region: its ring and directory run BIST (R80). -/
def Dev.tryRegion (d : Dev) (bad : List PhysRef) (r : Nat) : Dev :=
  if !(d.region r).fenced then d
  else
    let d := d.modRegion r (fun x => { x with fenced := false, hbmLost := false })
    if bad.contains (.ring r) || bad.contains (.dir r) || d.regionThin r then d.fenceRegion r false else d

/-- Step 4 of a warm bring-up, after the slag map: spare blocks mapped in the order of the fences, and the trial of fenced regions. -/
def Dev.stepRecords (d : Dev) (found : BringupFound) : Dev :=
  let d := (List.range 8).foldl (fun d r => (d.region r).fenceOrder.foldl (fun d b => d.takeSpareBlock r b) d) d
  (List.range 8).foldl (fun d r => d.tryRegion found.bad r) d

/-- Step 6: a stack that fails its training fences its region with HBM_LOST set; and the ports whose SerDes did not train (R673, R490). -/
def Dev.stepTrain (d : Dev) (found : BringupFound) : Dev :=
  let d := (List.range 8).foldl (fun d r => if found.bad.contains (.hbm r) then d.fenceRegion r true else d) d
  let ports := (List.range 4).map (fun p => ({ inService := !found.bad.contains (.port p), demoted := false } : Port))
  let d : Dev := { d with haul := { d.haul with ports := ports } }
  if (ports.take (variantPorts d.boot.fuses.variant)).any (fun p => !p.inService) then d.chipTrouble ChipBit.haulFault else d

/-! ### Step 7: the media (R210, R221, R253, R673 to R677) -/

/-- Whether channel `c` is enabled. -/
def Dev.channelOn (d : Dev) (c : Nat) : Bool := decide (c < 64) && bitOf d.boot.fuses.nandChEn c

/-- Whether the geometry found is one that the Face accepts (R210). -/
def geometryOk (f : BringupFound) : Bool :=
  decide (1280 ≤ f.ppb) && decide (f.ppb ≤ 4096) && decide (f.blocksPerPlane ≤ 8192) && (f.bits == 3 || f.bits == 4)

/-- The channels that train, and the dies on them that are accepted. -/
def Dev.trained (d : Dev) (f : BringupFound) : List Nat := (List.range 64).filter (fun c => d.channelOn c && !f.channels.contains c)
def Dev.accepted (d : Dev) (f : BringupFound) : List Nat :=
  if geometryOk f then (List.range 1024).filter (fun n => (d.trained f).contains (n / 16) && f.dies.contains n) else []

/-- The state of die `n` after the training of a cold bring-up: READ_ONLY is recorded in flash (R221). -/
def Dev.trainedDie (d : Dev) (ok : List Nat) (n : Nat) : DieState :=
  if !ok.contains n then .absent else if d.face.readOnlyFlash.contains n then .readOnly else .inService

/-- NAND training of a cold bring-up: the geometry, the dies, and the channels that fail, whose dies become FAILED (R210, R221). -/
def Dev.trainMedia (d : Dev) (f : BringupFound) : Dev :=
  let ok := d.accepted f
  let old := d.face.dies
  let dies : AMap Die := (List.range 1024).filterMap (fun n => match AMap.get? old n with
    | some x => some (n, { x with state := if f.channels.contains (n / 16) then x.state else d.trainedDie ok n })
    | none => if ok.contains n then some (n, { state := d.trainedDie ok n, blocks := [] }) else none)
  let face : Face := { d.face with dies := dies }
  let face : Face := if ok.isEmpty then face else { face with ppb := f.ppb, bits := f.bits, blocksPerPlane := f.blocksPerPlane }
  let d : Dev := { d with
    face := face
    boot := { d.boot with channelsTrained := (d.trained f).length, diesAccepted := ok.length } }
  ((List.range 64).filter (fun c => d.channelOn c && f.channels.contains c)).foldl Dev.channelFails d

/-- Channels whose training fails at a warm bring-up (Table 20-3, R221). -/
def Dev.retrainMedia (d : Dev) (f : BringupFound) : Dev :=
  let lost := (List.range 64).filter (fun c => d.channelOn c && f.channels.contains c)
  let d := lost.foldl Dev.channelFails d
  { d with boot := { d.boot with channelsTrained := (d.trained f).length } }

/-- The data of an extent that no flushed copy holds: the pages of its dirty chunks are unreadable, and the rest take their place (R253). -/
def Dev.loseUnflushed (d : Dev) (e : Nat) (x : Extent) : Dev :=
  if x.flushed || x.dirty = 0 || x.programmed || x.state = .discarded then d
  else
    let n := chunksOf x.length
    let pages := ((List.range n).filter (fun k => decide (n ≤ k + x.dirty))).flatMap (fun k =>
      ((List.range 4).map (fun j => 4 * k + j)).filter (fun p => decide (p < pagesOf x.length)))
    let d := pages.foldl (fun d k => d.pageUnreadable e k) d
    let d := (d.settleExtent e x x.nativeDest).getD d
    d.modExtentQuiet e (fun y => { y with dirty := 0, buffered := false })

/-- Data that was dirty with no flushed copy recorded unreadable (R253, R628). -/
def Dev.loseBuffer (d : Dev) : Dev :=
  let d := d.face.extents.foldl (fun d p => d.loseUnflushed p.1 p.2) d
  (d.face.granules.filter (fun p => p.2.buffered && !p.2.flushed)).foldl (fun d p =>
    let d := d.granuleUnreadable p.1
    { d with face := { d.face with granules := AMap.mod d.face.granules p.1 (fun x => { x with buffered := false }) } }) d

/-- The flush record taken back: one of a hold-up flush sets PFAIL_FLUSH (R253). -/
def Dev.takeFlush (d : Dev) : Dev :=
  let d := if d.face.flushRecord = some false then d.chipTrouble ChipBit.pfailFlush else d
  Dev.loseBuffer { d with face := { d.face with flushRecord := none } }

/-- A sanitize that ends: with Block Erase every die block is erased, those in `failed` retired; the maps, the journal, the replay logs and the retention
records are cleared, and every dataset id is free (R656, R657). -/
def Dev.finishSanitize (d : Dev) (failed : List (Nat × Nat)) : Dev :=
  match d.nvme.sanitize with
  | none => d
  | some erase =>
    let d : Dev := if !erase then { d with face := d.face.emptied }
      else
        let f := d.face.emptied
        let dies : AMap Die := AMap.mapKV (fun _ (x : Die) =>
          if x.state = .inService || x.state = .demoted || x.state = .readOnly then
            { x with blocks := AMap.mapKV (fun _ (b : BlockState) => match b with | .retired => BlockState.retired | .spare => .spare | _ => .erased) x.blocks }
          else x) f.dies
        failed.foldl (fun d b => if (AMap.get? d.face.dies b.1).isSome && decide (b.2 < d.face.blocksPerPlane) then d.retireBlock b.1 b.2 else d)
          { d with face := { f with dies := dies } }
    let streams : AMap Stream := AMap.mapKV (fun _ (s : Stream) => { s with log := none, replayOf := none }) d.streams
    { d with
      streams := streams
      face := { d.face with journalTail := [], flashedSeq := d.face.journalSeq, checkpointSeq := d.face.journalSeq, flushRecord := none }
      group := { d.group with logs := [], replays := d.group.replays.map (fun r => { r with missing := true }) }
      nvme := { d.nvme with sanitize := none, attached := [] }
      boot := { d.boot with retention := { d.boot.retention with valid := false } } }

/-- Step 7 of a cold sequence. -/
def Dev.stepMedia (d : Dev) (f : BringupFound) : Dev :=
  let d := (d.trainMedia f).finishSanitize []
  let d := d.takeFlush
  let empty := decide (f.maps = .none_)
  let d : Dev := if empty then { d with face := d.face.emptied } else d
  { d with boot := { d.boot with mapsOk := !empty } }

/-- Step 7 of a warm bring-up: MAPS_SEQ matches, so the maps and the write buffer are kept. -/
def Dev.stepMediaWarm (d : Dev) (f : BringupFound) : Dev :=
  let d := ((d.retrainMedia f).finishSanitize []).takeFlush
  { d with boot := { d.boot with mapsOk := true } }

/-! ### Step 8 (R16, R628, R683, R690, R691, R712) -/

/-- Events that outlive the reset posted, and their records cleared (R628, R712); a self-test that the reset ended is reported (R655). -/
def Dev.postRecords (d : Dev) (test : Option Nat) : Dev :=
  let d := d.boot.railFaults.foldl (fun d c => d.event adminWin EventCode.railFault 0 [(20, 1, c % 256), (21, 1, c / 256)]) d
  let d := match d.bellows.quench with
    | none => d
    | some (die, sensor) => d.event adminWin EventCode.quenchTripped 0 [(21, 1, sensor), (22, 2, die)]
  let d := match test with
    | none => d
    | some code => d.event adminWin EventCode.selftestDone 0 [(20, 1, code), (21, 1, 2), (22, 1, 0)]
  { d with
    boot := { d.boot with railFaults := [] }
    bellows := { d.bellows with quench := none } }

/-- The SVN floor raised at the first bring-up of the image whose activation asked for it (R683). -/
def Dev.commitFloor (d : Dev) : Dev :=
  if d.recordCommits && d.boot.slot == d.recordSlot then
    { d with boot := { d.boot with fuses := { d.boot.fuses with svnFloor := max d.boot.fuses.svnFloor (imageSvn (d.slotImage d.boot.slot)) } } }
  else d

/-- Step 8: the topology check, READY or HOLD, the tick generator, and the events of bring-up. -/
def Dev.stepCheck (d : Dev) (f : BringupFound) (kind : Nat) (test : Option Nat) : Dev :=
  let d : Dev := { d.recomputeSlc with
    nvme := { d.nvme with attached := d.face.datasets.map Prod.fst }
    boot := { d.boot with reached := true, pins := { d.boot.pins with tickEn := f.tickEn, tickPos := f.tickPos } } }
  if d.hearth.halting then (d.postRecords test).postTrouble
  else
    let m := d.mismatchWith d.expected
    let d := (d.postRecords test).commitFloor
    let d : Dev := { d with
      boot := { d.boot with mismatch := m }
      hearth := { d.hearth with state := if m = 0 then .ready else .hold, bootStep := 0 } }
    let d := if m = 0 then d else (d.chipTrouble ChipBit.topologyHold).topologyEvent m
    let d := d.postTrouble
    let d : Dev := { d with tick := { d.tick with count := 1, running := true } }
    d.event adminWin EventCode.bootDone 0
      [(20, 1, kind), (21, 1, d.hearth.state.code), (22, 1, d.boot.slot), (23, 1, bitNat d.boot.fallback), (24, 4, f.ms), (28, 4, d.hearth.fwVersion),
       (32, 2, d.boot.failedStatus)]

/-! ### Bring-up -/

/-- Step 1: the straps are read, and the activation record in use is measured (R681). -/
def Dev.stepRom (d : Dev) : Dev :=
  let d := match d.recordInUse with
    | none => d
    | some i => d.bootEntry BootKind.activation 1 Status.success (sha384 (d.recordCopy i))
  d.stepDone 1

/-- The steps of Table 20-2 on a device just reset. -/
def Dev.coldSteps (d : Dev) (f : BringupFound) (kind : Nat) (test : Option Nat) : Dev :=
  let d := d.stepRom
  if d.boot.forced then d.toRecovery
  else
    let (ok, d) := d.bootSlot
    if !ok then d.toRecovery
    else
      let (fine, d) := ((d.stepDone 2).stepConfig.stepDone 3).stepSlagMap
      if !fine then d.toRecovery
      else
        let d := (((d.stepDone 4).stepBist f).stepDone 5).stepTrain f
        let d := ((d.stepDone 6).stepMedia f).stepDone 7
        d.stepCheck f kind test

/-- The steps of Table 20-3 on a device just reset. -/
def Dev.warmSteps (d : Dev) (f : BringupFound) (test : Option Nat) : Dev :=
  let (ok, d) := d.stepRom.bootKept
  if !ok then d.toRecovery
  else
    let (fine, d) := ((d.stepDone 2).stepConfig.stepDone 3).stepSlagMap
    if !fine then d.toRecovery
    else
      let d := ((d.stepRecords f).stepDone 4).stepTrain f
      let d := ((d.stepDone 6).stepMediaWarm f).stepDone 7
      d.stepCheck f 2 test

/-- The forced-recovery flag, cleared when the device leaves RECOVERY (R680). -/
def Dev.leaveRecovery (d : Dev) : Dev := if d.hearth.state = .recovery then { d with boot := { d.boot with forced := false } } else d

/-- The code of a self-test that runs. -/
def Dev.testCode (d : Dev) : Option Nat := d.nvme.test.map SelfTest.code

/-- A cold reset and its bring-up (R669, R673). -/
def Dev.coldReset (d : Dev) (f : BringupFound) (kind : Nat) : Dev := (d.endWrites.leaveRecovery.afterCold).coldSteps f kind d.testCode

/-- A warm reset and its bring-up: one that interrupts a bring-up that never reached READY or HOLD runs as a cold reset, and one whose retention records
are not valid runs the cold sequence and sets RETENTION_INVALID; after a hold-up flush the buffer is `flushed` (R670, R671, R677). -/
def Dev.warmReset (d : Dev) (f : BringupFound) (flushed : Bool) : Dev :=
  if d.hearth.state = .boot && !d.boot.reached then d.coldReset f 3
  else
    let e := (if flushed then d else d.endWrites.flushBuffer true).leaveRecovery
    let e := if e.boot.reached then e.writeRetention else e
    if e.boot.retention.valid && f.retentionOk then e.afterWarm.warmSteps f d.testCode
    else
      let e := e.afterWarm
      Dev.coldSteps { e.chipTrouble ChipBit.retentionInvalid with boot := { e.boot with retention := { e.boot.retention with valid := false } } } f 3 d.testCode

/-! ### The rows -/

/-- A reset of the device by an event: with it, no window has a negotiated version left (R141). -/
def State.onReset (s : State) (p : Dev → Bool) (f : Dev → Dev) : Out :=
  if p s.dev then .next { s with hdr := [], dev := f s.dev } else .next s

/-- POWER_ON: all rails are in range, with PFAIL_L high (R669, R709). -/
def execPowerOn (found : BringupFound) (s : State) : Out :=
  s.onReset (fun _ => true) (fun d => Dev.coldReset { d with face := { d.face with pfailLow := false } } found 1)

/-- RESET_L_ASSERT: while PFAIL_L is low the device stays in reset, and after a rail fault until the rails are back (R709, R711). -/
def execResetLAssert (found : BringupFound) (s : State) : Out :=
  s.onReset (fun d => d.boot.held != 3) (fun d =>
    if d.face.pfailLow then { d with face := { d.face with flushing := false }, boot := { d.boot with held := 1 } } else d.coldReset found 1)

/-- PERST_L: a warm reset; while the hold-up flush runs, R252 decides what follows (R669, R670). -/
def execPerstL (found : BringupFound) (s : State) : Out := s.onReset (fun d => !d.stopped) (fun d => d.warmReset found false)

/-- PFAIL_L_FALL: in BOOT the device stops at once; else the hold-up flush begins, and a hold-up test ends (R251, R252, R632). -/
def execPfailLFall (s : State) : Out :=
  s.onDev (fun d =>
    if d.face.pfailLow then d
    else
      let low : Dev := { d with face := { d.face with pfailLow := true } }
      if d.stopped then low
      else if d.hearth.state = .boot then { low with boot := { low.boot with held := 1 } }
      else
        let d := low.abortTest
        { d with face := { d.face with flushing := true } })

/-- PFAIL_L_RISE (R252). -/
def execPfailLRise (s : State) : Out := s.onDev (fun d => { d with face := { d.face with pfailLow := false } })

/-- HOLDUP_FLUSH_DONE: step 6 of Table 06-11; the device holds itself in reset, or takes a warm reset when PFAIL_L has risen again (R251, R252). -/
def execHoldupFlushDone (found : BringupFound) (s : State) : Out :=
  if !s.dev.face.flushing then .next s
  else
    let d := s.dev.endWrites.flushBuffer false
    let d : Dev := { d with face := { d.face with flushing := false } }
    if d.face.pfailLow then .next { s with dev := { d with boot := { d.boot with held := 1 } } }
    else .next { s with hdr := [], dev := d.warmReset found true }

/-- RAIL_FAULT: the device stops every clock and holds itself in reset, and the rail's code is recorded, with whether it interrupted a flush; after step 6
of a flush there is none (R711, R712). -/
def execRailFault (rail : Nat) (s : State) : Out :=
  s.onDev (fun d =>
    if d.boot.held = 1 || d.boot.held = 3 then d
    else { d with
      face := { d.face with flushing := false }
      boot := { d.boot with held := 3, railFaults := d.boot.railFaults ++ [rail % 256 + 256 * bitNat d.face.flushing] } })

/-- SANITIZE_DONE: the sanitize that runs ends; the recovery port reports OK (R656, Table 19-10). -/
def Dev.sanitizeDone (d : Dev) (failed : List (Nat × Nat)) : Dev :=
  if d.nvme.sanitize.isNone then d
  else
    let gone := d.nvme.attached
    let d := d.finishSanitize failed
    let d := if gone.isEmpty then d else d.namespaceChanged
    if d.side.recov.busy then { d with side := { d.side with recov := { d.side.recov with busy := false, result := 0 } } } else d

/-- SANITIZE_DONE (R656). -/
def execSanitizeDone (failed : List (Nat × Nat)) (s : State) : Out := s.onRunning (fun d => d.sanitizeDone failed)

end Sys2Proof.Machine
end

