-- ==== Sys2Proof/Machine/Registers.lean ====
section
/-!
DEFINITION. Machine/Registers.lean: writes to registers that no command of their own serves, and doorbells with opcodes that are not defined (R133 to R138, R146, R664).
-/
namespace Sys2Proof.Machine

/-! ### REGISTER_WRITE (R133, R135, R664) -/

/-- Whether an access is an aligned one of 32 or 64 bits. -/
def alignedAccess (offset bits : Nat) : Bool := (bits == 32 && offset % 4 == 0) || (bits == 64 && offset % 8 == 0)

/-- A write of `bits` bits at an offset of a window, by the access codes of Tables 04-6 to 04-14. MBX_DOORBELL is left to the commands that it submits. -/
def Dev.writeWindow (d : Dev) (w offset bits v : Nat) : Dev :=
  if !alignedAccess offset bits then d
  else if offset < 0x30 then
    if offset % 8 ≠ 0 then d
    else if offset = 0x10 then d.modWin w (fun x => { x with ignored := x.ignored && !bitOf v 3 })
    else if offset = 0x18 then d.writeIrq w v
    else if offset = 0x20 then d.writeHead w v
    else d
  else if 0x40 ≤ offset && offset < 0x800 then
    d.modWin w (fun x => if x.state = .busy then x else { x with reqArea := Mem.writeAll 0 x.reqArea offset (leBytes (bits / 8) v) })
  else d

/-- A write of `n` bytes at an offset of the recovery port: REC_ARG0 to REC_ARG3 and REC_DATA take it, and the port's index stands there (Table 19-8). -/
def Dev.writeRecovery (d : Dev) (offset n v : Nat) : Dev :=
  let args := fun (x : Recovery) => overlay (x.args.flatMap (leBytes 4)) (offset - 8) (leBytes n v)
  let f := fun (x : Recovery) =>
    if 0x08 ≤ offset && offset + n ≤ 0x18 then { x with args := (List.range 4).map (fun k => leAt (args x) (4 * k) 4) }
    else if 0x20 ≤ offset && offset + n ≤ 0x120 then { x with data := Mem.writeAll 0 x.data (offset - 0x20) (leBytes n v) }
    else x
  { d with side := { d.side with recov := { f d.side.recov with index := offset } } }

/-- A write that reaches a register without a command of its own; PF1 BAR0 holds none that can be written but those of the administrative window. -/
def Dev.writeRegister (d : Dev) (target : RegTarget) (offset bits v : Nat) : Dev :=
  match target with
  | .bar0 => if 0x1000 ≤ offset && offset < 0x2000 then d.writeWindow adminWin (offset - 0x1000) bits v else d
  | .window w => d.writeWindow w.num offset bits v
  | .recovery => if bits % 8 = 0 then d.writeRecovery offset (bits / 8) v else d

/-- REGISTER_WRITE (R133). -/
def execRegisterWrite (target : RegTarget) (offset bits value : Nat) (s : State) : Out :=
  s.onRunning (fun d => d.writeRegister target offset bits value)

/-! ### OPCODE_UNKNOWN (Table 04-16 step 3, Table 04-17) -/

/-- Opcodes of HCP 1.0, by class: the first and the last. -/
def opcodeClasses : List (Nat × Nat) :=
  [(0x0001, 0x0003), (0x0101, 0x0105), (0x0201, 0x0204), (0x0301, 0x0305), (0x0401, 0x0407), (0x0501, 0x0506), (0x0601, 0x0605), (0x0701, 0x0704), (0x0801, 0x0802),
   (0x0901, 0x0905), (0x0907, 0x0907)]

/-- Opcodes of later versions, with the version that defines each. -/
def opcodesSince : List (Nat × Nat) := [(0x0106, 0x0200), (0x0205, 0x0201), (0x0606, 0x0300), (0x0705, 0x0301), (0x0906, 0x0302)]

/-- Whether a version defines an opcode. -/
def opcodeDefined (opcode v : Nat) : Bool :=
  opcodeClasses.any (fun c => decide (c.1 ≤ opcode) && decide (opcode ≤ c.2)) || opcodesSince.any (fun o => o.1 == opcode && decide (o.2 ≤ v))

/-- OPCODE_UNKNOWN: a doorbell whose opcode the window's version does not define (R146); one that it defines is a command of its own, and this one has not come about. -/
def execOpcodeUnknown (w : Window) (opcode : Nat) (r : Request) (s : State) : Out :=
  if opcodeDefined opcode (s.version w.num) then .next s else s.onDoorbell (cmdUnknown opcode) w r

end Sys2Proof.Machine
end

