-- ==== Sys2Proof/Machine/Sideband.lean ====
section
/-!
DEFINITION. Machine/Sideband.lean: the recovery port, the MCTP endpoint with its I3C addresses, and the JTAG port (R661 to R666, R702).
-/
namespace Sys2Proof.Machine

/-! ### The recovery port (R664 to R666) -/

/-- Results of the port (Table 19-10). -/
def RecResult.ok : Nat := 0
def RecResult.badCode : Nat := 1
def RecResult.badArg : Nat := 2
def RecResult.notInRecovery : Nat := 3
def RecResult.signatureBad : Nat := 4
def RecResult.flashFailed : Nat := 5

/-- The port's registers changed. -/
def Dev.modRec (d : Dev) (f : Recovery → Recovery) : Dev := { d with side := { d.side with recov := f d.side.recov } }

/-- A command ended with a result. -/
def Dev.recEnd (d : Dev) (result : Nat) : Dev := d.modRec (fun x => { x with result := result, busy := false })

/-- Whether a write to REC_CMD is served: a command that arrives while one runs is discarded, and outside RECOVERY only two codes are (R666). -/
def Dev.recServes (d : Dev) (always : Bool) : Bool := !d.stopped && !d.side.recov.busy && (always || d.hearth.state == .recovery)

/-- A command of the port that does not reset the device. -/
def Dev.onRec (d : Dev) (always : Bool) (f : Dev → Dev) : Dev :=
  if d.stopped then d
  else if d.side.recov.busy then d.modRec (fun x => { x with ignored := true })
  else if !d.recServes always then d.recEnd RecResult.notInRecovery
  else f (d.modRec (fun x => { x with dataReady := false, progress := 0, count := 0 }))

/-- REC_ARG0. -/
def Dev.recArg (d : Dev) : Nat := d.side.recov.args.getD 0 0

/-- The length of an image that a slot can hold, its header included (Table 20-5). -/
def recLengthOk (n : Nat) : Bool := decide (4608 ≤ n) && decide (n ≤ slotSize)

/-- Whether LOAD_FW stages its image, and so resets the device. -/
def Dev.recLoads (d : Dev) (image : List Byte) (readBackOk : Bool) : Bool :=
  d.recServes false && recLengthOk d.recArg && d.imageStatus (padTo image d.recArg) == Status.success && readBackOk

/-- LOAD_FW: the image, written through REC_DATA, is checked, written to the slot that the record does not name, and activated (R666, R682, R683). -/
def Dev.recLoad (d : Dev) (image : List Byte) (readBackOk : Bool) : Dev :=
  if !recLengthOk d.recArg then d.recEnd RecResult.badArg
  else
    let slot := 1 - d.recordSlot
    let (st, d) := d.stageImage slot (padTo image d.recArg) readBackOk
    let d := d.modRec (fun x => { x with progress := d.recArg })
    if st = Status.success then (d.writeRecord slot false).recEnd RecResult.ok
    else d.recEnd (if st = Status.fwWriteFailed then RecResult.flashFailed else RecResult.signatureBad)

/-- LOAD_FW (R666). -/
def execLoadFw (image : List Byte) (readBackOk : Bool) (found : BringupFound) (s : State) : Out :=
  if s.dev.recLoads image readBackOk then
    .next { s with hdr := [], dev := (s.dev.onRec false (fun d => d.recLoad image readBackOk)).coldReset found 1 }
  else s.onDev (fun d => d.onRec false (fun d => d.recLoad image readBackOk))

/-- A result returned through REC_DATA, 256 bytes at a time. -/
def Dev.recReturn (d : Dev) (bs : List Byte) : Dev :=
  let n := ceilDiv bs.length 256
  let d := (List.range n).foldl (fun d k => d.emit (.readData ((bs.drop (256 * k)).take 256))) d
  let last := bs.drop (256 * (n - 1))
  (d.modRec (fun x => { x with
    dataReady := true, progress := bs.length, count := last.length
    data := Mem.writeAll 0 (Mem.erase x.data 0 256) 0 last })).recEnd RecResult.ok

/-- READ_LOG: the boot log with its measurements, or the last 64 KiB of the Hearth log, whose bytes are free (R666, R681). -/
def Dev.recReadLog (d : Dev) : Dev :=
  if d.recArg = 0 then d.recReturn (d.boot.measure ++ d.boot.log.flatMap BootEntry.bytes)
  else if d.recArg = 1 then
    let (k, d) := d.draw
    d.recReturn (padTo (Config.freeBytes k) 65536)
  else d.recEnd RecResult.badArg

/-- READ_LOG (R666). -/
def execReadLog (s : State) : Out := s.onDev (fun d => d.onRec true Dev.recReadLog)

/-- FACTORY_DEFAULTS: both configuration copies erased; what a sector holds whose read-back fails is a free value (R666). -/
def Dev.recDefaults (d : Dev) (readBackOk : Bool) : Dev :=
  if readBackOk then (([0, 1].foldl (fun d i => d.norProgram (cfgBase i) norSector []) d)).recEnd RecResult.ok
  else
    ([0, 1].foldl (fun (d : Dev) i =>
      let (k, d) := d.draw
      d.norProgram (cfgBase i) norSector (padTo (Config.freeBytes k) norSector)) d).recEnd RecResult.flashFailed

/-- FACTORY_DEFAULTS (R666). -/
def execFactoryDefaults (readBackOk : Bool) (s : State) : Out := s.onDev (fun d => d.onRec false (fun d => d.recDefaults readBackOk))

/-- SANITIZE: 0 Block Erase, 1 Crypto Erase; it runs until SANITIZE_DONE (R656, R666). -/
def Dev.recSanitize (d : Dev) (readBackOk : Bool) : Dev :=
  if 1 < d.recArg then d.recEnd RecResult.badArg
  else if !readBackOk then d.recEnd RecResult.flashFailed
  else (d.startSanitize (d.recArg == 0)).modRec (fun x => { x with busy := true })

/-- SANITIZE (R666). -/
def execSanitize (readBackOk : Bool) (s : State) : Out := s.onDev (fun d => d.onRec false (fun d => d.recSanitize readBackOk))

/-- RESET: a cold reset (R666). -/
def execReset (found : BringupFound) (s : State) : Out :=
  if s.dev.recServes false then .next { s with hdr := [], dev := (s.dev.onRec false (fun d => d.recEnd RecResult.ok)).coldReset found 1 }
  else s.onDev (fun d => d.onRec false id)

/-- The key of FORCE_RECOVERY in REC_ARG0. -/
def forceKey : Nat := 0x52454356

/-- The device with the forced-recovery flag set, which only a later exit from RECOVERY clears (R680). -/
def Dev.forceRecovery (d : Dev) : Dev :=
  { d with
    hearth := { d.hearth with state := .boot }
    boot := { d.boot with forced := true } }

/-- FORCE_RECOVERY: a cold reset after which bring-up stops in RECOVERY (R666). -/
def execForceRecovery (found : BringupFound) (s : State) : Out :=
  if s.dev.recServes true && s.dev.recArg == forceKey then
    .next { s with hdr := [], dev := ((s.dev.onRec true (fun d => d.recEnd RecResult.ok)).forceRecovery).coldReset found 1 }
  else s.onDev (fun d => d.onRec true (fun d => d.recEnd RecResult.badArg))

/-- REC_STATUS (Table 19-9). -/
def Recovery.status (x : Recovery) : Nat := 256 * x.result + 4 * bitNat x.ignored + 2 * bitNat x.dataReady + bitNat x.busy

/-- REC_STATUS_READ: the status, and IGNORED cleared (R665). -/
def execRecStatusRead (s : State) : Out :=
  s.onDev (fun d => if d.stopped then d else (d.emit (.readData (leBytes 4 d.side.recov.status))).modRec (fun x => { x with ignored := false }))

/-- BAD_CODE: a CODE that Table 19-9 does not define (R666). -/
def execBadCode (code : Nat) (s : State) : Out :=
  s.onDev (fun d => if 1 ≤ code % 256 && code % 256 ≤ 6 then d else d.onRec true (fun d => d.recEnd RecResult.badCode))

/-! ### MCTP (R661 to R663); the layouts of DSP0236 are PRESUMED -/

/-- MCTP_DROP. -/
def Dev.mctpDrop (d : Dev) : Dev := d.count Counter.mctpDrop 0 1

/-- The endpoint's state changed. -/
def Dev.modMctp (d : Dev) (f : Mctp → Mctp) : Dev := { d with side := { d.side with mctp := f d.side.mctp } }

/-- A message sent to the source of a packet. -/
def Dev.mctpSend (d : Dev) (p : MctpPacket) (bs : List Byte) : Dev := d.emit (.mctp p.source p.tag bs)

/-- A control request: its message type 0, the request bit, and its command code. -/
def isControl (p : MctpPacket) (code : Nat) : Bool :=
  p.som && p.eom && p.tagOwner && decide (3 ≤ p.body.length) && leAt p.body 0 1 % 128 == 0 && bitOf (leAt p.body 1 1) 7 && leAt p.body 2 1 == code

/-- A control response: completion code and data. -/
def Dev.controlReply (d : Dev) (p : MctpPacket) (completion : Nat) (data : List Byte) : Dev :=
  d.mctpSend p (leBytes 1 (leAt p.body 0 1) ++ leBytes 1 (leAt p.body 1 1 % 128) ++ leBytes 1 (leAt p.body 2 1) ++ leBytes 1 completion ++ data)

/-- Whether a packet is addressed to the endpoint. -/
def Dev.mctpMine (d : Dev) (p : MctpPacket) : Bool := p.dest % 256 == 0 || p.dest % 256 == 255 || p.dest % 256 == d.side.mctp.eid

/-- A packet of a control request with `n` bytes of data; a bad PEC or a message of another type is dropped. -/
def Dev.onControl (d : Dev) (p : MctpPacket) (code n : Nat) (f : Dev → List Byte → Dev) : Dev :=
  if !d.mctpMine p then d
  else if !p.pecOk || !isControl p code then d.mctpDrop
  else if p.body.length ≠ 3 + n then d.controlReply p 3 []
  else f d (p.body.drop 3)

/-- SET_ENDPOINT_ID. -/
def Dev.setEid (d : Dev) (p : MctpPacket) (b : List Byte) : Dev :=
  let e := leAt b 1 1
  if 1 < leAt b 0 1 % 4 || e < 8 || e = 255 then d.controlReply p 2 []
  else (d.modMctp (fun x => { x with eid := e })).controlReply p 0 (leBytes 1 0 ++ leBytes 1 e ++ leBytes 1 0)

/-- Set Endpoint ID (R661). -/
def execSetEndpointId (p : MctpPacket) (s : State) : Out := s.onRunning (fun d => d.onControl p 1 2 (fun d b => d.setEid p b))

/-- Get Endpoint ID (R661). -/
def execGetEndpointId (p : MctpPacket) (s : State) : Out :=
  s.onRunning (fun d => d.onControl p 2 0 (fun d _ => d.controlReply p 0 (leBytes 1 d.side.mctp.eid ++ zeros 2)))

/-- GET_MCTP_VERSION_SUPPORT: one version entry of four free bytes for the base specification, control messages and vendor-defined messages. -/
def Dev.mctpVersions (d : Dev) (p : MctpPacket) (b : List Byte) : Dev :=
  let t := leAt b 0 1
  if t = 255 || t = 0 || t = 0x7F then
    let (k, d) := d.draw
    d.controlReply p 0 (leBytes 1 1 ++ padTo (Config.freeBytes k) 4)
  else d.controlReply p 0x80 []

/-- Get MCTP Version Support (R661). -/
def execGetMctpVersionSupport (p : MctpPacket) (s : State) : Out := s.onRunning (fun d => d.onControl p 4 1 (fun d b => d.mctpVersions p b))

/-- Get Message Type Support (R661). -/
def execGetMessageTypeSupport (p : MctpPacket) (s : State) : Out :=
  s.onRunning (fun d => d.onControl p 5 0 (fun d _ => d.controlReply p 0 (leBytes 1 1 ++ leBytes 1 0x7F)))

/-- The enterprise number (R661). -/
def enterprise : Nat := 0xD1B7

/-- GET_VENDOR_DEFINED_MESSAGE_SUPPORT: the one set of IANA form, whose 16-bit version field is free. -/
def Dev.mctpVendors (d : Dev) (p : MctpPacket) (b : List Byte) : Dev :=
  if leAt b 0 1 ≠ 0 then d.controlReply p 2 []
  else
    let (k, d) := d.draw
    d.controlReply p 0 (leBytes 1 0xFF ++ leBytes 1 1 ++ beBytes 4 enterprise ++ padTo (Config.freeBytes k) 2)

/-- Get Vendor Defined Message Support (R661). -/
def execGetVendorDefinedMessageSupport (p : MctpPacket) (s : State) : Out := s.onRunning (fun d => d.onControl p 6 1 (fun d b => d.mctpVendors p b))

/-! ### Vendor-defined messages (R662, R663) -/

/-- What a packet does to the message in assembly: dropped, taken, or the last of a message. -/
inductive Assembled where
  | dropped
  | part (a : MctpAssembly)
  | whole (bytes : List Byte)
  deriving DecidableEq, Repr

/-- Whether a packet belongs to an assembly. -/
def MctpAssembly.matches_ (a : MctpAssembly) (p : MctpPacket) : Bool := a.source == p.source && a.tagOwner == p.tagOwner && a.tag == p.tag

/-- A packet of a vendor-defined message: one that starts a message must be of type 0x7F; one that goes on must be the next of its assembly, and its
message stays within 4,096 bytes (R661). -/
def Mctp.take (m : Mctp) (p : MctpPacket) : Assembled :=
  if !p.pecOk || !p.tagOwner || 64 < p.body.length then .dropped
  else if p.som then
    if leAt p.body 0 1 % 128 ≠ 0x7F || p.body.isEmpty || m.assembly.any (fun a => !a.matches_ p) then .dropped
    else if p.eom then .whole p.body
    else .part { source := p.source, tagOwner := p.tagOwner, tag := p.tag, seq := (p.seq + 1) % 4, bytes := p.body }
  else match m.assembly with
    | none => .dropped
    | some a =>
      if !a.matches_ p || p.seq % 4 ≠ a.seq || 4096 < a.bytes.length + p.body.length then .dropped
      else if p.eom then .whole (a.bytes ++ p.body)
      else .part { a with seq := (a.seq + 1) % 4, bytes := a.bytes ++ p.body }

/-- The request of a message: its bytes after the message type. A LEN that is not the length of its payload is the length of no request. -/
def sideRequest (b : List Byte) : Request :=
  let n := leAt b 6 2
  { tag := 0, len := if (b.drop 8).length = n then n else 65536, sglCount := 0, hdrRsv := 0, sglAddr := 0, payload := b.drop 8, sgl := [],
    sglReadable := true, data := [] }

/-- A response: enterprise number, STATUS, LEN and payload. -/
def Dev.sideReply (d : Dev) (p : MctpPacket) (status : Status) (payload : List Byte) : Dev :=
  d.mctpSend p (leBytes 1 0x7F ++ beBytes 4 enterprise ++ leBytes 2 status ++ leBytes 2 payload.length ++ payload)

/-- The commands that the sideband carries (R662). -/
def sideCmd (opcode : Nat) : Option Cmd :=
  if opcode = 0x0001 then some cmdHello
  else if opcode = 0x0102 then some cmdGetParam
  else if opcode = 0x0103 then some cmdReadCounters
  else if opcode = 0x0104 then some cmdReadTrouble
  else none

/-- The number under which the sideband's negotiated version is kept. -/
def sideKey : Nat := 1025

/-- What refuses a command of the sideband: the checks of Table 04-16, with the objects that the administrative window names. HELLO's own state check is
about a window's tickets, and the sideband has none. -/
def Dev.sideRefusal (d : Dev) (c : Cmd) (v : Nat) (b : List Byte) : Option Status :=
  c.refusal d { w := adminWin, v := if c.opcode = 1 then 0 else v, r := sideRequest b }

/-- A command of the sideband served (R662): message bytes after the type. -/
def Dev.sideServe (d : Dev) (p : MctpPacket) (v : Nat) (b : List Byte) : Dev :=
  if beAt b 0 4 ≠ enterprise || b.length < 8 then d.mctpDrop
  else if d.hearth.state = .boot || d.hearth.state = .recovery then d.sideReply p Status.sidebandUnavailable []
  else match sideCmd (leAt b 4 2) with
    | none => d.sideReply p Status.sidebandOpcode []
    | some c => match d.sideRefusal c v b with
      | some s => d.sideReply p s []
      | none =>
        let a := c.run d { w := adminWin, v := v, r := sideRequest b } 0
        a.dev.sideReply p a.status a.payload

/-- The version that a HELLO of the sideband negotiates. -/
def Dev.sideVersion (d : Dev) (b : List Byte) : Option Nat :=
  if beAt b 0 4 ≠ enterprise || b.length < 8 || d.hearth.state = .boot || d.hearth.state = .recovery || leAt b 4 2 ≠ 1 ||
     (d.sideRefusal cmdHello 0 b).isSome then none
  else chooseVersion (leAt b 8 2) (leAt b 10 2)

/-- A packet of a vendor-defined message. -/
def Dev.onVendor (d : Dev) (p : MctpPacket) (v : Nat) : Dev :=
  if !d.mctpMine p then d
  else match d.side.mctp.take p with
    | .dropped => d.mctpDrop
    | .part a => d.modMctp (fun x => { x with assembly := some a })
    | .whole b => (d.modMctp (fun x => { x with assembly := none })).sideServe p v (b.drop 1)

/-- The negotiated versions after a packet. -/
def vendorHdr (hdr : AMap Nat) (d : Dev) (p : MctpPacket) : AMap Nat :=
  if d.stopped || !d.mctpMine p then hdr
  else match d.side.mctp.take p with
    | .whole b => match d.sideVersion (b.drop 1) with
      | some v => AMap.set hdr sideKey v
      | none => hdr
    | _ => hdr

/-- VENDOR_DEFINED_MESSAGE (R662). -/
def execVendorDefinedMessage (p : MctpPacket) (s : State) : Out :=
  .next { s with
    hdr := vendorHdr s.hdr s.dev p
    dev := if s.dev.stopped then s.dev else s.dev.onVendor p (s.version sideKey) }

/-! ### I3C addresses (R661) -/

/-- SETDASA: the dynamic address given to the static one, while the target has none. -/
def execSetdasa (address : Nat) (s : State) : Out :=
  s.onRunning (fun d => d.modMctp (fun x => if x.dynAddr.isNone then { x with dynAddr := some (address % 128) } else x))

/-- ENTDAA: the dynamic address that the controller assigns to a target that has none. -/
def execEntdaa (address : Nat) (s : State) : Out :=
  s.onRunning (fun d => d.modMctp (fun x => if x.dynAddr.isNone then { x with dynAddr := some (address % 128) } else x))

/-- RSTDAA: the static address serves again. -/
def execRstdaa (s : State) : Out := s.onRunning (fun d => d.modMctp (fun x => { x with dynAddr := none }))

/-! ### JTAG (R702); the registers' forms are those of IEEE 1149.1 (PRESUMED) -/

/-- The port's state changed. -/
def Dev.modJtag (d : Dev) (f : Jtag → Jtag) : Dev := { d with side := { d.side with jtag := f d.side.jtag } }

/-- Free bits that a register captures. -/
def freeBits (k n : Nat) : List Bool := (List.range n).map (fun i => bitOf (Config.freeValue k) i)

/-- BYPASS: one bit, captured as 0, between TDI and TDO (R702). -/
def execBypass (bits : List Bool) (s : State) : Out :=
  s.onDev (fun d => (d.modJtag (fun x => { x with ir := .bypass, extest := false })).emit (.tdo ((false :: bits).take bits.length)))

/-- IDCODE: 32 bits, of which the first is 1; the spec does not give the others, and they never change (R702). -/
def idcodeBits : List Bool := true :: (List.range 31).map (fun i => bitOf Config.idcode i)

/-- IDCODE (R702). -/
def execIdcode (bits : List Bool) (s : State) : Out :=
  s.onDev (fun d => (d.modJtag (fun x => { x with ir := .idcode, extest := false })).emit (.tdo ((idcodeBits ++ bits).take bits.length)))

/-- SAMPLE/PRELOAD: the levels of the pins, which are free, are shifted out, and the boundary register takes what is shifted in (R702). -/
def execSamplePreload (bits : List Bool) (s : State) : Out :=
  s.onDev (fun d =>
    let (k, d) := d.draw
    (d.modJtag (fun _ => { ir := .samplePreload, boundary := bits, extest := false })).emit (.tdo (freeBits k bits.length)))

/-- EXTEST: it takes effect only in BOOT or RECOVERY, where it drives the boundary register on the pins (R702). -/
def execExtest (bits : List Bool) (s : State) : Out :=
  s.onDev (fun d =>
    if d.hearth.state != .boot && d.hearth.state != .recovery then d
    else
      let (k, d) := d.draw
      (d.modJtag (fun _ => { ir := .extest, boundary := bits, extest := true })).emit (.tdo (freeBits k bits.length)))

end Sys2Proof.Machine
end

