-- ==== Sys2Proof/Machine/Dispatch.lean ====
section
/-!
DEFINITION. Machine/Dispatch.lean: one direct call of a meaning for each command.
-/
namespace Sys2Proof.Machine

/-- The effect of a command on everything but the queue. -/
def exec (i : Instr) (s : State) : Host.Outcome State Fault Refusal :=
  match i with
  | .hello w r => Sys2Proof.Machine.execHello w r s
  | .setEventRing w r => Sys2Proof.Machine.execSetEventRing w r s
  | .ticketQuery w r => Sys2Proof.Machine.execTicketQuery w r s
  | .setParam w r => Sys2Proof.Machine.execSetParam w r s
  | .getParam w r => Sys2Proof.Machine.execGetParam w r s
  | .readCounters w r => Sys2Proof.Machine.execReadCounters w r s
  | .readTrouble w r => Sys2Proof.Machine.execReadTrouble w r s
  | .clearSticky w r => Sys2Proof.Machine.execClearSticky w r s
  | .unitMap w r => Sys2Proof.Machine.execUnitMap w r s
  | .unitMapDone w ticket => Sys2Proof.Machine.execUnitMapDone w ticket s
  | .tenantCreate w r => Sys2Proof.Machine.execTenantCreate w r s
  | .tenantDelete w r => Sys2Proof.Machine.execTenantDelete w r s
  | .functionDisable w r => Sys2Proof.Machine.execFunctionDisable w r s
  | .functionEnable w r => Sys2Proof.Machine.execFunctionEnable w r s
  | .gateListSet w r => Sys2Proof.Machine.execGateListSet w r s
  | .programLoad w r => Sys2Proof.Machine.execProgramLoad w r s
  | .programLoadDone w ticket => Sys2Proof.Machine.execProgramLoadDone w ticket s
  | .programUnload w r => Sys2Proof.Machine.execProgramUnload w r s
  | .programUnloadDone w ticket => Sys2Proof.Machine.execProgramUnloadDone w ticket s
  | .vocabLoad w r => Sys2Proof.Machine.execVocabLoad w r s
  | .vocabLoadDone w ticket => Sys2Proof.Machine.execVocabLoadDone w ticket s
  | .screenTableLoad w r => Sys2Proof.Machine.execScreenTableLoad w r s
  | .screenBuildDone w ticket => Sys2Proof.Machine.execScreenBuildDone w ticket s
  | .generationRetire slot gen => Sys2Proof.Machine.execGenerationRetire slot gen s
  | .screenTableUpdate w r => Sys2Proof.Machine.execScreenTableUpdate w r s
  | .streamCreate w r => Sys2Proof.Machine.execStreamCreate w r s
  | .streamDelete w r => Sys2Proof.Machine.execStreamDelete w r s
  | .streamDeleteDone stream => Sys2Proof.Machine.execStreamDeleteDone stream s
  | .epochStart w r => Sys2Proof.Machine.execEpochStart w r s
  | .streamPause w r => Sys2Proof.Machine.execStreamPause w r s
  | .streamResume w r => Sys2Proof.Machine.execStreamResume w r s
  | .modeSet w r => Sys2Proof.Machine.execModeSet w r s
  | .contextRead w r => Sys2Proof.Machine.execContextRead w r s
  | .consumerAttach w r => Sys2Proof.Machine.execConsumerAttach w r s
  | .attachTimeout tenant reservoir => Sys2Proof.Machine.execAttachTimeout tenant reservoir s
  | .consumerDetach w r => Sys2Proof.Machine.execConsumerDetach w r s
  | .consumerDetachDone tenant reservoir => Sys2Proof.Machine.execConsumerDetachDone tenant reservoir s
  | .reservoirBind w r => Sys2Proof.Machine.execReservoirBind w r s
  | .peerAdd w r => Sys2Proof.Machine.execPeerAdd w r s
  | .ingestOpen w r => Sys2Proof.Machine.execIngestOpen w r s
  | .ingestClose w r => Sys2Proof.Machine.execIngestClose w r s
  | .ingestCloseDone stream => Sys2Proof.Machine.execIngestCloseDone stream s
  | .ingestCloseDiscard stream => Sys2Proof.Machine.execIngestCloseDiscard stream s
  | .datasetCreate w r => Sys2Proof.Machine.execDatasetCreate w r s
  | .datasetAppend w r => Sys2Proof.Machine.execDatasetAppend w r s
  | .datasetAppendDurable w ticket => Sys2Proof.Machine.execDatasetAppendDurable w ticket s
  | .datasetSeal w r => Sys2Proof.Machine.execDatasetSeal w r s
  | .datasetSealDone w ticket => Sys2Proof.Machine.execDatasetSealDone w ticket s
  | .datasetDiscard w r => Sys2Proof.Machine.execDatasetDiscard w r s
  | .placementSet w r => Sys2Proof.Machine.execPlacementSet w r s
  | .datasetKeySet w r => Sys2Proof.Machine.execDatasetKeySet w r s
  | .barrierJoin w r => Sys2Proof.Machine.execBarrierJoin w r s
  | .barrierJoinDone => Sys2Proof.Machine.execBarrierJoinDone s
  | .syncTimeout => Sys2Proof.Machine.execSyncTimeout s
  | .tickEpochSet w r => Sys2Proof.Machine.execTickEpochSet w r s
  | .tickEpochTakesEffect found => Sys2Proof.Machine.execTickEpochTakesEffect found s
  | .replayRecord w r => Sys2Proof.Machine.execReplayRecord w r s
  | .replayRun w r => Sys2Proof.Machine.execReplayRun w r s
  | .replayEnd stream => Sys2Proof.Machine.execReplayEnd stream s
  | .digestRead w r => Sys2Proof.Machine.execDigestRead w r s
  | .tongsAudit w r => Sys2Proof.Machine.execTongsAudit w r s
  | .tongsAuditDone audit => Sys2Proof.Machine.execTongsAuditDone audit s
  | .tongsBufferState w r => Sys2Proof.Machine.execTongsBufferState w r s
  | .configRead w r => Sys2Proof.Machine.execConfigRead w r s
  | .configReadDone w ticket => Sys2Proof.Machine.execConfigReadDone w ticket s
  | .configWrite w r => Sys2Proof.Machine.execConfigWrite w r s
  | .configWriteDone w ticket readBackOk => Sys2Proof.Machine.execConfigWriteDone w ticket readBackOk s
  | .topologyAck w r => Sys2Proof.Machine.execTopologyAck w r s
  | .fwStage w r => Sys2Proof.Machine.execFwStage w r s
  | .fwStageDone w ticket readBackOk => Sys2Proof.Machine.execFwStageDone w ticket readBackOk s
  | .fwActivate w r => Sys2Proof.Machine.execFwActivate w r s
  | .activationRecordWritten => Sys2Proof.Machine.execActivationRecordWritten s
  | .holdupMeasure w r => Sys2Proof.Machine.execHoldupMeasure w r s
  | .powerStateSet w r => Sys2Proof.Machine.execPowerStateSet w r s
  | .tickCountLoRead => Sys2Proof.Machine.execTickCountLoRead s
  | .mbxIrqWrite w value => Sys2Proof.Machine.execMbxIrqWrite w value s
  | .evtHeadWrite w value => Sys2Proof.Machine.execEvtHeadWrite w value s
  | .registerWrite target offset bits value => Sys2Proof.Machine.execRegisterWrite target offset bits value s
  | .tickBoundary found => Sys2Proof.Machine.execTickBoundary found s
  | .planFreeze => Sys2Proof.Machine.execPlanFreeze s
  | .limpProbe unit => Sys2Proof.Machine.execLimpProbe unit s
  | .periodChangeTakesEffect => Sys2Proof.Machine.execPeriodChangeTakesEffect s
  | .gateListTakesEffect tenant => Sys2Proof.Machine.execGateListTakesEffect tenant s
  | .deferStalled stream pos => Sys2Proof.Machine.execDeferStalled stream pos s
  | .slcLimitRecompute => Sys2Proof.Machine.execSlcLimitRecompute s
  | .stagedLaunchPrecharge cell => Sys2Proof.Machine.execStagedLaunchPrecharge cell s
  | .stagedLaunchRelease cell => Sys2Proof.Machine.execStagedLaunchRelease cell s
  | .workItemComplete item atNs => Sys2Proof.Machine.execWorkItemComplete item atNs s
  | .readHedge item => Sys2Proof.Machine.execReadHedge item s
  | .cellStoreCe cell atNs => Sys2Proof.Machine.execCellStoreCe cell atNs s
  | .cellOpFailure cell residue atNs => Sys2Proof.Machine.execCellOpFailure cell residue atNs s
  | .laneFault block lane atNs => Sys2Proof.Machine.execLaneFault block lane atNs s
  | .swageFault block atNs => Sys2Proof.Machine.execSwageFault block atNs s
  | .screenFault block atNs => Sys2Proof.Machine.execScreenFault block atNs s
  | .blockStoreUe block holds atNs => Sys2Proof.Machine.execBlockStoreUe block holds atNs s
  | .hbmCe region => Sys2Proof.Machine.execHbmCe region s
  | .hbmUe region holds => Sys2Proof.Machine.execHbmUe region holds s
  | .ringFault region lost => Sys2Proof.Machine.execRingFault region lost s
  | .dirFault region lost => Sys2Proof.Machine.execDirFault region lost s
  | .wedgeFault region unit atNs => Sys2Proof.Machine.execWedgeFault region unit atNs s
  | .regionResetDone region => Sys2Proof.Machine.execRegionResetDone region s
  | .regionResetTimeout region => Sys2Proof.Machine.execRegionResetTimeout region s
  | .hbmControllerFailure region => Sys2Proof.Machine.execHbmControllerFailure region s
  | .rehomeDone region => Sys2Proof.Machine.execRehomeDone region s
  | .coreFault core => Sys2Proof.Machine.execCoreFault core s
  | .lockstepMismatch => Sys2Proof.Machine.execLockstepMismatch s
  | .hubSramUe copyExists => Sys2Proof.Machine.execHubSramUe copyExists s
  | .permuteFault => Sys2Proof.Machine.execPermuteFault s
  | .pageDecodeFail dataset offset found => Sys2Proof.Machine.execPageDecodeFail dataset offset found s
  | .programFail bench member => Sys2Proof.Machine.execProgramFail bench member s
  | .eraseDone die block ok => Sys2Proof.Machine.execEraseDone die block ok s
  | .benchVerify bench ok => Sys2Proof.Machine.execBenchVerify bench ok s
  | .dieFailed die => Sys2Proof.Machine.execDieFailed die s
  | .channelRetrainFail channel => Sys2Proof.Machine.execChannelRetrainFail channel s
  | .writePermitRoom chunks => Sys2Proof.Machine.execWritePermitRoom chunks s
  | .journalTailFlush => Sys2Proof.Machine.execJournalTailFlush s
  | .mapsCheckpoint => Sys2Proof.Machine.execMapsCheckpoint s
  | .dedupSweepDone slot gen => Sys2Proof.Machine.execDedupSweepDone slot gen s
  | .drainTickStep tenant => Sys2Proof.Machine.execDrainTickStep tenant s
  | .tenantRemovalDone tenant => Sys2Proof.Machine.execTenantRemovalDone tenant s
  | .functionLevelReset w => Sys2Proof.Machine.execFunctionLevelReset w s
  | .vfRemoval vf => Sys2Proof.Machine.execVfRemoval vf s
  | .rdmaAck tenant reservoir => Sys2Proof.Machine.execRdmaAck tenant reservoir s
  | .fenceResponse tenant reservoir => Sys2Proof.Machine.execFenceResponse tenant reservoir s
  | .qpError qp reason => Sys2Proof.Machine.execQpError qp reason s
  | .cnpReceived qp ns => Sys2Proof.Machine.execCnpReceived qp ns s
  | .congestionIncrease qp => Sys2Proof.Machine.execCongestionIncrease qp s
  | .gaugeReadResponse tenant reservoir value => Sys2Proof.Machine.execGaugeReadResponse tenant reservoir value s
  | .arpRequest port frame => Sys2Proof.Machine.execArpRequest port frame s
  | .neighborSolicitation port frame => Sys2Proof.Machine.execNeighborSolicitation port frame s
  | .ingressFrame port frame ns => Sys2Proof.Machine.execIngressFrame port frame ns s
  | .manifestQuery peer message => Sys2Proof.Machine.execManifestQuery peer message s
  | .manifestReply peer message => Sys2Proof.Machine.execManifestReply peer message s
  | .readReq peer message => Sys2Proof.Machine.execReadReq peer message s
  | .readReady peer message => Sys2Proof.Machine.execReadReady peer message s
  | .readFail peer message => Sys2Proof.Machine.execReadFail peer message s
  | .release peer message => Sys2Proof.Machine.execRelease peer message s
  | .peerLinkReadDone peer tag data => Sys2Proof.Machine.execPeerLinkReadDone peer tag data s
  | .peerRequestTimeout peer tag => Sys2Proof.Machine.execPeerRequestTimeout peer tag s
  | .peerBusyRetry peer tag => Sys2Proof.Machine.execPeerBusyRetry peer tag s
  | .peerReleaseTimeout peer tag => Sys2Proof.Machine.execPeerReleaseTimeout peer tag s
  | .peerProbe peer => Sys2Proof.Machine.execPeerProbe peer s
  | .portLinkLoss port => Sys2Proof.Machine.execPortLinkLoss port s
  | .ethRefclkLoss port => Sys2Proof.Machine.execEthRefclkLoss port s
  | .tickBusFrame frame => Sys2Proof.Machine.execTickBusFrame frame s
  | .tickPulseMissing => Sys2Proof.Machine.execTickPulseMissing s
  | .ptpSyncMessage offset boundaryNs => Sys2Proof.Machine.execPtpSyncMessage offset boundaryNs s
  | .ptpSyncTimeout => Sys2Proof.Machine.execPtpSyncTimeout s
  | .resync reference number eNs found => Sys2Proof.Machine.execResync reference number eNs found s
  | .slumberEntry => Sys2Proof.Machine.execSlumberEntry s
  | .slumberExit => Sys2Proof.Machine.execSlumberExit s
  | .powerStateExitDone => Sys2Proof.Machine.execPowerStateExitDone s
  | .droopDetect block => Sys2Proof.Machine.execDroopDetect block s
  | .droopRecover block => Sys2Proof.Machine.execDroopRecover block s
  | .droopCeilingExpire => Sys2Proof.Machine.execDroopCeilingExpire s
  | .pmbusRead reads => Sys2Proof.Machine.execPmbusRead reads s
  | .gainUpdate => Sys2Proof.Machine.execGainUpdate s
  | .holdupTestDue => Sys2Proof.Machine.execHoldupTestDue s
  | .holdupTestDone dtUs v2Mv => Sys2Proof.Machine.execHoldupTestDone dtUs v2Mv s
  | .holdupTestTimeout => Sys2Proof.Machine.execHoldupTestTimeout s
  | .quenchTrip die sensor => Sys2Proof.Machine.execQuenchTrip die sensor s
  | .powerOn found => Sys2Proof.Machine.execPowerOn found s
  | .resetLAssert found => Sys2Proof.Machine.execResetLAssert found s
  | .perstL found => Sys2Proof.Machine.execPerstL found s
  | .pfailLFall => Sys2Proof.Machine.execPfailLFall s
  | .pfailLRise => Sys2Proof.Machine.execPfailLRise s
  | .holdupFlushDone found => Sys2Proof.Machine.execHoldupFlushDone found s
  | .railFault rail => Sys2Proof.Machine.execRailFault rail s
  | .lpoClkLoss => Sys2Proof.Machine.execLpoClkLoss s
  | .loadFw image readBackOk found => Sys2Proof.Machine.execLoadFw image readBackOk found s
  | .readLog => Sys2Proof.Machine.execReadLog s
  | .factoryDefaults readBackOk => Sys2Proof.Machine.execFactoryDefaults readBackOk s
  | .sanitize readBackOk => Sys2Proof.Machine.execSanitize readBackOk s
  | .reset found => Sys2Proof.Machine.execReset found s
  | .forceRecovery found => Sys2Proof.Machine.execForceRecovery found s
  | .recStatusRead => Sys2Proof.Machine.execRecStatusRead s
  | .sanitizeDone failed => Sys2Proof.Machine.execSanitizeDone failed s
  | .nvmeCreateIoSq c => Sys2Proof.Machine.execNvmeCreateIoSq c s
  | .nvmeCreateIoCq c => Sys2Proof.Machine.execNvmeCreateIoCq c s
  | .nvmeDeleteIoSq c => Sys2Proof.Machine.execNvmeDeleteIoSq c s
  | .nvmeDeleteIoCq c => Sys2Proof.Machine.execNvmeDeleteIoCq c s
  | .getLogPage c => Sys2Proof.Machine.execGetLogPage c s
  | .identify c => Sys2Proof.Machine.execIdentify c s
  | .abort c => Sys2Proof.Machine.execAbort c s
  | .setFeatures c => Sys2Proof.Machine.execSetFeatures c s
  | .getFeatures c => Sys2Proof.Machine.execGetFeatures c s
  | .asynchronousEventRequest c => Sys2Proof.Machine.execAsynchronousEventRequest c s
  | .deviceSelfTest c => Sys2Proof.Machine.execDeviceSelfTest c s
  | .selftestDone segment die => Sys2Proof.Machine.execSelftestDone segment die s
  | .nvmeSanitize c => Sys2Proof.Machine.execNvmeSanitize c s
  | .nvmeFlush c => Sys2Proof.Machine.execNvmeFlush c s
  | .nvmeWrite c => Sys2Proof.Machine.execNvmeWrite c s
  | .nvmeRead c => Sys2Proof.Machine.execNvmeRead c s
  | .writeZeroes c => Sys2Proof.Machine.execWriteZeroes c s
  | .datasetManagement c => Sys2Proof.Machine.execDatasetManagement c s
  | .nvmeInvalidOpcode c => Sys2Proof.Machine.execNvmeInvalidOpcode c s
  | .openExtentClose dataset => Sys2Proof.Machine.execOpenExtentClose dataset s
  | .apstTransition => Sys2Proof.Machine.execApstTransition s
  | .pf0Reset => Sys2Proof.Machine.execPf0Reset s
  | .setEndpointId p => Sys2Proof.Machine.execSetEndpointId p s
  | .getEndpointId p => Sys2Proof.Machine.execGetEndpointId p s
  | .getMctpVersionSupport p => Sys2Proof.Machine.execGetMctpVersionSupport p s
  | .getMessageTypeSupport p => Sys2Proof.Machine.execGetMessageTypeSupport p s
  | .getVendorDefinedMessageSupport p => Sys2Proof.Machine.execGetVendorDefinedMessageSupport p s
  | .vendorDefinedMessage p => Sys2Proof.Machine.execVendorDefinedMessage p s
  | .setdasa address => Sys2Proof.Machine.execSetdasa address s
  | .entdaa address => Sys2Proof.Machine.execEntdaa address s
  | .rstdaa => Sys2Proof.Machine.execRstdaa s
  | .bypass bits => Sys2Proof.Machine.execBypass bits s
  | .idcode bits => Sys2Proof.Machine.execIdcode bits s
  | .samplePreload bits => Sys2Proof.Machine.execSamplePreload bits s
  | .extest bits => Sys2Proof.Machine.execExtest bits s
  | .readShared region slot block => Sys2Proof.Machine.execReadShared region slot block s
  | .readOwn region slot block => Sys2Proof.Machine.execReadOwn region slot block s
  | .writeback region slot block => Sys2Proof.Machine.execWriteback region slot block s
  | .evictClean region slot block => Sys2Proof.Machine.execEvictClean region slot block s
  | .hubRead region slot => Sys2Proof.Machine.execHubRead region slot s
  | .hubWrite region slot mask data => Sys2Proof.Machine.execHubWrite region slot mask data s
  | .bufferAllocate region len tenant cls => Sys2Proof.Machine.execBufferAllocate region len tenant cls s
  | .share handle cls tenant => Sys2Proof.Machine.execShare handle cls tenant s
  | .drop handle cls tenant => Sys2Proof.Machine.execDrop handle cls tenant s
  | .move block m tenant mem => Sys2Proof.Machine.execMove block m tenant mem s
  | .compressorData ctx log cls tenant data => Sys2Proof.Machine.execCompressorData ctx log cls tenant data s
  | .compressorFlush ctx => Sys2Proof.Machine.execCompressorFlush ctx s
  | .compressorEnd ctx => Sys2Proof.Machine.execCompressorEnd ctx s
  | .maintenanceMoveDone what => Sys2Proof.Machine.execMaintenanceMoveDone what s
  | .blockStoreCe block => Sys2Proof.Machine.execBlockStoreCe block s
  | .gaugePageWrite tenant reservoir data => Sys2Proof.Machine.execGaugePageWrite tenant reservoir data s
  | .peerBufferRdmaRead peer link => Sys2Proof.Machine.execPeerBufferRdmaRead peer link s
  | .localAckTimeout qp => Sys2Proof.Machine.execLocalAckTimeout qp s
  | .replayExportDone w ticket => Sys2Proof.Machine.execReplayExportDone w ticket s
  | .replayLogDeleteDone w ticket => Sys2Proof.Machine.execReplayLogDeleteDone w ticket s
  | .unitUngated unit => Sys2Proof.Machine.execUnitUngated unit s
  | .standbyPowerLoss => Sys2Proof.Machine.execStandbyPowerLoss s
  | .ccEnSet => Sys2Proof.Machine.execCcEnSet s
  | .busMasterEnableChange fn enabled => Sys2Proof.Machine.execBusMasterEnableChange fn enabled s
  | .sriovVfEnable vf => Sys2Proof.Machine.execSriovVfEnable vf s
  | .opcodeUnknown w opcode r => Sys2Proof.Machine.execOpcodeUnknown w opcode r s
  | .badCode code => Sys2Proof.Machine.execBadCode code s

end Sys2Proof.Machine
end

