-- ==== Sys2Proof/Safety.lean ====
section
/-!
DEFINITION. Safety.lean: the terms in which statements about the block are made: what it is for a command to complete, which commands are doorbells,
which act while the device is stopped, and the invariant of the negotiated versions.
-/
namespace Sys2Proof

open Machine

/-- Command `i` in state `s` answers the next state in which the device is `f` of what it was, and nothing else has changed. -/
def Completes (i : Instr) (s : State) (f : Dev → Dev) : Prop := exec i s = .next { s with dev := f s.dev }

/-- The HCP versions that the device speaks (R156). -/
def hcpVersions : List Nat := [0x0100, 0x0101, 0x0102, 0x0200, 0x0201, 0x0202, 0x0300, 0x0301, 0x0302]

/-- The negotiated versions keep their form: each window at most once, in rising order; the windows are those of the tenants, the administrative
window 1,024 and the sideband 1,025; and every version is one that the device speaks (R134, R156, R157, R662). -/
def HdrOk (s : State) : Prop :=
  List.Pairwise (fun p q => p.1 < q.1) s.hdr ∧ ∀ p ∈ s.hdr, p.1 ≤ 1025 ∧ p.2 ∈ hcpVersions

/-- A doorbell of the mailbox: its command, its window and its request. The rows of Table 04-20, each with its opcode. -/
def doorbellOf : Instr → Option (Cmd × Window × Request)
  | .hello w r => some (cmdHello, w, r)
  | .setEventRing w r => some (cmdSetEventRing, w, r)
  | .ticketQuery w r => some (cmdTicketQuery, w, r)
  | .setParam w r => some (cmdSetParam, w, r)
  | .getParam w r => some (cmdGetParam, w, r)
  | .readCounters w r => some (cmdReadCounters, w, r)
  | .readTrouble w r => some (cmdReadTrouble, w, r)
  | .clearSticky w r => some (cmdClearSticky, w, r)
  | .unitMap w r => some (cmdUnitMap, w, r)
  | .tenantCreate w r => some (cmdTenantCreate, w, r)
  | .tenantDelete w r => some (cmdTenantDelete, w, r)
  | .functionDisable w r => some (cmdFunctionDisable, w, r)
  | .functionEnable w r => some (cmdFunctionEnable, w, r)
  | .gateListSet w r => some (cmdGateListSet, w, r)
  | .programLoad w r => some (cmdProgramLoad, w, r)
  | .programUnload w r => some (cmdProgramUnload, w, r)
  | .vocabLoad w r => some (cmdVocabLoad, w, r)
  | .screenTableLoad w r => some (cmdScreenTableLoad, w, r)
  | .screenTableUpdate w r => some (cmdScreenTableUpdate, w, r)
  | .streamCreate w r => some (cmdStreamCreate, w, r)
  | .streamDelete w r => some (cmdStreamDelete, w, r)
  | .epochStart w r => some (cmdEpochStart, w, r)
  | .streamPause w r => some (cmdStreamPause, w, r)
  | .streamResume w r => some (cmdStreamResume, w, r)
  | .modeSet w r => some (cmdModeSet, w, r)
  | .contextRead w r => some (cmdContextRead, w, r)
  | .consumerAttach w r => some (cmdConsumerAttach, w, r)
  | .consumerDetach w r => some (cmdConsumerDetach, w, r)
  | .reservoirBind w r => some (cmdReservoirBind, w, r)
  | .peerAdd w r => some (cmdPeerAdd, w, r)
  | .ingestOpen w r => some (cmdIngestOpen, w, r)
  | .ingestClose w r => some (cmdIngestClose, w, r)
  | .datasetCreate w r => some (cmdDatasetCreate, w, r)
  | .datasetAppend w r => some (cmdDatasetAppend, w, r)
  | .datasetSeal w r => some (cmdDatasetSeal, w, r)
  | .datasetDiscard w r => some (cmdDatasetDiscard, w, r)
  | .placementSet w r => some (cmdPlacementSet, w, r)
  | .datasetKeySet w r => some (cmdDatasetKeySet, w, r)
  | .barrierJoin w r => some (cmdBarrierJoin, w, r)
  | .tickEpochSet w r => some (cmdTickEpochSet, w, r)
  | .replayRecord w r => some (cmdReplayRecord, w, r)
  | .replayRun w r => some (cmdReplayRun, w, r)
  | .digestRead w r => some (cmdDigestRead, w, r)
  | .tongsAudit w r => some (cmdTongsAudit, w, r)
  | .tongsBufferState w r => some (cmdTongsBufferState, w, r)
  | .configRead w r => some (cmdConfigRead, w, r)
  | .configWrite w r => some (cmdConfigWrite, w, r)
  | .topologyAck w r => some (cmdTopologyAck, w, r)
  | .fwStage w r => some (cmdFwStage, w, r)
  | .fwActivate w r => some (cmdFwActivate, w, r)
  | .holdupMeasure w r => some (cmdHoldupMeasure, w, r)
  | .powerStateSet w r => some (cmdPowerStateSet, w, r)
  | _ => none

/-- The device as it takes a doorbell up: the request area written, the window BUSY with its TAG, the response discarded (R136). -/
def Machine.Dev.taken (d : Dev) (c : Cmd) (w : Window) (r : Request) : Dev := ((d.writeRequest w.num c.opcode r).latch w.num r.tag).wakeUp

/-- Commands that act while the device is held in reset, its clocks are stopped or the hold-up flush runs: what ends that state, the faults and
resets that may strike in it, and JTAG, which needs no clock of the device. -/
def actsWhenStopped : Instr → Bool
  | .powerOn _ | .resetLAssert _ | .pfailLFall | .pfailLRise | .holdupFlushDone _ | .railFault _ | .quenchTrip _ _ | .standbyPowerLoss
  | .bypass _ | .idcode _ | .samplePreload _ | .extest _ => true
  | _ => false

/-- PF0 takes up an admin command: the device runs, CSTS.RDY is 1, and the command stands in the admin queue (R640, R674). -/
def ServesAdmin (s : State) (c : NvmeRequest) : Prop := s.dev.stopped = false ∧ s.dev.nvmeReady = true ∧ c.sq = 0

/-- PF0 takes up an I/O command: the device runs, CSTS.RDY is 1, the command's queue exists, and no sanitize runs (R639, R657, R674). -/
def ServesIo (s : State) (c : NvmeRequest) : Prop :=
  s.dev.stopped = false ∧ s.dev.nvmeReady = true ∧ AMap.has s.dev.nvme.sqs c.sq = true ∧ s.dev.nvme.sanitize = none

/-- `i` answers a state in which a completion of PF0 is the last output; nothing is left in the queue that was not there, no version changes. -/
def NvmeAnswers (i : Instr) (s : State) (c : NvmeRequest) (sct sc result : Nat) (p : Dev → Prop) : Prop :=
  ∃ t, exec i s = .next t ∧ t.pending = s.pending ∧ t.hdr = s.hdr ∧ t.dev.out.head? = some (.nvmeCompletion c.sq c.cid sct sc result) ∧ p t.dev

end Sys2Proof
end

