-- ==== Sys2Proof/Certificates/Slice0/Obligations.lean ====
section
/-!
DEFINITION. Certificates/Slice0/Obligations.lean: the statements for the provers, chapter by chapter of the spec.
Each names in its docstring the rules that it follows; one that rests on a choice of the model names the log entry.
-/

open Sys2Proof Sys2Proof.Machine

/-! ### The block as a whole -/

/-- A step takes the command at the front of the queue and is `exec` of it on the state with the rest of the queue; on an empty queue the block idles
(the model's queue: log entry 2). -/
def Obligations.StepTakesTheFrontCommand : Prop :=
  (∀ (c : Instr) (rest : List Instr) (s : State), s.pending = c :: rest → step s = exec c { s with pending := rest }) ∧
  (∀ s : State, s.pending = [] → step s = .next s)

/-- Every command, in every state, answers a next state and leaves the queue alone: no request and no event ends the run. -/
def Obligations.EveryCommandCompletes : Prop :=
  ∀ (c : Instr) (s : State), ∃ t, exec c s = .next t ∧ t.pending = s.pending

/-- Every step keeps the negotiated versions well formed: each window at most once, no number beyond the sideband's, and only the versions of R156. -/
def Obligations.NegotiatedVersionsAreSpoken : Prop :=
  ∀ s t : State, HdrOk s → step s = .next t → HdrOk t

/-- The state after reset: the queue is empty and no window has negotiated; DEVICE_STATE is BOOT, the tick count is 0, every counter and every trouble
word reads 0, no tenant, stream, program, table or vocabulary exists, and every window reads as in Tables 04-7 to 04-12. The block in reset is the
model's starting point (log entry 3). -/
def Obligations.ResetState : Prop :=
  State.reset.pending = [] ∧ HdrOk State.reset ∧ (∀ w, State.reset.version w = 0) ∧
  State.reset.dev.hearth.state = .boot ∧ State.reset.dev.tick.count = 0 ∧
  (∀ id i, State.reset.dev.counter id i = 0) ∧ (∀ w, State.reset.dev.win w = Win.init) ∧
  State.reset.dev.troubleSummary = 0 ∧ State.reset.dev.streams = [] ∧ State.reset.dev.tenants = [] ∧ State.reset.dev.progs = [] ∧
  State.reset.dev.vocabs = [] ∧ State.reset.dev.screen.tables = []

/-- While the device is held in reset, its clocks are stopped or its hold-up flush runs, no command changes anything but those that end that state or
need no clock. -/
def Obligations.StoppedDeviceDoesNothing : Prop :=
  ∀ (c : Instr) (s : State), s.dev.stopped = true → actsWhenStopped c = false → exec c s = .next s

/-! ### Doorbells -/

/-- R137: a doorbell that reaches a BUSY window is discarded, and DOORBELL_IGNORED is set; nothing else changes. -/
def Obligations.BusyDoorbellIgnored : Prop :=
  ∀ (i : Instr) (c : Cmd) (w : Window) (r : Request) (s : State), doorbellOf i = some (c, w, r) → s.dev.stopped = false →
    (s.dev.win w.num).state = .busy →
    ∃ t, exec i s = .next t ∧ t.pending = s.pending ∧ t.hdr = s.hdr ∧
      t.dev.hearth.wins = AMap.set s.dev.hearth.wins w.num { s.dev.win w.num with ignored := true } ∧
      t.dev = { s.dev with hearth := { s.dev.hearth with wins := t.dev.hearth.wins } }

/-- In BOOT and RECOVERY every doorbell is discarded and DOORBELL_IGNORED is set; the request area has taken what the host wrote into it. -/
def Obligations.BootDoorbellIgnored : Prop :=
  ∀ (i : Instr) (c : Cmd) (w : Window) (r : Request) (s : State), doorbellOf i = some (c, w, r) → s.dev.stopped = false →
    (s.dev.hearth.state = .boot ∨ s.dev.hearth.state = .recovery) →
    ∃ t, exec i s = .next t ∧ t.pending = s.pending ∧ t.hdr = s.hdr ∧
      t.dev = (s.dev.writeRequest w.num c.opcode r).modWin w.num (fun y => { y with ignored := true })

/-- A doorbell whose request no check refuses: the command's own effect, its response with ACCEPTED and the window's next ticket where it takes one
and with the command's status where it completes at once, and the window DONE with DONE_PENDING. -/
def Obligations.AcceptedDoorbellCompletes : Prop :=
  ∀ (i : Instr) (c : Cmd) (w : Window) (r : Request) (s : State), doorbellOf i = some (c, w, r) → s.dev.stopped = false →
    (s.dev.win w.num).state ≠ .busy → s.dev.hearth.state ≠ .boot → s.dev.hearth.state ≠ .recovery →
    c.refusal (s.dev.taken c w r) { w := w.num, v := s.version w.num, r := r } = none →
    ∃ t a, exec i s = .next t ∧ t.pending = s.pending ∧ (t.dev.win w.num).state = .done ∧ (t.dev.win w.num).donePending = true ∧
      (c.ticketed = true →
        let n := (s.dev.win w.num).nextTicket
        let x : Ctx := { w := w.num, v := s.version w.num, r := r }
        a = c.run ((s.dev.taken c w r).issueTicket w.num c.opcode (c.check (s.dev.taken c w r) x).subject r).1 x n ∧
        t.dev = a.dev.respond w.num Status.accepted n a.payload ∧
        (t.dev.win w.num).resp = respBytes Status.accepted n a.dev.tick.count a.payload) ∧
      (c.ticketed = false →
        a = c.run (s.dev.taken c w r) { w := w.num, v := s.version w.num, r := r } 0 ∧
        t.dev = a.dev.respond w.num a.status 0 a.payload ∧
        (t.dev.win w.num).resp = respBytes a.status 0 a.dev.tick.count a.payload)

/-- A refused request: the window's response carries the status of the first check that failed and no ticket, COMMANDS_REFUSED of the window rises by
one, every other window stands, and nothing else in the device changes but that a device in Slumber is woken (R621). -/
def Obligations.RefusedDoorbellChangesOnlyItsResponse : Prop :=
  ∀ (i : Instr) (c : Cmd) (w : Window) (r : Request) (s : State) (st : Status), doorbellOf i = some (c, w, r) → s.dev.stopped = false →
    (s.dev.win w.num).state ≠ .busy → s.dev.hearth.state ≠ .boot → s.dev.hearth.state ≠ .recovery →
    c.refusal (s.dev.taken c w r) { w := w.num, v := s.version w.num, r := r } = some st →
    ∃ t, exec i s = .next t ∧ t.pending = s.pending ∧
      (t.dev.win w.num).state = .done ∧ (t.dev.win w.num).resp = respBytes st 0 s.dev.tick.count [] ∧
      (t.dev.win w.num).tickets = (s.dev.win w.num).tickets ∧
      (∀ j, j ≠ w.num → t.dev.win j = s.dev.win j) ∧
      t.dev.hearth.counters = AMap.set s.dev.hearth.counters (objKey Counter.commandsRefused w.num)
        (min counterMax (s.dev.counter Counter.commandsRefused w.num + 1)) ∧
      t.dev = { s.dev.wakeUp with hearth := { s.dev.hearth with wins := t.dev.hearth.wins, counters := t.dev.hearth.counters }, out := t.dev.out }

/-- An opcode that the window's version does not define is refused with OPCODE_UNKNOWN, and COMMANDS_REFUSED of the window rises by one. -/
def Obligations.UnknownOpcodeRefused : Prop :=
  ∀ (w : Window) (opcode : Nat) (r : Request) (s : State), s.dev.stopped = false →
    (s.dev.win w.num).state ≠ .busy → s.dev.hearth.state ≠ .boot → s.dev.hearth.state ≠ .recovery →
    s.dev.windowEnabled w.num = true → HdrOk s → s.version w.num ≠ 0 → opcodeDefined opcode (s.version w.num) = false →
    ∃ t, exec (.opcodeUnknown w opcode r) s = .next t ∧ t.pending = s.pending ∧ t.hdr = s.hdr ∧
      (t.dev.win w.num).state = .done ∧ (t.dev.win w.num).resp = respBytes Status.opcodeUnknown 0 s.dev.tick.count [] ∧
      t.dev.counter Counter.commandsRefused w.num = min counterMax (s.dev.counter Counter.commandsRefused w.num + 1)

/-! ### The Hearth's own commands, its registers, events and tickets -/

/-- HELLO in a window with no ticket outstanding negotiates the highest version of R156 that lies between MIN_VERSION and MAX_VERSION, and leaves the
versions of the other windows alone; where none lies there, it completes with VERSION_UNSUPPORTED and the window's negotiated version stands. -/
def Obligations.HelloNegotiatesTheHighestVersion : Prop :=
  ∀ (w : Window) (r : Request) (s : State), s.dev.stopped = false → (s.dev.win w.num).state ≠ .busy → s.dev.hearth.state = .ready →
    s.dev.nvme.sanitize = none → s.dev.windowEnabled w.num = true → (s.dev.win w.num).tickets = [] →
    r.len = 16 → r.sglCount = 0 → r.hdrRsv = 0 → r.sglAddr = 0 → allZero (bytesAt r.payload 8 8) = true → leAt r.payload 0 2 ≤ leAt r.payload 2 2 →
    (∀ v ∈ hcpVersions, leAt r.payload 0 2 ≤ v → v ≤ leAt r.payload 2 2 →
      (∀ u ∈ hcpVersions, leAt r.payload 0 2 ≤ u → u ≤ leAt r.payload 2 2 → u ≤ v) →
      ∃ t, exec (.hello w r) s = .next t ∧ t.pending = s.pending ∧ t.hdr = AMap.set s.hdr w.num v ∧ t.version w.num = v ∧
        (∀ j, j ≠ w.num → t.version j = s.version j) ∧
        (t.dev.win w.num).resp = respBytes Status.success 0 s.dev.tick.count (s.dev.helloPayload w.num v)) ∧
    ((∀ u ∈ hcpVersions, ¬ (leAt r.payload 0 2 ≤ u ∧ u ≤ leAt r.payload 2 2)) →
      ∃ t, exec (.hello w r) s = .next t ∧ t.pending = s.pending ∧ t.hdr = s.hdr ∧
        (t.dev.win w.num).resp = respBytes Status.versionUnsupported 0 s.dev.tick.count (s.dev.helloPayload w.num 0))

/-- R153: an entry is written at TAIL of the ring, in two writes of which the last carries PHASE; then TAIL advances by 1 modulo 4,096, and PHASE is
inverted each time TAIL returns to 0. HEAD, the ring and every other window stand, and nothing else in the device changes but the window's
EVENT_PENDING. With 4,095 entries unconsumed, no staged event is written. -/
def Obligations.RingEntryAdvancesTail : Prop :=
  ∀ (d : Dev) (w base : Nat) (e : Event),
    let x := d.win w
    let t := d.writeEntry w base e
    (t.win w).tail = (x.tail + 1) % 4096 ∧ (t.win w).phase = (if (x.tail + 1) % 4096 = 0 then !x.phase else x.phase) ∧
    (t.win w).head = x.head ∧ (t.win w).ring = x.ring ∧ (t.win w).eventPending = true ∧ (t.win w).tickets = x.tickets ∧
    (∀ j, j ≠ w → t.win j = d.win j) ∧
    .hostWrite (fnOf w) (base + 64 * x.tail) e.bytes ∈ t.out ∧ .hostWrite (fnOf w) (base + 64 * x.tail + 63) [byteOf (bitNat x.phase)] ∈ t.out ∧
    t = { d with hearth := { d.hearth with wins := t.hearth.wins }, out := t.out } ∧
    (4095 ≤ (x.tail + 4096 - x.head) % 4096 → d.flushStaged w = d)

/-- Raising an event never loses a ticket, never changes a parameter, a counter other than EVENTS_DROPPED, or anything outside the windows: what it
changes are the windows, the counters and the outputs; and the tickets of every window stand. -/
def Obligations.EventsChangeOnlyWindows : Prop :=
  ∀ (d : Dev) (w : Nat) (e : Event),
    let t := d.post w e
    t = { d with hearth := { d.hearth with wins := t.hearth.wins, counters := t.hearth.counters }, out := t.out } ∧
    (∀ j, (t.win j).tickets = (d.win j).tickets) ∧
    (∀ k, k ≠ objKey Counter.eventsDropped w → AMap.getD t.hearth.counters k 0 = AMap.getD d.hearth.counters k 0)

/-- R149: each ticket completes exactly once. After its completion the ticket is outstanding no more and every other ticket of the window and of the
other windows stands; a completion of a ticket that is not outstanding changes nothing; and a completion changes nothing outside the windows, the
counters and the outputs. -/
def Obligations.TicketsCompleteOnce : Prop :=
  ∀ (d : Dev) (w n status len : Nat),
    let t := d.completeTicket w n status len
    t.ticket? w n = none ∧
    (∀ m, m ≠ n → t.ticket? w m = d.ticket? w m) ∧ (∀ j m, j ≠ w → t.ticket? j m = d.ticket? j m) ∧
    (d.ticket? w n = none → t = d) ∧
    t = { d with hearth := { d.hearth with wins := t.hearth.wins, counters := t.hearth.counters }, out := t.out }

/-- A counter saturates at 2⁶⁴ − 1 and counting changes no other counter and nothing else in the device. -/
def Obligations.CountersSaturate : Prop :=
  ∀ (d : Dev) (id i n : Nat), id < 2 ^ 32 → i < 2 ^ 32 →
    (d.counter id i ≤ 2 ^ 64 - 1 → (d.count id i n).counter id i = min (2 ^ 64 - 1) (d.counter id i + n)) ∧
    (∀ id' i', i' < 2 ^ 32 → (id', i') ≠ (id, i) → (d.count id i n).counter id' i' = d.counter id' i') ∧
    d.count id i n = { d with hearth := { d.hearth with counters := (d.count id i n).hearth.counters } }

/-- The register accesses that are commands of their own: MBX_IRQ clears the pending bits written 1 and takes the enables; EVT_HEAD takes its 12 bits;
TICK_COUNT_LO returns the low half of the count and latches the high half; and a write to the request area of a window that is not BUSY lands there. -/
def Obligations.RegisterAccesses : Prop :=
  (∀ (w : Window) (v : Nat) (s : State), s.dev.stopped = false →
    ∃ t, exec (.mbxIrqWrite w v) s = .next t ∧ t.pending = s.pending ∧ t.hdr = s.hdr ∧
      t.dev.win w.num = { s.dev.win w.num with
        eventPending := (s.dev.win w.num).eventPending && !bitOf v 9
        donePending := (s.dev.win w.num).donePending && !bitOf v 8
        eventEn := bitOf v 1
        doneEn := bitOf v 0 } ∧
      (∀ j, j ≠ w.num → t.dev.win j = s.dev.win j) ∧
      t.dev = { s.dev with hearth := { s.dev.hearth with wins := t.dev.hearth.wins }, out := t.dev.out }) ∧
  (∀ (w : Window) (v : Nat) (s : State), s.dev.stopped = false →
    ∃ t, exec (.evtHeadWrite w v) s = .next t ∧ t.pending = s.pending ∧ t.hdr = s.hdr ∧ (t.dev.win w.num).head = v % 4096 ∧
      (∀ j, (t.dev.win j).tickets = (s.dev.win j).tickets) ∧
      t.dev = { s.dev with hearth := { s.dev.hearth with wins := t.dev.hearth.wins, counters := t.dev.hearth.counters }, out := t.dev.out }) ∧
  (∀ s : State, s.dev.stopped = false →
    Completes .tickCountLoRead s (fun d => ({ d with tick := { d.tick with hiLatch := some (d.tick.count / 2 ^ 32) } }).emit (.readData (leBytes 4 d.tick.count)))) ∧
  (∀ (w : Window) (k v : Nat) (s : State), s.dev.stopped = false → (s.dev.win w.num).state ≠ .busy → 16 ≤ k → k < 512 →
    Completes (.registerWrite (.window w) (4 * k) 32 v) s (fun d =>
      d.setWin w.num { d.win w.num with reqArea := Mem.writeAll 0 (d.win w.num).reqArea (4 * k) (leBytes 4 v) }))

/-- Commands that take a ticket complete it at their event, with the effect the rules give: the unit map and the configuration written to the scatter
list, the firmware image staged, a program or a vocabulary removed, a replay log deleted or exported, a barrier join done or timed out, an attach
timed out, a leak audit reported. -/
def Obligations.TicketedCommandsFinish : Prop :=
  (∀ (w : Window) (n : Nat) (k : Ticket) (s : State), s.dev.stopped = false → s.dev.ticketOf w.num n 0x0106 = some k →
    Completes (.unitMapDone w n) s (fun d => d.completeWith w.num n (d.unitMap (leAt k.req 0 1) (leAt k.req 1 1)))) ∧
  (∀ (w : Window) (n : Nat) (k : Ticket) (s : State), s.dev.stopped = false → s.dev.ticketOf w.num n 0x0901 = some k →
    Completes (.configReadDone w n) s (fun d => d.completeWith w.num n d.cfgImage)) ∧
  (∀ (w : Window) (n : Nat) (k : Ticket) (s : State), s.dev.stopped = false → s.dev.ticketOf w.num n 0x0904 = some k →
    Completes (.fwStageDone w n true) s (fun d =>
      let b := padTo k.data (leAt k.req 0 8)
      let e := d.norProgram (slotBase (1 - d.boot.slot)) slotSize b
      if d.imageStatus b = Status.success then
        ({ e with boot := { e.boot with staged := some (1 - d.boot.slot, imageVersion b, imageSvn b) } }).completeTicket w.num n Status.success 0
      else d.completeTicket w.num n (d.imageStatus b) 0)) ∧
  (∀ (w : Window) (n slot : Nat) (p : Prog) (s : State), s.dev.stopped = false → s.dev.progOf w.num n = some (slot, p) → p.state = .unloading →
    Completes (.programUnloadDone w n) s (fun d => Dev.completeTicket { d.freePages PageKind.program slot with progs := AMap.del d.progs slot } w.num n Status.success 0)) ∧
  (∀ (w : Window) (n slot : Nat) (v : Vocab) (s : State), s.dev.stopped = false →
    s.dev.vocabOf w.num n = some (slot, v) →
    v.load = some (w.num, n, none) →
    Completes (.vocabLoadDone w n) s (fun d =>
      Dev.completeTicket { d.freePages PageKind.vocab (vocabOwner slot false) with vocabs := AMap.del d.vocabs slot } w.num n Status.success 0)) ∧
  (∀ (w : Window) (n id : Nat) (l : Log) (s : State), s.dev.stopped = false → s.dev.group.logs.find? (fun p => p.2.delete == some (w.num, n)) = some (id, l) →
    Completes (.replayLogDeleteDone w n) s (fun d =>
      Dev.completeTicket { d with group := { d.group with logs := AMap.del d.group.logs id } } w.num n Status.success 0)) ∧
  (∀ (w : Window) (n id : Nat) (l : Log) (s : State), s.dev.stopped = false → s.dev.group.logs.find? (fun p => p.2.export_ == some (w.num, n)) = some (id, l) →
    Completes (.replayExportDone w n) s (fun d => (d.modLog id (fun l => { l with export_ := none })).completeWith w.num n l.ctx.out)) ∧
  (∀ (w n : Nat) (m : Membership) (s : State), s.dev.stopped = false → s.dev.group.joining = some (w, n, m) →
    (if m.role = 0 then s.dev.group.ptpLocked = true else s.dev.group.aligned = true ∧ s.dev.tick.resync = false) →
    Completes .barrierJoinDone s (fun d => Dev.completeTicket { d with group := { d.group with joining := none, member := some m } } w n Status.success 0)) ∧
  (∀ (w n : Nat) (m : Membership) (s : State), s.dev.stopped = false → s.dev.group.joining = some (w, n, m) →
    Completes .syncTimeout s (fun d => d.leaveGroup.completeTicket w n Status.syncTimeout 0)) ∧
  (∀ (t n : Nat) (w k : Nat) (r : Reservoir) (s : State), s.dev.stopped = false → s.dev.res? (resKey t n) = some r → r.state = .attaching → r.attach = some (w, k) →
    Completes (.attachTimeout t n) s (fun d =>
      Dev.completeTicket { d with haul := { d.haul with reservoirs := AMap.del d.haul.reservoirs (resKey t n) } } w k Status.attachTimeout 0)) ∧
  (∀ (w : Window) (n : Nat) (a : Audit) (s : State), s.dev.stopped = false →
    s.dev.tongs.audits.find? (fun a => a.ticket == some (w.num, n) && a.snapTick.isSome) = some a →
    Completes (.tongsAuditDone (.command w n)) s (fun d =>
      Dev.completeWith { d with tongs := { d.tongs with audits := d.tongs.audits.filter (fun b => b.ticket != some (w.num, n)) } } w.num n a.result))

/-! ### Parameters and trouble words -/

/-- R164's clamp: of the values of the form minimum + k × step that lie in the range, the one nearest to the value given, the lower of two that are
equally near. -/
def Obligations.ClampTakesTheNearestLegalValue : Prop :=
  ∀ v lo hi step : Nat, lo ≤ hi → 0 < step → (hi - lo) % step = 0 →
    let c := clampParam v lo hi step
    lo ≤ c ∧ c ≤ hi ∧ (c - lo) % step = 0 ∧
    ∀ u, lo ≤ u → u ≤ hi → (u - lo) % step = 0 →
      (v - c) + (c - v) ≤ (v - u) + (u - v) ∧ ((v - c) + (c - v) = (v - u) + (u - v) → c ≤ u)

/-- Setting bits of a trouble word: those bits read 1 afterwards and every other bit of that word stands, no other word changes, and the bits that
read 0 before, and only those, are noted for the TROUBLE event of the tick. -/
def Obligations.TroubleBitsStick : Prop :=
  ∀ (d : Dev) (w : TroubleWord) (i m : Nat), m < 2 ^ 32 →
    let t := d.trouble w i m
    (∀ b, (t.sticky w i).testBit b = ((d.sticky w i).testBit b || m.testBit b)) ∧
    (∀ j, j ≠ i → (w = .cell ∨ w = .block) → t.sticky w j = d.sticky w j) ∧
    (∀ w' j, w' ≠ w → t.sticky w' j = d.sticky w' j) ∧
    (t.units.fresh = d.units.fresh ∨ ∃ n, t.units.fresh = d.units.fresh ++ [(w, i, n)] ∧
      ∀ b, n.testBit b = (m.testBit b && !(d.sticky w i).testBit b)) ∧
    t = { d with units := { d.units with cellT := t.units.cellT, blockT := t.units.blockT, regionT := t.units.regionT, chipT := t.units.chipT, fresh := t.units.fresh } }

/-- R85: clearing named bits of a word leaves each bit that is not named, and each that is no sticky bit, as it was; it clears the others, answers
those that read 1, and changes only the record: no unit's state changes. -/
def Obligations.ClearingBitsChangesOnlyTheRecord : Prop :=
  ∀ (d : Dev) (w : TroubleWord) (i m : Nat),
    let t := (d.clearBits w i m).1
    (∀ b, (t.sticky w i).testBit b = ((d.sticky w i).testBit b && !(m.testBit b && (stickyMask w).testBit b))) ∧
    (∀ b, (d.clearBits w i m).2.testBit b = ((d.sticky w i).testBit b && (m.testBit b && (stickyMask w).testBit b))) ∧
    (∀ w' j, w' ≠ w → t.sticky w' j = d.sticky w' j) ∧
    t = { d with units := { d.units with cellT := t.units.cellT, blockT := t.units.blockT, regionT := t.units.regionT, chipT := t.units.chipT } }

/-! ### Cells, blocks, regions and the chip -/

/-- R57, R62: a corrected error of a cell store in service is counted and noted; with the 256th within 64 ticks CE_STORM is set and the cell
quarantined. -/
def Obligations.CellStoreErrors : Prop :=
  (∀ (cell : CellRef) (c at_ : Nat) (s : State), s.dev.stopped = false → s.dev.cellOf cell = some c → s.dev.unitIn .cell c = true →
    ((s.dev.unit .cell c).ceTicks.filter (fun t => decide (s.dev.tick.count < t + 64))).length < 255 →
    Completes (.cellStoreCe cell at_) s (fun d =>
      ((d.count Counter.cellCe (c / 16) 1).cellTrouble (c / 16) CellBit.storeCe).modUnit .cell c (fun x => { x with
        ceTicks := d.tick.count :: x.ceTicks.filter (fun t => decide (d.tick.count < t + 64)) }))) ∧
  (∀ (cell : CellRef) (c at_ : Nat) (s : State), s.dev.stopped = false → s.dev.cellOf cell = some c → s.dev.unitIn .cell c = true →
    255 ≤ ((s.dev.unit .cell c).ceTicks.filter (fun t => decide (s.dev.tick.count < t + 64))).length → s.dev.hearth.halting = false → s.dev.tick.items = [] →
    (s.dev.block (c / 16)).lastQuar = none → 13 ≤ (s.dev.cellsIn (c / 16)).length →
    ∃ t, exec (.cellStoreCe cell at_) s = .next t ∧ t.pending = s.pending ∧ t.hdr = s.hdr ∧
      (t.dev.unit .cell c).service = .quarantined ∧ (t.dev.block (c / 16)).lastQuar = some s.dev.tick.count ∧
      (t.dev.sticky .cell (c / 16)).testBit (c % 16) = true ∧ (t.dev.sticky .cell (c / 16)).testBit CellBit.ceStorm = true ∧
      t.dev.counter Counter.cellQuarantine (c / 16) = min counterMax (s.dev.counter Counter.cellQuarantine (c / 16) + 1) ∧
      (∀ k, k ≠ unitKey .cell c → AMap.get? t.dev.units.recs k = AMap.get? s.dev.units.recs k)) ∧
  (∀ (block : BlockRef) (g : Nat) (s : State), s.dev.stopped = false → s.dev.blockOf block = some g → s.dev.blockIn g = true →
    Completes (.blockStoreCe block) s (fun d => d.blockTrouble (d.regionOfBlock g) BlockBit.storeCe)) ∧
  (∀ (block : BlockRef) (g sid pos op at_ : Nat) (s : State), s.dev.stopped = false → s.dev.blockOf block = some g → s.dev.blockIn g = true →
    (s.dev.itemsOn g).find? (fun i => i.job == .sample sid pos op && i.phase == .running) = none →
    Completes (.blockStoreUe block (.data sid pos op) at_) s (fun d => d.blockTrouble (d.regionOfBlock g) BlockBit.storeUe))

/-- R59, R67, R76: the first failure of the op that runs on a cell, lane, Swage, Screen or Wedge unit marks its item to be retried on the same unit;
of a cell it also sets RESIDUE or STORE_UE. Nothing else changes. -/
def Obligations.FirstFailureRetriesInPlace : Prop :=
  (∀ (cell : CellRef) (c at_ : Nat) (residue : Bool) (i : Item) (s : State), s.dev.stopped = false → s.dev.cellOf cell = some c → s.dev.unitIn .cell c = true →
    s.dev.tick.items.filter (fun i => i.phase == .running && i.cls == 2 && i.out.isNone && i.units.contains c) = [i] → i.retry = false →
    ((s.dev.kindRec i.kind).map OpRec.isAnvil).getD false = false →
    Completes (.cellOpFailure cell residue at_) s (fun d =>
      ((d.cellTrouble (c / 16) (if residue then CellBit.residue else CellBit.storeUe)).modItem i.id (fun x => { x with retry := true })).startItems at_)) ∧
  (∀ (block : BlockRef) (lane : Fin 4) (g at_ : Nat) (i : Item) (s : State), s.dev.stopped = false → s.dev.blockOf block = some g → s.dev.unitIn .lane (g * 4 + lane.val) = true →
    s.dev.runningOn .lane (g * 4 + lane.val) = [i] → i.retry = false →
    Completes (.laneFault block lane at_) s (fun d => d.modItem i.id (fun x => { x with retry := true }))) ∧
  (∀ (block : BlockRef) (g at_ : Nat) (i : Item) (s : State), s.dev.stopped = false → s.dev.blockOf block = some g → s.dev.unitIn .swage g = true →
    s.dev.runningOn .swage g = [i] → i.retry = false →
    Completes (.swageFault block at_) s (fun d => d.modItem i.id (fun x => { x with retry := true }))) ∧
  (∀ (block : BlockRef) (g at_ : Nat) (i : Item) (s : State), s.dev.stopped = false → s.dev.blockOf block = some g → s.dev.unitIn .screen g = true →
    s.dev.runningOn .screen g = [i] → i.retry = false →
    Completes (.screenFault block at_) s (fun d => d.modItem i.id (fun x => { x with retry := true }))) ∧
  (∀ (region unit : Fin 8) (at_ : Nat) (i : Item) (s : State), s.dev.stopped = false → s.dev.unitIn .wedge (region.val * 8 + unit.val) = true →
    s.dev.runningOn .wedge (region.val * 8 + unit.val) = [i] → i.retry = false →
    Completes (.wedgeFault region unit at_) s (fun d => d.modItem i.id (fun x => { x with retry := true })))

/-- R75, R77, R111: a ring or directory fault of a region in service sets its bit and RESET, counts REGION_RESET, suspends the region's work and makes
its context lines uncached; the region resumes at the boundary after the reset completes. R112: when one context is homed in a region fenced with its
stack readable, it is written to the slot chosen in a region in service, and its stream returns to the state that it held; a region not fenced, with
its stack lost, or with no context homed in it changes nothing. -/
def Obligations.RegionResetsAndRehoming : Prop :=
  (∀ (r : Fin 8) (s : State), s.dev.stopped = false → s.dev.hearth.halting = false → s.dev.regionIn r.val = true → (s.dev.region r.val).resetting = false →
    (s.dev.region r.val).lastResetDone = none →
    let after : Nat → Dev → Dev := fun bit d =>
      let d := (((d.regionTrouble r.val bit).modRegion r.val (fun x => { x with resetting := true, resumeAtBoundary := false })).regionTrouble r.val RegionBit.reset).count
        Counter.regionReset r.val 1
      let d := d.suspendRegion r.val
      { d with tongs := { d.tongs with lines := d.tongs.lines.filter (fun l => l.1 / contextSlots != r.val) } }
    Completes (.ringFault r []) s (after RegionBit.ringFault) ∧ Completes (.dirFault r []) s (after RegionBit.dirFault)) ∧
  (∀ (r : Fin 8) (s : State), s.dev.stopped = false → (s.dev.region r.val).resetting = true →
    Completes (.regionResetDone r) s (fun d =>
      d.modRegion r.val (fun x => { x with resetting := false, resumeAtBoundary := true, lastResetDone := some d.tick.count }))) ∧
  (∀ (r : Fin 8) (s : State), s.dev.stopped = false → s.dev.regionIn r.val = true → Completes (.hbmCe r) s (fun d => d.count Counter.hbmCe r.val 1)) ∧
  (∀ (r : Fin 8) (s : State), s.dev.stopped = false → s.dev.regionIn r.val = true →
    Completes (.hbmUe r .extentMap) s (fun d => (d.regionTrouble r.val RegionBit.hbmUe).count Counter.hbmUeCount r.val 1)) ∧
  (∀ (r : Fin 8) (sid q k : Nat) (st : Stream) (s : State), s.dev.stopped = false →
    (s.dev.region r.val).fenced = true → (s.dev.region r.val).hbmLost = false → s.dev.homedIn r.val = [(sid, st)] → s.dev.chooseHome = some (q, k) →
    Completes (.rehomeDone r) s (fun d =>
      ((d.modStream sid (fun x => { x with home := q, homeSlot := k, state := x.standing })).writeStream sid id).count Counter.ctxRehome 0 1)) ∧
  (∀ (r : Fin 8) (s : State), s.dev.stopped = false →
    ((s.dev.region r.val).fenced = false ∨ (s.dev.region r.val).hbmLost = true ∨ s.dev.homedIn r.val = []) →
    exec (.rehomeDone r) s = .next s)

/-- R78, R79: a region whose controller fails, or whose reset takes longer than 50 ms, is fenced: on a device without work or tenants, its record, its
bits, REGION_FENCE and the REGION_FENCED event to the administrative window are all that changes but for its context lines and the allocations that
wait there; the seven others stay in service. -/
def Obligations.RegionFences : Prop :=
  ∀ (r : Fin 8) (lost : Bool) (s : State), s.dev.stopped = false → s.dev.hearth.halting = false → (∀ q, q < 8 → s.dev.regionIn q = true) →
    s.dev.tick.items = [] → s.dev.streams = [] → s.dev.tenants = [] → s.dev.progs = [] → s.dev.vocabs = [] → s.dev.screen.tables = [] →
    s.dev.face.extents = [] → s.dev.face.granules = [] → (lost = false → (s.dev.region r.val).resetting = true) →
    ∃ t, exec (if lost then .hbmControllerFailure r else .regionResetTimeout r) s = .next t ∧ t.pending = s.pending ∧ t.hdr = s.hdr ∧
      (t.dev.region r.val).fenced = true ∧ (t.dev.region r.val).hbmLost = lost ∧ (t.dev.region r.val).resetting = false ∧
      (∀ q, q ≠ r.val → t.dev.region q = s.dev.region q) ∧
      (t.dev.sticky .region 0).testBit (8 * r.val + RegionBit.fenced) = true ∧
      (lost = true → (t.dev.sticky .region 0).testBit (8 * r.val + RegionBit.hbmLost) = true) ∧
      t.dev.counter Counter.regionFence 0 = min counterMax (s.dev.counter Counter.regionFence 0 + 1) ∧
      t.dev.hearth.state = s.dev.hearth.state ∧ t.dev.tick = s.dev.tick ∧ t.dev.face = s.dev.face ∧ t.dev.haul = s.dev.haul

/-- R82, R458, R723: the faults of the hub die set their bits of CHIP_TROUBLE; the loss of the last application core, a lockstep mismatch, and a hub
SRAM word without a copy halt the device, which is HALTED once no function drains; a permutation fault and a word that has a copy change nothing else. -/
def Obligations.ChipFaults : Prop :=
  (∀ (core : Fin 8) (s : State), s.dev.stopped = false → core.val ∈ s.dev.hearth.cores → (s.dev.hearth.cores.filter (fun c => c != core.val)) ≠ [] →
    ∃ t, exec (.coreFault core) s = .next t ∧ t.pending = s.pending ∧ t.hdr = s.hdr ∧ t.dev.hearth.cores = s.dev.hearth.cores.filter (fun c => c != core.val) ∧
      t.dev.hearth.state = s.dev.hearth.state ∧ (t.dev.sticky .chip 0).testBit ChipBit.coreFault = true) ∧
  (∀ (core : Fin 8) (s : State), s.dev.stopped = false → s.dev.hearth.cores = [core.val] →
    ∃ t, exec (.coreFault core) s = .next t ∧ t.pending = s.pending ∧ t.hdr = s.hdr ∧ t.dev.hearth.halting = true ∧
      (t.dev.tenants.all (fun p => !p.2.drains) = true → t.dev.hearth.state = .halted)) ∧
  (∀ s : State, s.dev.stopped = false →
    ∃ t, exec .lockstepMismatch s = .next t ∧ t.pending = s.pending ∧ t.hdr = s.hdr ∧ t.dev.hearth.halting = true ∧
      (t.dev.tenants.all (fun p => !p.2.drains) = true → t.dev.hearth.state = .halted)) ∧
  (∀ s : State, s.dev.stopped = false →
    ∃ t, exec (.hubSramUe false) s = .next t ∧ t.pending = s.pending ∧ t.hdr = s.hdr ∧ t.dev.hearth.halting = true ∧
      (t.dev.tenants.all (fun p => !p.2.drains) = true → t.dev.hearth.state = .halted)) ∧
  (∀ s : State, s.dev.stopped = false → Completes (.hubSramUe true) s (fun d => d.chipTrouble ChipBit.hubSramUe)) ∧
  (∀ s : State, s.dev.stopped = false → Completes .permuteFault s (fun d => d.chipTrouble ChipBit.permuteFault))

/-! ### PF0: NVMe -/

/-- R639: I/O queues. A completion queue of a free identifier is created, a submission queue on a completion queue that exists; a submission queue is
deleted, and a completion queue that no submission queue uses. Each completes with Successful Completion and leaves the other queues alone. -/
def Obligations.NvmeQueues : Prop :=
  (∀ (c : NvmeRequest) (s : State), ServesAdmin s c → AMap.has s.dev.nvme.cqs (queueId c) = false → 1 ≤ queueId c → queueId c ≤ s.dev.nvme.numQueues →
    2 ≤ queueSize c → queueSize c ≤ 4096 → c.cdw11 / 65536 % 65536 < 65 →
    NvmeAnswers (.nvmeCreateIoCq c) s c 0 0 0 (fun t => t.nvme.cqs = AMap.set s.dev.nvme.cqs (queueId c) (queueSize c) ∧ t.nvme.sqs = s.dev.nvme.sqs)) ∧
  (∀ (c : NvmeRequest) (s : State), ServesAdmin s c → AMap.has s.dev.nvme.cqs (c.cdw11 / 65536 % 65536) = true → AMap.has s.dev.nvme.sqs (queueId c) = false →
    1 ≤ queueId c → queueId c ≤ s.dev.nvme.numQueues → 2 ≤ queueSize c → queueSize c ≤ 4096 →
    NvmeAnswers (.nvmeCreateIoSq c) s c 0 0 0 (fun t =>
      t.nvme.sqs = AMap.set s.dev.nvme.sqs (queueId c) { size := queueSize c, cq := c.cdw11 / 65536 % 65536 } ∧ t.nvme.cqs = s.dev.nvme.cqs)) ∧
  (∀ (c : NvmeRequest) (s : State), ServesAdmin s c → AMap.has s.dev.nvme.cqs (c.cdw10 % 65536) = true → s.dev.nvme.sqs.all (fun p => p.2.cq != c.cdw10 % 65536) = true →
    NvmeAnswers (.nvmeDeleteIoCq c) s c 0 0 0 (fun t => t.nvme.cqs = AMap.del s.dev.nvme.cqs (c.cdw10 % 65536) ∧ t.nvme.sqs = s.dev.nvme.sqs)) ∧
  (∀ (c : NvmeRequest) (s : State), ServesAdmin s c → AMap.has s.dev.nvme.sqs (c.cdw10 % 65536) = true → s.dev.nvme.cmds.all (fun x => x.sq != c.cdw10 % 65536) = true →
    NvmeAnswers (.nvmeDeleteIoSq c) s c 0 0 0 (fun t => t.nvme.sqs = AMap.del s.dev.nvme.sqs (c.cdw10 % 65536) ∧ t.nvme.cqs = s.dev.nvme.cqs))

/-- R640, R650 to R652, R656: the other admin commands. Identify Controller returns the data structure of Table 19-1; Get Log Page the Firmware Slot
log; Abort of a command that is not there completes with result bit 0 set; Set Features takes the event configuration, which Get Features returns; an
event request waits; a self-test starts in its first segment; a Sanitize starts and destroys every key; and an opcode that is not listed completes
with Invalid Command Opcode (status codes of NVMe 2.0: log entry 30). -/
def Obligations.NvmeAdminCommands : Prop :=
  (∀ (c : NvmeRequest) (s : State), ServesAdmin s c → c.cdw10 % 256 = 1 →
    NvmeAnswers (.identify c) s c 0 0 0 (fun t => .nvmeData 0 c.cid identifyController ∈ t.out)) ∧
  (∀ (c : NvmeRequest) (s : State), ServesAdmin s c → c.cdw10 % 256 = 3 → c.cdw10 / 65536 % 65536 = 127 → c.cdw11 % 65536 = 0 → c.cdw12 = 0 → c.cdw13 = 0 →
    NvmeAnswers (.getLogPage c) s c 0 0 0 (fun t => .nvmeData 0 c.cid firmwareLog ∈ t.out)) ∧
  (∀ (c : NvmeRequest) (s : State), ServesAdmin s c → s.dev.nvme.cmds.all (fun x => !(x.sq == c.cdw10 % 65536 && x.cid == c.cdw10 / 65536 % 65536)) = true →
    NvmeAnswers (.abort c) s c 0 0 1 (fun t => t.nvme.cmds = s.dev.nvme.cmds)) ∧
  (∀ (c : NvmeRequest) (s : State), ServesAdmin s c → bitOf c.cdw10 31 = false → c.cdw10 % 256 = 0x0B →
    NvmeAnswers (.setFeatures c) s c 0 0 0 (fun t => t.nvme.aec = c.cdw11 % 2 ^ 32)) ∧
  (∀ (c : NvmeRequest) (s : State), ServesAdmin s c → bitField c.cdw10 8 3 = 0 → c.cdw10 % 256 = 0x0B →
    NvmeAnswers (.getFeatures c) s c 0 0 s.dev.nvme.aec (fun t => t.nvme.aec = s.dev.nvme.aec)) ∧
  (∀ (c : NvmeRequest) (s : State), ServesAdmin s c → s.dev.nvme.events = [] → s.dev.nvme.aers = [] →
    ∃ t, exec (.asynchronousEventRequest c) s = .next t ∧ t.pending = s.pending ∧ t.hdr = s.hdr ∧ t.dev.nvme.aers = [c.cid] ∧ t.dev.nvme.events = []) ∧
  (∀ (c : NvmeRequest) (s : State), ServesAdmin s c → (c.cdw10 % 16 = 1 ∨ c.cdw10 % 16 = 2) → s.dev.nvme.test = none →
    NvmeAnswers (.deviceSelfTest c) s c 0 0 0 (fun t => t.nvme.test = some { code := c.cdw10 % 16, segment := 1, suspended := false })) ∧
  (∀ (c : NvmeRequest) (s : State), ServesAdmin s c → s.dev.nvme.sanitize = none → (c.cdw10 % 8 = 2 ∨ c.cdw10 % 8 = 4) →
    NvmeAnswers (.nvmeSanitize c) s c 0 0 0 (fun t => t.nvme.sanitize = some (c.cdw10 % 8 == 2) ∧ t.face.scratchKey = [] ∧
      t.face.datasets.all (fun p => p.2.key.isEmpty && p.2.keyMode == 0) = true)) ∧
  (∀ (c : NvmeRequest) (s : State), ServesAdmin s c → NvmeAnswers (.nvmeInvalidOpcode c) s c 0 1 0 (fun t => t.nvme.cmds = s.dev.nvme.cmds ∧ t.face = s.dev.face))

/-- R645 to R647: the NVM commands. A Write of whole granules of the scratch namespace that finds room is complete and reads back; a Read of granules
that are unmapped returns zeros; Flush of the scratch namespace, Write Zeroes that deallocates a mapped granule and Dataset Management of such a range
complete, and the granule is unmapped. -/
def Obligations.NvmeIoCommands : Prop :=
  (∀ (c : NvmeRequest) (s : State), ServesIo s c → c.nsid = 1 → c.lba % 4 = 0 → c.blocks = 4 → c.lba + 4 ≤ s.dev.nsSize 1 →
    s.dev.nvme.cmds = [] → s.dev.dirtyRoom 16384 = true → AMap.get? s.dev.face.granules (c.lba / 4) = none → c.data.length = 16384 →
    NvmeAnswers (.nvmeWrite c) s c 0 0 0 (fun t => t.granuleData (c.lba / 4) = c.data ∧
      (∀ g, g ≠ c.lba / 4 → AMap.get? t.face.granules g = AMap.get? s.dev.face.granules g))) ∧
  (∀ (c : NvmeRequest) (s : State), ServesIo s c → c.nsid = 1 → c.blocks ≤ 512 → c.lba + c.blocks ≤ s.dev.nsSize 1 →
    (∀ g ∈ granulesOf c.lba c.blocks, AMap.get? s.dev.face.granules g = none) →
    NvmeAnswers (.nvmeRead c) s c 0 0 0 (fun t => .nvmeData c.sq c.cid (zeros (4096 * c.blocks)) ∈ t.out ∧ t.face = s.dev.face)) ∧
  (∀ (c : NvmeRequest) (s : State), ServesIo s c → c.nsid = 1 → NvmeAnswers (.nvmeFlush c) s c 0 0 0 (fun t => t.face = s.dev.face)) ∧
  (∀ (c : NvmeRequest) (s : State), ServesIo s c → c.nsid = 1 → c.lba % 4 = 0 → c.blocks = 4 → c.lba + 4 ≤ s.dev.nsSize 1 → bitOf c.cdw12 25 = true →
    AMap.has s.dev.face.granules (c.lba / 4) = true →
    NvmeAnswers (.writeZeroes c) s c 0 0 0 (fun t => AMap.get? t.face.granules (c.lba / 4) = none)) ∧
  (∀ (c : NvmeRequest) (s : State) (g : Nat), ServesIo s c → c.nsid = 1 → bitOf c.cdw11 2 = true → c.cdw10 % 256 = 0 → leAt c.data 8 8 = 4 * g → leAt c.data 4 4 = 4 →
    4 * g + 4 ≤ s.dev.nsSize 1 → NvmeAnswers (.datasetManagement c) s c 0 0 0 (fun t => AMap.get? t.face.granules g = none))

/-- R642, R651, R655, R674: the events of PF0. CC.EN makes the controller ready in READY; an idle controller takes the storage request of its APST
entry; a self-test that passes leaves its result in the log and no test; a reset of PF0 ends every command and request, deletes the queues and keeps
the logs. -/
def Obligations.NvmeControllerEvents : Prop :=
  (∀ s : State, s.dev.stopped = false → Completes .ccEnSet s (fun d => { d with nvme := { d.nvme with ccEn := true } })) ∧
  (∀ s : State, s.dev.stopped = false → s.dev.nvmeReady = true → s.dev.nvme.apste = true → s.dev.nvme.cmds = [] → s.dev.nvme.test = none →
    apstTime (s.dev.nvme.apst.getD s.dev.bellows.storageReq.code 0) ≠ 0 →
    ∃ t, exec .apstTransition s = .next t ∧ t.pending = s.pending ∧ t.hdr = s.hdr ∧
      t.dev.bellows.storageReq = PowerState.ofCode (apstTarget (s.dev.nvme.apst.getD s.dev.bellows.storageReq.code 0)) ∧
      t.dev.bellows.adminReq = s.dev.bellows.adminReq ∧ t.dev.nvme = s.dev.nvme ∧
      t.dev.counter Counter.apstTransition 0 = min counterMax (s.dev.counter Counter.apstTransition 0 + 1)) ∧
  (∀ (k : SelfTest) (die : Option Nat) (s : State), s.dev.stopped = false → s.dev.nvme.test = some k → k.suspended = false →
    ∃ t, exec (.selftestDone 0 die) s = .next t ∧ t.pending = s.pending ∧ t.hdr = s.hdr ∧ t.dev.nvme.test = none ∧
      t.dev.nvme.tests = ({ code := k.code, result := 0, segment := 0, die := none } :: s.dev.nvme.tests).take 20) ∧
  (∀ s : State, s.dev.stopped = false → s.dev.nvme.test = none →
    ∃ t, exec .pf0Reset s = .next t ∧ t.pending = s.pending ∧ t.hdr = s.hdr ∧ t.dev.nvme.cmds = [] ∧ t.dev.nvme.aers = [] ∧ t.dev.nvme.sqs = [] ∧ t.dev.nvme.cqs = [] ∧
      t.dev.nvme.ccEn = false ∧ t.dev.nvme.tests = s.dev.nvme.tests ∧ t.dev.nvme.sanitize = s.dev.nvme.sanitize ∧
      t.dev.bellows.storageReq = .blaze ∧ t.dev.bellows.storageSet = .blaze ∧ t.dev.bellows.adminReq = s.dev.bellows.adminReq)

/-! ### The sideband: MCTP, I3C addresses, the recovery port and JTAG -/

/-- R661: each MCTP control request addressed to the endpoint, whole and with a good PEC, is answered to its source with its tag: Set Endpoint ID
takes the id, Get Endpoint ID returns it, the message types are control and vendor-defined; version numbers that the spec does not give are free bytes
(layouts of DSP0236: log entry 31). R661: the I3C target takes a dynamic address only while it has none, and gives it up on RSTDAA; nothing else
changes. -/
def Obligations.MctpEndpoint : Prop :=
  (∀ (p : MctpPacket) (s : State), s.dev.stopped = false → s.dev.mctpMine p = true → p.pecOk = true → isControl p 1 = true → p.body.length = 5 →
    leAt p.body 3 1 % 4 ≤ 1 → 8 ≤ leAt p.body 4 1 → leAt p.body 4 1 ≠ 255 →
    Completes (.setEndpointId p) s (fun d => (d.modMctp (fun x => { x with eid := leAt p.body 4 1 })).controlReply p 0 (leBytes 1 0 ++ leBytes 1 (leAt p.body 4 1) ++ leBytes 1 0))) ∧
  (∀ (p : MctpPacket) (s : State), s.dev.stopped = false → s.dev.mctpMine p = true → p.pecOk = true → isControl p 2 = true → p.body.length = 3 →
    Completes (.getEndpointId p) s (fun d => d.controlReply p 0 (leBytes 1 d.side.mctp.eid ++ zeros 2))) ∧
  (∀ (p : MctpPacket) (s : State), s.dev.stopped = false → s.dev.mctpMine p = true → p.pecOk = true → isControl p 4 = true → p.body.length = 4 → leAt p.body 3 1 = 0x7F →
    Completes (.getMctpVersionSupport p) s (fun d => d.draw.2.controlReply p 0 (leBytes 1 1 ++ padTo (Config.freeBytes d.draws) 4))) ∧
  (∀ (p : MctpPacket) (s : State), s.dev.stopped = false → s.dev.mctpMine p = true → p.pecOk = true → isControl p 5 = true → p.body.length = 3 →
    Completes (.getMessageTypeSupport p) s (fun d => d.controlReply p 0 (leBytes 1 1 ++ leBytes 1 0x7F))) ∧
  (∀ (p : MctpPacket) (s : State), s.dev.stopped = false → s.dev.mctpMine p = true → p.pecOk = true → isControl p 6 = true → p.body.length = 4 → leAt p.body 3 1 = 0 →
    Completes (.getVendorDefinedMessageSupport p) s (fun d =>
      d.draw.2.controlReply p 0 (leBytes 1 0xFF ++ leBytes 1 1 ++ beBytes 4 0xD1B7 ++ padTo (Config.freeBytes d.draws) 2))) ∧
  (∀ (p : MctpPacket) (s : State), s.dev.stopped = false → s.dev.mctpMine p = true → p.pecOk = false →
    Completes (.getEndpointId p) s (fun d => d.count Counter.mctpDrop 0 1)) ∧
  (∀ (a : Nat) (s : State), s.dev.stopped = false → s.dev.side.mctp.dynAddr = none →
    Completes (.setdasa a) s (fun d => { d with side := { d.side with mctp := { d.side.mctp with dynAddr := some (a % 128) } } }) ∧
    Completes (.entdaa a) s (fun d => { d with side := { d.side with mctp := { d.side.mctp with dynAddr := some (a % 128) } } })) ∧
  (∀ (a b : Nat) (s : State), s.dev.stopped = false → s.dev.side.mctp.dynAddr = some b → exec (.setdasa a) s = .next s ∧ exec (.entdaa a) s = .next s) ∧
  (∀ s : State, s.dev.stopped = false → Completes .rstdaa s (fun d => { d with side := { d.side with mctp := { d.side.mctp with dynAddr := none } } }))

/-- R662: a vendor-defined message of one packet that carries READ_TROUBLE, with a version negotiated, is answered with SUCCESS and the 560 bytes of
the trouble words; one that carries an opcode the sideband does not permit is answered with SIDEBAND_OPCODE; neither changes the device otherwise. -/
def Obligations.VendorMessages : Prop :=
  ∀ (p : MctpPacket) (s : State), s.dev.stopped = false → s.dev.mctpMine p = true → p.pecOk = true → p.tagOwner = true → p.som = true → p.eom = true → p.body.length = 9 →
    leAt p.body 0 1 = 0x7F → beAt p.body 1 4 = 0xD1B7 → leAt p.body 7 2 = 0 → s.dev.side.mctp.assembly = none → s.dev.hearth.state = .ready → s.dev.nvme.sanitize = none →
    (leAt p.body 5 2 = 0x0104 → 0x0100 ≤ s.version 1025 →
      ∃ t, exec (.vendorDefinedMessage p) s = .next t ∧ t.pending = s.pending ∧ t.hdr = s.hdr ∧ t.dev = s.dev.sideReply p Status.success s.dev.troubleBytes) ∧
    (sideCmd (leAt p.body 5 2) = none →
      ∃ t, exec (.vendorDefinedMessage p) s = .next t ∧ t.pending = s.pending ∧ t.hdr = s.hdr ∧ t.dev = s.dev.sideReply p Status.sidebandOpcode [])

/-- R665, R666: the commands of the recovery port that do not reset the device. In RECOVERY, with no command running, FACTORY_DEFAULTS erases both
configuration copies and SANITIZE starts and keeps the port busy; READ_LOG returns the boot log in any state; an undefined code ends with BAD_CODE;
and reading REC_STATUS returns it and clears IGNORED. -/
def Obligations.RecoveryPortCommands : Prop :=
  (∀ s : State, s.dev.stopped = false → s.dev.hearth.state = .recovery → s.dev.side.recov.busy = false →
    ∃ t, exec (.factoryDefaults true) s = .next t ∧ t.pending = s.pending ∧ t.hdr = s.hdr ∧ t.dev.side.recov.result = RecResult.ok ∧ t.dev.side.recov.busy = false ∧
      t.dev.boot.nor = Mem.erase (Mem.erase s.dev.boot.nor (cfgBase 0) norSector) (cfgBase 1) norSector ∧ t.dev.hearth = s.dev.hearth ∧ t.dev.face = s.dev.face) ∧
  (∀ s : State, s.dev.stopped = false → s.dev.hearth.state = .recovery → s.dev.side.recov.busy = false → s.dev.recArg ≤ 1 →
    ∃ t, exec (.sanitize true) s = .next t ∧ t.pending = s.pending ∧ t.hdr = s.hdr ∧ t.dev.side.recov.busy = true ∧
      t.dev.nvme.sanitize = some (s.dev.recArg == 0) ∧ t.dev.face.scratchKey = []) ∧
  (∀ s : State, s.dev.stopped = false → s.dev.side.recov.busy = false → s.dev.recArg = 0 →
    ∃ t, exec .readLog s = .next t ∧ t.pending = s.pending ∧ t.hdr = s.hdr ∧ t.dev.side.recov.result = RecResult.ok ∧ t.dev.side.recov.dataReady = true ∧
      t.dev.side.recov.progress = (s.dev.boot.measure ++ s.dev.boot.log.flatMap BootEntry.bytes).length ∧ t.dev.boot = s.dev.boot ∧ t.dev.hearth = s.dev.hearth) ∧
  (∀ (code : Nat) (s : State), s.dev.stopped = false → s.dev.side.recov.busy = false → ¬ (1 ≤ code % 256 ∧ code % 256 ≤ 6) →
    ∃ t, exec (.badCode code) s = .next t ∧ t.pending = s.pending ∧ t.hdr = s.hdr ∧ t.dev.side.recov.result = RecResult.badCode ∧ t.dev.boot = s.dev.boot ∧ t.dev.hearth = s.dev.hearth) ∧
  (∀ s : State, s.dev.stopped = false → Completes .recStatusRead s (fun d => (d.emit (.readData (leBytes 4 d.side.recov.status))).modRec (fun x => { x with ignored := false })))

/-- R702: the JTAG instructions act in every state, for they need no clock of the device. BYPASS returns what is shifted in one bit later, the first
bit 0; IDCODE returns an identity of 32 bits whose first is 1; SAMPLE/PRELOAD takes the boundary register; EXTEST drives it in BOOT and RECOVERY and
changes nothing in another state (captured levels and the identity: free values). -/
def Obligations.JtagInstructions : Prop :=
  (∀ (b : List Bool) (s : State), Completes (.bypass b) s (fun d => (d.modJtag (fun x => { x with ir := .bypass, extest := false })).emit (.tdo ((false :: b).take b.length)))) ∧
  (∀ (b : List Bool) (s : State), ∃ l : List Bool, l.length = 31 ∧
    Completes (.idcode b) s (fun d => (d.modJtag (fun x => { x with ir := .idcode, extest := false })).emit (.tdo ((true :: l ++ b).take b.length)))) ∧
  (∀ (b : List Bool) (s : State), ∃ l : List Bool, l.length = b.length ∧
    Completes (.samplePreload b) s (fun d => (d.draw.2.modJtag (fun _ => { ir := .samplePreload, boundary := b, extest := false })).emit (.tdo l))) ∧
  (∀ (b : List Bool) (s : State), s.dev.hearth.state = .boot ∨ s.dev.hearth.state = .recovery → ∃ l : List Bool, l.length = b.length ∧
    Completes (.extest b) s (fun d => (d.draw.2.modJtag (fun _ => { ir := .extest, boundary := b, extest := true })).emit (.tdo l))) ∧
  (∀ (b : List Bool) (s : State), s.dev.hearth.state ≠ .boot → s.dev.hearth.state ≠ .recovery → exec (.extest b) s = .next s)

/-! ### Power, droop, the hold-up store, stops and resets -/

/-- R620 to R622, R714: a quiet device whose target is Slumber enters it and posts POWER_STATE; while it sleeps the loss of LPO_CLK stops the tick; a
device that is no longer quiet, or whose target has changed, leaves it; and the shallower state is in force once its configuration is reached. -/
def Obligations.SlumberIsEnteredAndLeft : Prop :=
  (∀ s : State, s.dev.stopped = false → s.dev.powerTarget = .slumber → s.dev.quiet = true → s.dev.bellows.slumber = false → s.dev.bellows.inForce ≠ .slumber →
    (s.dev.hearth.state = .ready ∨ s.dev.hearth.state = .hold) →
    Completes .slumberEntry s (fun d => Dev.event { d with bellows := { d.bellows with slumber := true, wake := false, inForce := .slumber } }
      adminWin EventCode.powerState 0 [(20, 1, 4), (21, 1, d.bellows.inForce.code), (24, 2, d.bellows.step)])) ∧
  (∀ s : State, s.dev.stopped = false → (s.dev.powerTarget ≠ .slumber ∨ s.dev.quiet = false) → exec .slumberEntry s = .next s) ∧
  (∀ s : State, s.dev.stopped = false → s.dev.bellows.slumber = true →
    Completes .lpoClkLoss s (fun d => { d with bellows := { d.bellows with lpoLost := true } })) ∧
  (∀ s : State, s.dev.stopped = false → s.dev.bellows.slumber = true → (s.dev.bellows.wake = true ∨ s.dev.quiet = false ∨ s.dev.powerTarget ≠ .slumber) →
    ∃ t, exec .slumberExit s = .next t ∧ t.pending = s.pending ∧ t.hdr = s.hdr ∧ t.dev.bellows.slumber = false ∧ t.dev.bellows.wake = false ∧
      t.dev.bellows.lpoLost = false ∧ t.dev.bellows.exiting = true ∧ t.dev.bellows.inForce = t.dev.stateInForce ∧ t.dev.bellows.inForce ≠ .slumber ∧ t.dev.tick = s.dev.tick) ∧
  (∀ s : State, s.dev.stopped = false → s.dev.bellows.exiting = true →
    ∃ t, exec .powerStateExitDone s = .next t ∧ t.pending = s.pending ∧ t.hdr = s.hdr ∧ t.dev.bellows.exiting = false ∧
      t.dev.bellows.inForce = t.dev.stateInForce ∧ t.dev.bellows.step = s.dev.bellows.step ∧ t.dev.tick = s.dev.tick)

/-- R393, R609, R614: a droop episode of a block in service raises its DROOP_STRETCH by one and marks it until it recovers; the 257th of a tick makes
the droop ceiling the step in force plus 1 for 2,500 ticks and raises DROOP_LIMIT; the ceiling goes when its ticks are over; and a restored unit is
up. -/
def Obligations.DroopEpisodes : Prop :=
  (∀ (b : BlockRef) (g : Nat) (s : State), s.dev.stopped = false → s.dev.blockOf b = some g → s.dev.blockIn g = true → (s.dev.block g).drooped = false →
    s.dev.bellows.stretches ≠ 256 →
    Completes (.droopDetect b) s (fun d =>
      let e := (d.modBlock g (fun x => { x with drooped := true })).count Counter.droopStretch g 1
      { e with bellows := { d.bellows with stretches := d.bellows.stretches + 1 } })) ∧
  (∀ (b : BlockRef) (g : Nat) (s : State), s.dev.stopped = false → s.dev.blockOf b = some g → s.dev.blockIn g = true → (s.dev.block g).drooped = false →
    s.dev.bellows.stretches = 256 →
    ∃ t, exec (.droopDetect b) s = .next t ∧ t.pending = s.pending ∧ t.hdr = s.hdr ∧
      t.dev.bellows = { s.dev.bellows with stretches := 257, droop := some (min s.dev.stepF (s.dev.bellows.step + 1), s.dev.tick.count + 2500) } ∧
      t.dev.counter Counter.droopLimit 0 = min counterMax (s.dev.counter Counter.droopLimit 0 + 1) ∧
      t.dev.counter Counter.droopStretch g = min counterMax (s.dev.counter Counter.droopStretch g + 1)) ∧
  (∀ (b : BlockRef) (g : Nat) (s : State), s.dev.stopped = false → s.dev.blockOf b = some g → (s.dev.block g).drooped = true →
    exec (.droopDetect b) s = .next s ∧ Completes (.droopRecover b) s (fun d => d.modBlock g (fun x => { x with drooped := false }))) ∧
  (∀ (s : State) (c t : Nat), s.dev.stopped = false → s.dev.bellows.droop = some (c, t) → t ≤ s.dev.tick.count →
    Completes .droopCeilingExpire s (fun d => { d with bellows := { d.bellows with droop := none } })) ∧
  (∀ (u : Nat) (s : State), s.dev.stopped = false →
    Completes (.unitUngated u) s (fun d => d.modUnit (UnitClass.ofCode (u / 65536)) (u % 65536) (fun x => { x with ungating := false })))

/-- R630 to R633, Table 18-6: a hold-up test that can start asserts HOLD_TEST and takes V1; one that ends gives C = 2 W dt / (V1 − V2) and E_u = 0.375
C V1², counts HOLDUP_TEST_RUN and releases HOLD_TEST; one that takes longer than 1 s leaves E_u 0 and posts HOLDUP_TEST_FAIL. An absent bank does not
start one. -/
def Obligations.HoldupTests : Prop :=
  (∀ s : State, s.dev.stopped = false → s.dev.testCanStart = true →
    Completes .holdupTestDue s (fun d => { d with bellows := { d.bellows with
      test := some { ticket := d.bellows.dueTicket, v1 := d.bellows.bankMv, tick := d.tick.count }, holdTestPin := true, testDue := false, dueTicket := none } })) ∧
  (∀ s : State, s.dev.stopped = false → s.dev.bellows.test = none → s.dev.bellows.bankMv < 4000 →
    Completes .holdupTestDue s (fun d => Dev.event { d with bellows := { d.bellows with testDue := true } } adminWin EventCode.holdupTestFail 0 [(20, 1, 2)])) ∧
  (∀ (dt v2 v1 k : Nat) (s : State), s.dev.stopped = false → s.dev.bellows.test = some { ticket := none, v1 := v1, tick := k } → v2 < v1 → dt ≤ 1000000 →
    ∃ t, exec (.holdupTestDone dt v2) s = .next t ∧ t.pending = s.pending ∧ t.hdr = s.hdr ∧
      t.dev.bellows.cap = (2 * dt : Nat) / (1000 * (v1 - v2) : Nat) ∧ t.dev.bellows.euTest = 375 / 1000 * t.dev.bellows.cap * ((v1 * v1 : Nat) / (1000000 : Nat)) ∧
      t.dev.bellows.vFull = v1 ∧ t.dev.bellows.test = none ∧ t.dev.bellows.holdTestPin = false ∧ t.dev.bellows.testEnd = some s.dev.tick.clockNs ∧
      t.dev.counter Counter.holdupTestRun 0 = min counterMax (s.dev.counter Counter.holdupTestRun 0 + 1) ∧
      (s.dev.bellows.emergency = false → t.dev.bellows.euReported = t.dev.bellows.euTest ∧ t.dev.face.dirtyPermit = t.dev.permitFor t.dev.bellows.euTest)) ∧
  (∀ (v1 k : Nat) (s : State), s.dev.stopped = false → s.dev.bellows.test = some { ticket := none, v1 := v1, tick := k } →
    ∃ t, exec .holdupTestTimeout s = .next t ∧ t.pending = s.pending ∧ t.hdr = s.hdr ∧ t.dev.bellows.euTest = 0 ∧ t.dev.bellows.euReported = 0 ∧ t.dev.face.dirtyPermit = 0 ∧
      t.dev.bellows.test = none ∧ t.dev.bellows.holdTestPin = false)

/-- R605: a PMBus read adds the measured energy (mV × mA × 10 ms) and the modelled energy to each rail's window, a failed one leaves the window out
and raises PMBUS_FAIL; an update moves each gain by an eighth of the difference between m / p and it, held from 0.80 to 1.25, and a rail without a
modelled window keeps its gain. -/
def Obligations.GainsFollowMeasurement : Prop :=
  (∀ (reads : List (Option (Nat × Nat))) (s : State), s.dev.stopped = false →
    ∃ t, exec (.pmbusRead reads) s = .next t ∧ t.pending = s.pending ∧ t.hdr = s.hdr ∧ t.dev.bellows.rails.length = s.dev.bellows.rails.length ∧
      ∀ (r : Nat) (x : Rail), s.dev.bellows.rails[r]? = some x →
        (∀ mv ma, reads[r]? = some (some (mv, ma)) →
          t.dev.bellows.rails[r]? = some { x with window := (((mv * ma : Nat) : Rat) / (10 ^ 8 : Nat), x.acc) :: x.window, acc := 0 }) ∧
        (reads[r]? = some none → t.dev.bellows.rails[r]? = some { x with acc := 0 })) ∧
  (∀ s : State, s.dev.stopped = false → s.dev.bellows.rails.length = 20 →
    ∃ t, exec .gainUpdate s = .next t ∧ t.pending = s.pending ∧ t.hdr = s.hdr ∧ t.dev.bellows.rails.length = 20 ∧
      ∀ (r : Nat) (x : Rail), s.dev.bellows.rails[r]? = some x →
        let m := (x.window.take 10).foldl (fun a e => a + e.1) (0 : Rat)
        let p := (x.window.take 10).foldl (fun a e => a + e.2) (0 : Rat)
        ∃ y, t.dev.bellows.rails[r]? = some y ∧ y.window = [] ∧ y.acc = x.acc ∧
          (p ≠ 0 → y.gain = max (80 / 100) (min (125 / 100) (x.gain + (m / p - x.gain) / 8)) ∧
            (80 / 100 ≤ m / p ∧ m / p ≤ 125 / 100 → y.drift = 0)) ∧
          (p = 0 → y.gain = x.gain))

/-- R251, R252, R627, R628, R711: what stops the clocks and what it leaves. A comparator's trip asserts THERMTRIP_L, latches die and sensor and ends a
flush; the loss of standby power clears the always-on well; a rail fault holds the device in reset and is recorded with whether it struck a flush; a
fall of PFAIL_L in READY starts the hold-up flush, in BOOT it holds the device; and the flush that ends with PFAIL_L low holds it. -/
def Obligations.StopsOfTheClocks : Prop :=
  (∀ (die sensor : Nat) (s : State), s.dev.boot.held = 0 → s.dev.bellows.tripped = false →
    Completes (.quenchTrip die sensor) s (fun d => { d with
      bellows := { d.bellows with tripped := true, quench := some (die, sensor) }
      face := { d.face with flushing := false }
      boot := { d.boot with pins := { d.boot.pins with thermtripL := false } } })) ∧
  (∀ s : State, Completes .standbyPowerLoss s (fun d => { d with
      bellows := { d.bellows with quench := none }
      boot := { d.boot with pendPools := [none, none, none, none], railFaults := [] } })) ∧
  (∀ (rail : Nat) (s : State), s.dev.boot.held ≠ 1 → s.dev.boot.held ≠ 3 →
    Completes (.railFault rail) s (fun d => { d with
      face := { d.face with flushing := false }
      boot := { d.boot with held := 3, railFaults := d.boot.railFaults ++ [rail % 256 + 256 * (if d.face.flushing then 1 else 0)] } })) ∧
  (∀ s : State, s.dev.face.pfailLow = false → s.dev.stopped = false → s.dev.bellows.test = none →
    (s.dev.hearth.state ≠ .boot → Completes .pfailLFall s (fun d => { d with face := { d.face with pfailLow := true, flushing := true } })) ∧
    (s.dev.hearth.state = .boot → Completes .pfailLFall s (fun d => { d with face := { d.face with pfailLow := true }, boot := { d.boot with held := 1 } }))) ∧
  (∀ s : State, Completes .pfailLRise s (fun d => { d with face := { d.face with pfailLow := false } })) ∧
  (∀ (f : BringupFound) (s : State), s.dev.face.flushing = true → s.dev.face.pfailLow = true → s.dev.endWrites.face.pfailLow = true →
    ∃ t, exec (.holdupFlushDone f) s = .next t ∧ t.pending = s.pending ∧ t.hdr = s.hdr ∧ t.dev.boot.held = 1 ∧ t.dev.face.flushing = false ∧
      t.dev.face.flushRecord = some false ∧ t.dev.face.journalTail = []) ∧
  (∀ (i : Instr) (s : State), s.dev.stopped = true → (i = .slumberEntry ∨ i = .lpoClkLoss ∨ i = .gainUpdate) → exec i s = .next s)

/-- R141, R656, R665, R669, R680: a power-on, a RESET_L pulse, a PERST_L and the resets of the recovery port bring the device up again with no window
negotiated; a forced recovery ends in RECOVERY; a sanitize that ends clears the maps and detaches every namespace. -/
def Obligations.ResetsBringTheDeviceUp : Prop :=
  (∀ (f : BringupFound) (s : State), ∃ t, exec (.powerOn f) s = .next t ∧ t.pending = s.pending ∧ t.hdr = [] ∧
    t.dev = Dev.coldReset { s.dev with face := { s.dev.face with pfailLow := false } } f 1) ∧
  (∀ (f : BringupFound) (s : State), s.dev.boot.forced = true → s.dev.hearth.state ≠ .recovery →
    ∃ t, exec (.powerOn f) s = .next t ∧ t.dev.hearth.state = .recovery ∧ t.dev.boot.held = 0 ∧ t.dev.tick.running = false) ∧
  (∀ (f : BringupFound) (s : State), s.dev.boot.held ≠ 3 → s.dev.face.pfailLow = false →
    ∃ t, exec (.resetLAssert f) s = .next t ∧ t.pending = s.pending ∧ t.hdr = [] ∧ t.dev = s.dev.coldReset f 1) ∧
  (∀ (f : BringupFound) (s : State), s.dev.stopped = false →
    ∃ t, exec (.perstL f) s = .next t ∧ t.pending = s.pending ∧ t.hdr = [] ∧ t.dev = s.dev.warmReset f false) ∧
  (∀ (f : BringupFound) (s : State), s.dev.stopped = false → s.dev.side.recov.busy = false → s.dev.recArg = forceKey →
    ∃ t, exec (.forceRecovery f) s = .next t ∧ t.pending = s.pending ∧ t.hdr = [] ∧ t.dev.hearth.state = .recovery ∧ t.dev.boot.forced = true) ∧
  (∀ (f : BringupFound) (s : State), s.dev.stopped = false → s.dev.side.recov.busy = false → s.dev.hearth.state = .recovery →
    ∃ t, exec (.reset f) s = .next t ∧ t.pending = s.pending ∧ t.hdr = [] ∧
      t.dev = (s.dev.modRec (fun x => { x with dataReady := false, progress := 0, count := 0, result := RecResult.ok, busy := false })).coldReset f 1) ∧
  (∀ (f : BringupFound) (image : List Byte) (ok : Bool) (s : State), ∃ t, exec (.loadFw image ok f) s = .next t ∧ t.pending = s.pending ∧
      (let e := s.dev.onRec false (fun d => d.recLoad image ok)
       if s.dev.recLoads image ok then t.hdr = [] ∧ t.dev = e.coldReset f 1 else t.hdr = s.hdr ∧ t.dev = e)) ∧
  (∀ (failed : List (Nat × Nat)) (e : Bool) (s : State), s.dev.stopped = false → s.dev.nvme.sanitize = some e →
    ∃ t, exec (.sanitizeDone failed) s = .next t ∧ t.pending = s.pending ∧ t.hdr = s.hdr ∧ t.dev.nvme.sanitize = none ∧ t.dev.nvme.attached = [] ∧
      t.dev.face.journalTail = [] ∧ t.dev.boot.retention.valid = false)

/-! ### Buffers, the directory, the compressor and the Move -/

/-- R117 to R119, R123: a request of at most 16 MiB is given the first free buffer of the smallest pool that holds it in its own region, with REFCOUNT
1, the owner's class and tenant and the tick of the allocation; if that pool is empty in every fitting place the request waits and POOL_WAIT of the
tenant rises. -/
def Obligations.BufferAllocation : Prop :=
  (∀ (region : Fin 8) (len tenant cls i : Nat) (l : Pool) (s : State), s.dev.stopped = false → 0 < len → len ≤ 16777216 → s.dev.regionIn region.val = true →
    s.dev.poolTake region.val (poolFor len) = some (i, l) →
    Completes (.bufferAllocate region len tenant cls) s (fun d =>
      (d.giveBuf region.val (poolFor len) i l len tenant cls).emit (.buffer (mkHandle region.val (poolFor len) i)))) ∧
  (∀ (region : Fin 8) (len tenant cls : Nat) (s : State), s.dev.stopped = false → 0 < len → len ≤ 16777216 → s.dev.allocBuf region.val len tenant cls = none →
    Completes (.bufferAllocate region len tenant cls) s (fun d =>
      Dev.count { d with tongs := { d.tongs with waiting := d.tongs.waiting ++
        [{ region := region.val, pool := poolFor len, len := len, tenant := tenant, cls := cls, item := 0, link := 0 }] } } Counter.poolWait tenant 1))

/-- R124 to R126: SHARE of a live buffer of the requester's own tenant raises REFCOUNT by one and DROP lowers it; a DROP at REFCOUNT 1 frees the
buffer to the tail of its pool's list when nobody waits; either on a freed buffer changes no buffer, raises DOUBLE_FREE_COUNT and posts DOUBLE_FREE. -/
def Obligations.BufferReferences : Prop :=
  (∀ (h cls tenant : Nat) (b : BufRec) (s : State), s.dev.stopped = false → s.dev.handleOk h = true → AMap.get? s.dev.tongs.bufs h = some b → b.freed = false →
    b.ownerTenant = tenant → b.refcount ≠ 65535 →
    Completes (.share h cls tenant) s (fun d => { d with tongs := { d.tongs with bufs := AMap.set d.tongs.bufs h { b with refcount := b.refcount + 1 } } })) ∧
  (∀ (h cls tenant : Nat) (b : BufRec) (s : State), s.dev.stopped = false → s.dev.handleOk h = true → AMap.get? s.dev.tongs.bufs h = some b → b.freed = false →
    1 < b.refcount →
    Completes (.drop h cls tenant) s (fun d => { d with tongs := { d.tongs with bufs := AMap.set d.tongs.bufs h { b with refcount := b.refcount - 1 } } })) ∧
  (∀ (h cls tenant : Nat) (b : BufRec) (s : State), s.dev.stopped = false → s.dev.handleOk h = true → AMap.get? s.dev.tongs.bufs h = some b → b.freed = false →
    b.refcount = 1 → s.dev.tongs.waiting = [] →
    ∃ t, exec (.drop h cls tenant) s = .next t ∧ t.pending = s.pending ∧ t.hdr = s.hdr ∧
      AMap.get? t.dev.tongs.bufs h = some { b with refcount := 0, freed := true } ∧
      (∀ k, k ≠ h → AMap.get? t.dev.tongs.bufs k = AMap.get? s.dev.tongs.bufs k) ∧
      (t.dev.pool (handleRegion h) (handlePool h)).freed = (s.dev.pool (handleRegion h) (handlePool h)).freed ++ [handleIndex h] ∧
      t.dev = { s.dev with tongs := { s.dev.tongs with bufs := t.dev.tongs.bufs, pools := t.dev.tongs.pools } }) ∧
  (∀ (h cls tenant : Nat) (b : BufRec) (s : State), s.dev.stopped = false → s.dev.handleOk h = true → AMap.get? s.dev.tongs.bufs h = some b → b.freed = true →
    Completes (.share h cls tenant) s (fun d => (d.count Counter.doubleFreeCount 0 1).event adminWin EventCode.doubleFree 0 [(20, 4, h), (24, 1, 0), (25, 1, cls), (26, 2, tenant)]) ∧
    Completes (.drop h cls tenant) s (fun d => (d.count Counter.doubleFreeCount 0 1).event adminWin EventCode.doubleFree 0 [(20, 4, h), (24, 1, 1), (25, 1, cls), (26, 2, tenant)]))

/-- Table 03-5, R101, R104 to R108: a usable block that reads a line gets its newest copy; READ_OWN makes it the owner, READ_SHARED of an uncached
line too, and of a line owned by another block makes both sharers; a write-back or a clean eviction by the owner leaves the line uncached, and one by
another block is discarded; the hub reads without a change of state. -/
def Obligations.DirectoryTransactions : Prop :=
  (∀ (region : Fin 8) (slot : Nat) (block : Fin 16) (s : State), s.dev.stopped = false → s.dev.dirUsable region.val block.val = true → slot < contextSlots →
    (∃ t, exec (.readOwn region slot block) s = .next t ∧ t.pending = s.pending ∧ t.hdr = s.hdr ∧
      (∃ m, t.dev.line region.val slot = .owned block.val m) ∧ t.dev.out.head? = some (.readData (s.dev.lineBytes region.val slot)) ∧ t.dev.streams = s.dev.streams) ∧
    (s.dev.line region.val slot = .uncached → ∃ t, exec (.readShared region slot block) s = .next t ∧ t.pending = s.pending ∧ t.hdr = s.hdr ∧
      t.dev.line region.val slot = .owned block.val false ∧ t.dev.out.head? = some (.readData (s.dev.lineBytes region.val slot)) ∧ t.dev.streams = s.dev.streams) ∧
    (∀ o m, s.dev.line region.val slot = .owned o m → o ≠ block.val → ∃ t, exec (.readShared region slot block) s = .next t ∧ t.pending = s.pending ∧ t.hdr = s.hdr ∧
      t.dev.line region.val slot = .shared (sortByKey id [o, block.val]) ∧ t.dev.out.head? = some (.readData (s.dev.lineBytes region.val slot)) ∧ t.dev.streams = s.dev.streams)) ∧
  (∀ (region : Fin 8) (slot : Nat) (block : Fin 16) (m : Bool) (s : State), s.dev.stopped = false → s.dev.line region.val slot = .owned block.val m →
    (∃ t, exec (.writeback region slot block) s = .next t ∧ t.pending = s.pending ∧ t.hdr = s.hdr ∧ t.dev.line region.val slot = .uncached ∧ t.dev.streams = s.dev.streams) ∧
    (m = false → ∃ t, exec (.evictClean region slot block) s = .next t ∧ t.pending = s.pending ∧ t.hdr = s.hdr ∧ t.dev.line region.val slot = .uncached ∧
      t.dev.streams = s.dev.streams) ∧
    (m = true → exec (.evictClean region slot block) s = .next s) ∧
    (∀ other : Fin 16, other ≠ block → exec (.writeback region slot other) s = .next s ∧ exec (.evictClean region slot other) s = .next s)) ∧
  (∀ (region : Fin 8) (slot : Nat) (s : State), s.dev.stopped = false → s.dev.regionIn region.val = true → (s.dev.region region.val).resetting = false →
    Completes (.hubRead region slot) s (fun d => (d.modRegion region.val (fun x => { x with arbPtr := 0 })).emit (.readData (d.lineBytes region.val slot)))) ∧
  (∀ (region : Fin 8) (slot mask sid : Nat) (st : Stream) (data : List Byte) (s : State), s.dev.stopped = false → s.dev.regionIn region.val = true →
    (s.dev.region region.val).resetting = false → s.dev.streamAt region.val slot = some (sid, st) →
    Completes (.hubWrite region slot mask data) s (fun d =>
      (d.modRegion region.val (fun x => { x with arbPtr := 0 })).writeStream sid (fun _ => st.ofContext (maskedBytes mask (st.context sid) data))))

/-- R305, R308, R309: the first data given to a context opens its stream with the header of Table 08-5, and each full BLOCK_MAX of bytes ends a block;
FLUSH ends a block marked FLUSHED with all bytes held and keeps the context, END ends the last block, delivers the stream and closes the context. -/
def Obligations.CompressorStreams : Prop :=
  (∀ (ctx log cls tenant : Nat) (data : List Byte) (s : State), s.dev.stopped = false → ctx < 512 → AMap.get? s.dev.tongs.cmp ctx = none → 12 ≤ log → log ≤ 20 →
    data.length < 2 ^ log →
    Completes (.compressorData ctx log cls tenant data) s (fun d => { d with tongs := { d.tongs with
      cmp := AMap.set d.tongs.cmp ctx { log := log, cls := cls, tenant := tenant, held := data, out := bcbHeader log } } })) ∧
  (∀ (ctx : Nat) (c : CmpCtx) (s : State), s.dev.stopped = false → AMap.get? s.dev.tongs.cmp ctx = some c → c.held ≠ [] →
    ∃ t, exec (.compressorFlush ctx) s = .next t ∧ t.pending = s.pending ∧ t.hdr = s.hdr ∧
      AMap.get? t.dev.tongs.cmp ctx = some { c with held := [], out := c.out ++ (bcbBlock s.dev.fwMajor false true c.held).1 } ∧
      t.dev.counter Counter.cmpFlushed 0 = min counterMax (s.dev.counter Counter.cmpFlushed 0 + 1) ∧
      t.dev.counter Counter.cmpBlock 0 = min counterMax (s.dev.counter Counter.cmpBlock 0 + 1)) ∧
  (∀ (ctx : Nat) (c : CmpCtx) (s : State), s.dev.stopped = false → AMap.get? s.dev.tongs.cmp ctx = some c →
    ∃ t, exec (.compressorEnd ctx) s = .next t ∧ t.pending = s.pending ∧ t.hdr = s.hdr ∧ AMap.get? t.dev.tongs.cmp ctx = none ∧
      Output.compressed ctx (c.out ++ (bcbBlock s.dev.fwMajor true false c.held).1) ∈ t.dev.out)

/-- R327, Table 09-4: a Move leaves in memory each element of its source at its place in the destination as it was read before any was written; a
staged one, which overlaps and is neither a translation nor an exchange, of at most 4 MiB raises SWAGE_STAGED; nothing else of the device changes. -/
def Obligations.MoveElements : Prop :=
  (∀ (b : BlockRef) (m : MoveRec) (tenant : Nat) (mem : List Byte) (s : State), s.dev.stopped = false → moveCase m ≠ 4 →
    Completes (.move b m tenant mem) s (fun d => d.emit (.moved (b.region.val * 16 + b.block.val) (moveApply m mem)))) ∧
  (∀ (b : BlockRef) (m : MoveRec) (tenant : Nat) (mem : List Byte) (s : State), s.dev.stopped = false → moveCase m = 4 → moveBytes m ≤ 4194304 →
    Completes (.move b m tenant mem) s (fun d => (d.count Counter.swageStaged 0 1).emit (.moved (b.region.val * 16 + b.block.val) (moveApply m mem)))) ∧
  (∀ (e src dst n : Nat) (mem : List Byte), src + e * n ≤ mem.length → dst + e * n ≤ mem.length →
    let m : MoveRec := { elem := e, counts := [n], src := src, srcPitch := [(e : Int)], dst := dst, dstPitch := [(e : Int)] }
    (moveApply m mem).length = mem.length ∧ ∀ a, a < mem.length →
      (moveApply m mem)[a]? = if dst ≤ a ∧ a < dst + e * n then mem[src + (a - dst)]? else mem[a]?)

/-! ### The Haul: publication, queue pairs, rates, heads and frames -/

/-- R494, R504 to R507: the response to the oldest fence of an ACTIVE reservoir publishes the greatest tail of its batch by an RDMA WRITE of 8 bytes
to the tail address; the ACK of that publication delivers every billet that the tail covers and counts it; and the ACK of the one outstanding WRITE
frees its credit. -/
def Obligations.BilletsArePublishedAndDelivered : Prop :=
  (∀ (t key batch order : Nat) (r : Reservoir) (rest : List (Nat × Nat)) (s : State), s.dev.stopped = false → s.dev.res? (resKey t key) = some r →
    r.state = .active → r.fences = (batch, order) :: rest →
    let tail := maxNat ((r.billets.filter (fun e => e.batch == batch)).filterMap Emission.tailAfter)
    ∃ u r', exec (.fenceResponse t key) s = .next u ∧ u.pending = s.pending ∧ u.hdr = s.hdr ∧ u.dev.res? (resKey t key) = some r' ∧
      r'.published = tail ∧ r'.acked = r.acked ∧ r'.head = r.head ∧ r'.state = .active ∧
      Output.rdmaWrite (resQpn (resKey t key)) r.tailAddr r.rkey (leBytes 8 tail) ∈ u.dev.out) ∧
  (∀ (t key : Nat) (r : Reservoir) (p : Publication) (rest : List Publication) (s : State), s.dev.stopped = false → s.dev.res? (resKey t key) = some r →
    r.tails = p :: rest → r.fences = [] → (∀ w ∈ r.writes, w.posted = none) →
    ∃ u, exec (.rdmaAck t key) s = .next u ∧ u.pending = s.pending ∧ u.hdr = s.hdr ∧
      u.dev.res? (resKey t key) = some { r with tails := rest, acked := p.tail, retries := 0, billets := r.billets.filter (fun e => match e.tailAfter with | some x => decide (p.tail < x) | none => true) } ∧
      (let n := r.billets.countP (fun e => match e.tailAfter with | some x => decide (x ≤ p.tail) | none => false)
       0 < n → u.dev.counter Counter.billetDelivered (resKey t key) = min counterMax (s.dev.counter Counter.billetDelivered (resKey t key) + n))) ∧
  (∀ (t key o : Nat) (r : Reservoir) (w : Write) (s : State), s.dev.stopped = false → s.dev.res? (resKey t key) = some r → r.tails = [] → r.fences = [] →
    r.writes = [w] → w.posted = some o →
    Completes (.rdmaAck t key) s (fun d => (d.modRes (resKey t key) (fun x => { x with retries := 0, writes := x.writes.filter (fun v => v.posted != some o) })).pushAll (resKey t key)))

/-- R490, R492, R497, R508, R510, R524, R714: what fails a queue pair or a port. An error of an ACTIVE reservoir's pair makes it FAILED with its
billets given up and posts RESERVOIR_FAILED to the tenant and to the administrative window; a peer's makes it DOWN; an ACK timeout repeats the packets
seven times and then is such an error; a port that loses its link or its reference clock leaves service with its ACTIVE reservoirs; and a detached
reservoir with nothing outstanding is gone. -/
def Obligations.QueuePairsAndPortsFail : Prop :=
  (∀ (t key reason : Nat) (r : Reservoir) (s : State), s.dev.stopped = false → s.dev.res? (resKey t key) = some r → r.state = .active →
    ∃ u r', exec (.qpError (.reservoir t key) reason) s = .next u ∧ u.pending = s.pending ∧ u.hdr = s.hdr ∧ u.dev.res? (resKey t key) = some r' ∧
      r'.state = .failed ∧ r'.billets = [] ∧ r'.writes = [] ∧ r'.fences = [] ∧ r'.tails = [] ∧ r'.due = [] ∧ r'.acked = r.acked) ∧
  (∀ (p reason : Nat) (x : Peer) (s : State), s.dev.stopped = false → s.dev.peer? p = some x → x.up = true →
    ∃ u, exec (.qpError (.peer p) reason) s = .next u ∧ u.pending = s.pending ∧ u.hdr = s.hdr ∧
      u.dev.peer? p = some { x with qpError := true, up := false, downTick := s.dev.tick.count }) ∧
  (∀ (t key : Nat) (r : Reservoir) (s : State), s.dev.stopped = false → s.dev.res? (resKey t key) = some r → r.tails ≠ [] →
    (r.retries < 7 → Completes (.localAckTimeout (.reservoir t key)) s (fun d =>
      (d.modRes (resKey t key) (fun x => { x with retries := x.retries + 1 })).emit (.rdmaRetry (resQpn (resKey t key))))) ∧
    (7 ≤ r.retries → exec (.localAckTimeout (.reservoir t key)) s = exec (.qpError (.reservoir t key) 1) s)) ∧
  (∀ (p : Nat) (s : State), s.dev.stopped = false → s.dev.portUp p = true →
    (∃ u, exec (.portLinkLoss p) s = .next u ∧ u.pending = s.pending ∧ u.hdr = s.hdr ∧ u.dev.portUp p = false ∧
      (∀ q, q ≠ p → u.dev.portUp q = s.dev.portUp q) ∧
      ∀ key r, s.dev.res? key = some r → r.port = p → r.state = .active → ∃ r', u.dev.res? key = some r' ∧ r'.state = .failed) ∧
    exec (.ethRefclkLoss p) s = exec (.portLinkLoss p) s) ∧
  (∀ (t key : Nat) (r : Reservoir) (s : State), s.dev.stopped = false → s.dev.res? (resKey t key) = some r → r.state = .detaching →
    (∀ w ∈ r.writes, w.posted = none) → r.fences = [] → r.tails = [] →
    ∃ u, exec (.consumerDetachDone t key) s = .next u ∧ u.pending = s.pending ∧ u.hdr = s.hdr ∧ u.dev.res? (resKey t key) = none ∧
      ∀ k, k ≠ resKey t key → u.dev.res? k = s.dev.res? k)

/-- R502, R512: a CNP that comes at least 50 µs after the last decrease multiplies a reservoir's rate by 1 − α/2, held at 12.5 bytes per µs, moves α
an 1/256th of the way to 1 and counts RATE_DECREASE; a nearer one only marks the period. A period without a CNP adds 500 bytes per µs, up to 100,000,
and lowers α by 1/256th; one with a CNP leaves both. A gauge page write or a gauge read response becomes the sample of the next boundary, for a
reservoir of its kind. -/
def Obligations.RatesAndGauges : Prop :=
  (∀ (t key ns : Nat) (r : Reservoir) (s : State), s.dev.stopped = false → s.dev.res? (resKey t key) = some r →
    ((r.lastDecrease = none ∨ 50000 ≤ ns) → ∃ u, exec (.cnpReceived (.reservoir t key) ns) s = .next u ∧ u.pending = s.pending ∧ u.hdr = s.hdr ∧
      u.dev.res? (resKey t key) = some { r with rate := max (125 / 10) (r.rate * (1 - r.alpha / 2)), alpha := (1 - 1 / 256) * r.alpha + 1 / 256, lastDecrease := some 0, cnpInPeriod := true } ∧
      u.dev.counter Counter.rateDecrease 0 = min counterMax (s.dev.counter Counter.rateDecrease 0 + 1)) ∧
    (r.lastDecrease ≠ none → ns < 50000 →
      ∃ u, exec (.cnpReceived (.reservoir t key) ns) s = .next u ∧ u.pending = s.pending ∧ u.hdr = s.hdr ∧
      u.dev.res? (resKey t key) = some { r with cnpInPeriod := true }) ∧
    (r.cnpInPeriod = false → ∃ u, exec (.congestionIncrease (.reservoir t key)) s = .next u ∧ u.pending = s.pending ∧ u.hdr = s.hdr ∧
      u.dev.res? (resKey t key) = some { r with rate := min 100000 (r.rate + 500), alpha := (1 - 1 / 256) * r.alpha }) ∧
    (r.cnpInPeriod = true → ∃ u, exec (.congestionIncrease (.reservoir t key)) s = .next u ∧ u.pending = s.pending ∧ u.hdr = s.hdr ∧
      u.dev.res? (resKey t key) = some { r with cnpInPeriod := false }) ∧
    (r.gaugeRead = false → ∀ data : List Byte, data.length = 8 → ∃ u, exec (.gaugePageWrite t key data) s = .next u ∧ u.pending = s.pending ∧ u.hdr = s.hdr ∧
      u.dev.res? (resKey t key) = some { r with gauge := some (leNat data) }) ∧
    (r.gaugeRead = true → ∀ v : Nat, v < 2 ^ 64 → ∃ u, exec (.gaugeReadResponse t key v) s = .next u ∧ u.pending = s.pending ∧ u.hdr = s.hdr ∧
      u.dev.res? (resKey t key) = some { r with gaugeNext := some v }))

/-- R491, R527 to R530: a frame that the parser drops raises the counter of its reason and has no other effect; one that matches a live-ingest stream
with room, of a tenant without a policer, on a device without PTP time, is accepted untimed as the stream's next sample; an ARP request for a local
GID's address and a good Neighbor Solicitation for a local GID are answered to the asker from the port's MAC address with a frame check sequence over
the answer. -/
def Obligations.FramesAreTakenOrDropped : Prop :=
  (∀ (port ns : Nat) (frame : List Byte) (x : Drop) (s : State), s.dev.stopped = false → s.dev.portUp port = true → frame.length ≤ 9216 →
    parseFrame (s.dev.parseCtx port) frame = .dropped x → Completes (.ingressFrame port frame ns) s (fun d => d.count x.counter 0 1)) ∧
  (∀ (port ns sid start stop capture : Nat) (frame : List Byte) (st : Stream) (g : Ingest) (p : Prog) (s : State), s.dev.stopped = false → s.dev.portUp port = true →
    frame.length ≤ 9216 → parseFrame (s.dev.parseCtx port) frame = .ingest sid start stop capture → s.dev.stream? sid = some st → st.ingest = some g →
    s.dev.progOfStream st = some p → s.dev.boundaryPtp = none → (AMap.get? s.dev.tenants st.tenant).bind Tenant.policer = none → st.undrawn < st.depth →
    Completes (.ingressFrame port frame ns) s (fun d =>
      (d.count Counter.ingestUntimed st.tenant 1).acceptFrame sid (bytesAt frame (start - 32) 32) (bytesAt frame start (stop - start)) capture 0 ns)) ∧
  (∀ (port off : Nat) (frame : List Byte) (s : State), s.dev.stopped = false → s.dev.portUp port = true → parseFrame (s.dev.parseCtx port) frame = .arp off →
    off + 28 ≤ frame.length → bytesAt frame off 8 = [0, 1, 8, 0, 6, 4, 0, 1] → (s.dev.localGids port).contains (mappedGid (bytesAt frame (off + 24) 4)) = true →
    ∃ f, Completes (.arpRequest port frame) s (fun d => d.emit (.ethFrame port f)) ∧ 64 ≤ f.length ∧ bytesAt f 0 6 = bytesAt frame (off + 8) 6 ∧
      bytesAt f 6 6 = s.dev.portMac port ∧ f.drop (f.length - 4) = leBytes 4 (crc32 (f.take (f.length - 4)))) ∧
  (∀ (port ip off stop : Nat) (frame : List Byte) (s : State), s.dev.stopped = false → s.dev.portUp port = true →
    parseFrame (s.dev.parseCtx port) frame = .solicit ip off stop → 24 ≤ stop - off →
    fold16 (sum16 (bytesAt frame (ip + 8) 32) + 58 + (stop - off) + sum16 (bytesAt frame off (stop - off))) = 65535 → bytesAt frame (ip + 7) 1 = [0xFF] →
    bytesAt frame (off + 1) 1 = [0] → (s.dev.localGids port).contains (bytesAt frame (off + 8) 16) = true →
    ∃ f, Completes (.neighborSolicitation port frame) s (fun d => d.emit (.ethFrame port f)) ∧ 64 ≤ f.length ∧ bytesAt f 0 6 = bytesAt frame 6 6 ∧
      bytesAt f 6 6 = s.dev.portMac port ∧ f.drop (f.length - 4) = leBytes 4 (crc32 (f.take (f.length - 4))))

/-! ### Peers -/

/-- R521, R522: what a peer asks of this device. A MANIFEST_QUERY of a sealed dataset is answered with its hash; a READ_REQ of a dataset that is not
there with READ_FAIL 1, of another hash with READ_FAIL 2; a served sample is answered link by link, and its RELEASE, or 100 ms, frees it. -/
def Obligations.PeersAreServed : Prop :=
  (∀ (peer : Nat) (b : List Byte) (m : PeerMsg) (s : State), s.dev.stopped = false → (s.dev.peer? peer).isSome = true → parsePeerMsg b = some m →
    (m.type_ = 1 → ∀ t, AMap.get? s.dev.face.datasets m.dataset = some t → t.sealed_ = true →
      Completes (.manifestQuery peer b) s (fun d => d.emit (.rdmaSend (peerQpn peer) ({ PeerMsg.simple 2 m.dataset m.tag with manifest := t.manifest } : PeerMsg).bytes))) ∧
    (m.type_ = 3 → AMap.get? s.dev.face.datasets m.dataset = none →
      Completes (.readReq peer b) s (fun d => d.emit (.rdmaSend (peerQpn peer) ({ PeerMsg.simple 5 m.dataset m.tag with reason := 1, index := m.index } : PeerMsg).bytes))) ∧
    (m.type_ = 3 → ∀ t, AMap.get? s.dev.face.datasets m.dataset = some t → t.manifest ≠ m.manifest →
      Completes (.readReq peer b) s (fun d => d.emit (.rdmaSend (peerQpn peer) ({ PeerMsg.simple 5 m.dataset m.tag with reason := 2, index := m.index } : PeerMsg).bytes))) ∧
    (m.type_ = 3 → ∀ t, AMap.get? s.dev.face.datasets m.dataset = some t → t.sealed_ = true → t.manifest = m.manifest → m.index < t.count → s.dev.haul.served.length < 4096 →
      ∃ u, exec (.readReq peer b) s = .next u ∧ u.pending = s.pending ∧ u.hdr = s.hdr ∧
        u.dev.haul.served = s.dev.haul.served ++ [{ peer := peer, tag := m.tag, dataset := m.dataset, index := m.index, bufs := [], data := [], ready := false }]) ∧
    (m.type_ = 6 → ∃ u, exec (.release peer b) s = .next u ∧ u.pending = s.pending ∧ u.hdr = s.hdr ∧ u.dev.served? peer m.tag = none)) ∧
  (∀ (peer tag : Nat) (v : Served) (s : State), s.dev.stopped = false → s.dev.served? peer tag = some v → v.ready = true → v.bufs = [] →
    ∃ u, exec (.peerReleaseTimeout peer tag) s = .next u ∧ u.pending = s.pending ∧ u.hdr = s.hdr ∧ u.dev.served? peer tag = none ∧
      u.dev.counter Counter.peerReleaseTimeout 0 = min counterMax (s.dev.counter Counter.peerReleaseTimeout 0 + 1)) ∧
  (∀ (peer link : Nat) (v : Served) (s : State), s.dev.stopped = false →
    s.dev.haul.served.find? (fun x => x.peer == peer && x.ready && x.bufs.contains link) = some v → v.bufs.head? = some link →
    Completes (.peerBufferRdmaRead peer link) s (fun d => d.emit (.rdmaReadResponse (peerQpn peer) (v.data.take 16777216))))

/-- R521, R523, R524: what this device asks of a peer. READ_READY of an outstanding request is answered by an RDMA READ of each link; a BUSY answer
leaves the request to wait a tick; the third timeout in a row makes the peer DOWN; a sample read in full is released and goes on to the Face; 2,500
ticks after its last probe a DOWN peer is asked again; and the manifest that matches makes it UP. -/
def Obligations.PeersAreAsked : Prop :=
  (∀ (peer : Nat) (b : List Byte) (m : PeerMsg) (q : PeerReq) (s : State), s.dev.stopped = false → parsePeerMsg b = some m → s.dev.req? peer m.tag = some q →
    (m.type_ = 4 → q.waiting = false → q.links = [] → ∀ a, m.links = [a] → chainLinks m.length = [m.length] →
      ∃ u, exec (.readReady peer b) s = .next u ∧ u.pending = s.pending ∧ u.hdr = s.hdr ∧
        u.dev.out = .rdmaRead (peerQpn peer) a m.rkey m.length :: s.dev.out ∧
        u.dev.req? peer m.tag = some { q with links := [a], length := m.length, rkey := m.rkey }) ∧
    (m.type_ = 5 → m.reason = 4 →
      ∃ u, exec (.readFail peer b) s = .next u ∧ u.pending = s.pending ∧ u.hdr = s.hdr ∧
        u.dev.req? peer m.tag = some { q with waiting := true, sentTick := s.dev.tick.count + 1 } ∧ u.dev.out = s.dev.out)) ∧
  (∀ (peer tag : Nat) (q : PeerReq) (x : Peer) (s : State), s.dev.stopped = false → s.dev.req? peer tag = some q → s.dev.peer? peer = some x → q.waiting = false →
    q.links = [] → x.timeouts = 2 → x.up = true →
    ∃ u y, exec (.peerRequestTimeout peer tag) s = .next u ∧ u.pending = s.pending ∧ u.hdr = s.hdr ∧ u.dev.peer? peer = some y ∧ y.up = false ∧ y.timeouts = 3) ∧
  (∀ (peer tag : Nat) (q : PeerReq) (s : State), s.dev.stopped = false → s.dev.req? peer tag = some q → q.waiting = true → 0 < q.sentTick → q.sentTick ≤ s.dev.tick.count →
    Completes (.peerBusyRetry peer tag) s (fun d => d.sendReq q)) ∧
  (∀ (peer tag : Nat) (data : List Byte) (q : PeerReq) (st : Stream) (s : State), s.dev.stopped = false → s.dev.req? peer tag = some q → q.links ≠ [] →
    data.length = q.length → q.hedge = false → s.dev.stream? q.stream = some st → st.replayOf = none →
    Completes (.peerLinkReadDone peer tag data) s (fun d =>
      (((d.dropReq tag).sendPeer peer (PeerMsg.simple 6 0 tag)).peerSupply q.stream q.pos peer data 0).sendWaiting)) ∧
  (∀ (peer : Nat) (x : Peer) (s : State), s.dev.stopped = false → s.dev.peer? peer = some x → x.up = false → x.downTick + 2500 ≤ s.dev.tick.count →
    ∃ u, exec (.peerProbe peer) s = .next u ∧ u.pending = s.pending ∧ u.hdr = s.hdr ∧ u.dev.peer? peer = some { x with downTick := s.dev.tick.count } ∧
      ∃ ds, u.dev.out = .rdmaSend (peerQpn peer) (PeerMsg.simple 1 ds s.dev.haul.nextTag).bytes :: s.dev.out) ∧
  (∀ (peer : Nat) (b : List Byte) (m : PeerMsg) (x : Peer) (k : Nat) (t : Dataset) (s : State), s.dev.stopped = false → parsePeerMsg b = some m → m.type_ = 2 →
    s.dev.peer? peer = some x → x.up = false → AMap.get? s.dev.face.datasets k = some t → t.sealed_ = true → t.manifest = m.manifest →
    t.placement.any (fun r => r.peer == peer && r.dataset == m.dataset) = true →
    ∃ u t', exec (.manifestReply peer b) s = .next u ∧ u.pending = s.pending ∧ u.hdr = s.hdr ∧ u.dev.peer? peer = some { x with up := true, timeouts := 0, qpError := false } ∧
      AMap.get? u.dev.face.datasets k = some t' ∧ t'.placement = t.placement.map (fun r => if r.peer = peer ∧ r.dataset = m.dataset then { r with usable := true } else r))

/-! ### Recording, the TICK bus, PTP and tick epochs -/

/-- R589, R590, R595: a frame that fails its check raises TICK_FRAME_BAD of a device on the bus and has no other effect; a good frame whose count an
aligned follower shares gives it the period and SOURCE 1, and one with another count and no RESYNC flag is bad; an aligned follower that misses two
pulses is out of alignment with SOURCE 0, counts SYNC_LOSS and posts SYNC_LOST with cause 1. R591, R595: of a PTP member, an offset within ±45 ns is
one more good Sync in a row, and the sixteenth locks PTP; one beyond ±500 ns is one more bad one, and the eighth of a locked member loses it; 3 s
without a Sync lose it too; and a device that is no PTP member takes no Sync. -/
def Obligations.GroupMembersAlign : Prop :=
  (∀ (b : List Byte) (s : State), s.dev.stopped = false → s.dev.onBus = true → parseTickFrame b = none →
    Completes (.tickBusFrame b) s (fun d => d.count Counter.tickFrameBad 0 1)) ∧
  (∀ (b : List Byte) (s : State), s.dev.stopped = false → s.dev.onBus = false → exec (.tickBusFrame b) s = .next s) ∧
  (∀ (b : List Byte) (t p f : Nat) (s : State), s.dev.stopped = false → s.dev.onBus = true → s.dev.isFollower = true → s.dev.group.awaiting = false → s.dev.group.aligned = true →
    parseTickFrame b = some (t, p, f) → f % 2 = 0 →
    (t = s.dev.tick.count → Completes (.tickBusFrame b) s (fun d => { d with tick := { d.tick with periodUs := p, source := 1 } })) ∧
    (t ≠ s.dev.tick.count → Completes (.tickBusFrame b) s (fun d => d.count Counter.tickFrameBad 0 1))) ∧
  (∀ t p f : Nat, t < 2 ^ 64 → 100 ≤ p → p ≤ 1600 → f < 32 → parseTickFrame (tickFrameBytes t p f) = some (t, p, f)) ∧
  (∀ s : State, s.dev.stopped = false → s.dev.isFollower = true → s.dev.group.member ≠ none → s.dev.group.aligned = true →
    ∃ t, exec .tickPulseMissing s = .next t ∧ t.pending = s.pending ∧ t.hdr = s.hdr ∧ t.dev.tick = { s.dev.tick with source := 0 } ∧
      t.dev.group = { s.dev.group with aligned := false, ptpLocked := false, syncGood := 0, syncBad := 0 } ∧
      t.dev.counter Counter.syncLoss 0 = min counterMax (s.dev.counter Counter.syncLoss 0 + 1)) ∧
  (∀ (o : Int) (b : Nat) (s : State), s.dev.stopped = false → s.dev.ptpMember = true →
    (o.natAbs ≤ 45 → s.dev.group.syncGood < 15 → Completes (.ptpSyncMessage o b) s (fun d => { d with group := { d.group with
      ptpOffset := o, syncGood := d.group.syncGood + 1, syncBad := 0, ptpRef := some (b, d.tick.clockNs) } })) ∧
    (o.natAbs ≤ 45 → s.dev.group.syncGood = 15 → ∃ t, exec (.ptpSyncMessage o b) s = .next t ∧ t.pending = s.pending ∧ t.hdr = s.hdr ∧ t.dev.group.ptpLocked = true ∧
      t.dev.group.ptpOffset = o ∧ t.dev.tick = s.dev.tick) ∧
    (45 < o.natAbs → o.natAbs ≤ 500 → Completes (.ptpSyncMessage o b) s (fun d => { d with group := { d.group with
      ptpOffset := o, syncGood := 0, syncBad := 0, ptpRef := some (b, d.tick.clockNs) } })) ∧
    (500 < o.natAbs → 7 ≤ s.dev.group.syncBad → s.dev.group.ptpLocked = true → ∃ t, exec (.ptpSyncMessage o b) s = .next t ∧ t.pending = s.pending ∧ t.hdr = s.hdr ∧
      t.dev.group.ptpLocked = false ∧ t.dev.group.aligned = false ∧ t.dev.tick.source = 0)) ∧
  (∀ s : State, s.dev.stopped = false → s.dev.ptpMember = true → s.dev.group.ptpLocked = true →
    ∃ t, exec .ptpSyncTimeout s = .next t ∧ t.pending = s.pending ∧ t.hdr = s.hdr ∧ t.dev.group.ptpLocked = false ∧ t.dev.group.aligned = false ∧ t.dev.tick.source = 0 ∧
      t.dev.counter Counter.syncLoss 0 = min counterMax (s.dev.counter Counter.syncLoss 0 + 1)) ∧
  (∀ (o : Int) (b : Nat) (s : State), s.dev.stopped = false → s.dev.ptpMember = false → exec (.ptpSyncMessage o b) s = .next s ∧ exec .ptpSyncTimeout s = .next s)

/-! ### The tick -/

/-- R15, R16, R20: a boundary adds one to the count and one period to the clock, whatever the device holds; a member that waits for its reference, or
a device whose generator stands, makes none. On a device with no stream, reservoir, item or request the whole boundary leaves the count so, and no
plan. -/
def Obligations.BoundariesCount : Prop :=
  (∀ (f : BoundaryFound) (s : State), s.dev.stopped = false → s.dev.makesBoundary = true →
    Completes (.tickBoundary f) s (fun d => d.boundary f none) ∧
    (((s.dev.energyBoundary f).crossItems).nextCount).tick.count = s.dev.tick.count + 1 ∧
    (((s.dev.energyBoundary f).crossItems).nextCount).tick.clockNs = s.dev.tick.clockNs + s.dev.tick.periodUs * 1000) ∧
  (∀ (f : BoundaryFound) (s : State), s.dev.stopped = false → (s.dev.tick.running = false ∨ s.dev.group.awaiting = true) → exec (.tickBoundary f) s = .next s) ∧
  (∀ (f : BoundaryFound) (s : State), s.dev.stopped = false → s.dev.makesBoundary = true → s.dev.streams = [] → s.dev.haul.reservoirs = [] → s.dev.haul.reqs = [] →
    s.dev.tick.items = [] →
    ∃ t, exec (.tickBoundary f) s = .next t ∧ t.pending = s.pending ∧ t.hdr = s.hdr ∧ t.dev.tick.count = s.dev.tick.count + 1 ∧ t.dev.tick.plan = none ∧ t.dev.streams = []) ∧
  (∀ (f : BoundaryFound) (e : TickEpoch) (s : State), s.dev.stopped = false → s.dev.group.epoch = some e → s.dev.tick.running = true → s.dev.barrierWaits = false → 0 < e.tickAt →
    Completes (.tickEpochTakesEffect f) s (fun d => (d.renumber (e.tickAt - 1)).boundary f (some e)) ∧
    (((((s.dev.renumber (e.tickAt - 1)).energyBoundary f).crossItems).nextCount).beginTickEpoch e).tick.count = e.tickAt ∧
    (((((s.dev.renumber (e.tickAt - 1)).energyBoundary f).crossItems).nextCount).beginTickEpoch e).tick.periodUs = e.period)

/-- R20 to R28, R389 to R391, R612, R622: the plan of the next tick is frozen once, for the tick after the running one, and lists the items admitted
to it; a device that is reaching a shallower power state freezes an empty one. A cell of the frozen launch list pre-charges once; a cell of the
released list leaves it and starts its work 31.25 ns times its number modulo 64 after the boundary. -/
def Obligations.PlansAreFrozenAndReleased : Prop :=
  (∀ s : State, s.dev.stopped = false → s.dev.tick.running = true → s.dev.tick.plan = none →
    ∃ t p, exec .planFreeze s = .next t ∧ t.pending = s.pending ∧ t.hdr = s.hdr ∧ t.dev.tick.plan = some p ∧ p.tick = s.dev.tick.count + 1 ∧
      (s.dev.plansNothing = true → p.items = [] ∧ p.launch = [] ∧ t.dev.tick.items = s.dev.tick.items ∧ t.dev.tick.count = s.dev.tick.count) ∧
      (s.dev.plansNothing = false → p.items = (t.dev.plannedFor (s.dev.tick.count + 1)).map Item.id)) ∧
  (∀ (p : Plan) (s : State), s.dev.stopped = false → s.dev.tick.plan = some p → s.dev.tick.count < p.tick → exec .planFreeze s = .next s) ∧
  (∀ (cell : CellRef) (c : Nat) (p : Plan) (s : State), s.dev.stopped = false → s.dev.cellOf cell = some c → s.dev.tick.plan = some p → p.launch.contains c = true →
    s.dev.tick.precharge.contains c = false →
    Completes (.stagedLaunchPrecharge cell) s (fun d => { d with tick := { d.tick with precharge := d.tick.precharge ++ [c] } })) ∧
  (∀ (cell : CellRef) (c : Nat) (s : State), s.dev.stopped = false → s.dev.cellOf cell = some c →
    (s.dev.tick.launch.contains c = true → Completes (.stagedLaunchRelease cell) s (fun d =>
      Dev.startItems { d with tick := { d.tick with launch := d.tick.launch.filter (fun x => x != c), precharge := d.tick.precharge.filter (fun x => x != c) } } (c % 64 * 125 / 4))) ∧
    (s.dev.tick.launch.contains c = false → exec (.stagedLaunchRelease cell) s = .next s))

/-- R19, R27, R59, R504: a work item that does not run, or that would end before it started, does not complete; an EMIT whose writes are posted leaves
the items; a media item of storage ends the Read that asked for it; and an item of a later op, of a class without heats, has its run measured and its
output delivered. -/
def Obligations.WorkItemsComplete : Prop :=
  (∀ (id at_ : Nat) (i : Item) (s : State), s.dev.stopped = false → s.dev.item? id = some i → (i.phase ≠ .running ∨ at_ < i.startAt) →
    exec (.workItemComplete id at_) s = .next s) ∧
  (∀ (id at_ key seq : Nat) (i : Item) (s : State), s.dev.stopped = false → s.dev.item? id = some i → i.phase = .running → i.startAt ≤ at_ → i.cls = 4 →
    i.job = .emit key seq → s.dev.emitPosted key seq = true → Completes (.workItemComplete id at_) s (fun d => d.dropItem i.id)) ∧
  (∀ (id at_ cmd : Nat) (i : Item) (c : NvmeCmd) (s : State), s.dev.stopped = false → s.dev.item? id = some i → i.phase = .running → i.startAt ≤ at_ → i.cls = 0 →
    s.dev.itemUnit i = .die → i.job = .storage cmd → s.dev.nvme.cmds.find? (fun c => c.id == cmd) = some c →
    Completes (.workItemComplete id at_) s (fun d =>
      ((((d.dropItem i.id).dropCmd cmd).nvmeReadDone c.sq c.cid c.nsid c.lba c.blocks).resumeTest).startItems at_)) ∧
  (∀ (id at_ sid pos k : Nat) (i : Item) (s : State), s.dev.stopped = false → s.dev.item? id = some i → i.phase = .running → i.startAt ≤ at_ → i.cls = 1 → i.out = none →
    i.job = .sample sid pos (k + 1) →
    Completes (.workItemComplete id at_) s (fun d =>
      (((d.chargeItem i at_).endSample i sid pos (k + 1) (i.runFor at_) at_).heatComplete i).startItems at_ |>.epochComplete sid))

/-- R35, R45, R65, R242, R248, R556, R598: what takes effect at a tick of its own. A change of period and a gate list once their tick has come, and
not before; a DEMOTED unit is due a probe 64 ticks after its last; a deferred sample that is older than DEFER_LIMIT is reported once for each
multiple; SLC_LIMIT is computed at every 1,024th tick; a slow read is hedged at most once in 32 reads of the tick. -/
def Obligations.TimedEffects : Prop :=
  (∀ (p at_ : Nat) (s : State), s.dev.stopped = false → s.dev.tick.change = some (p, at_) → s.dev.barrierWaits = false →
    (at_ ≤ s.dev.tick.count → Completes .periodChangeTakesEffect s (fun d => { d with
      tick := { d.tick with periodUs := p, change := none }
      hearth := { d.hearth with periodAt := none } })) ∧
    (s.dev.tick.count < at_ → exec .periodChangeTakesEffect s = .next s)) ∧
  (∀ (t : Nat) (x : Tenant) (g : GateList) (s : State), s.dev.stopped = false → AMap.get? s.dev.tenants t = some x → x.gatesPending = some g →
    (g.start ≤ s.dev.tick.count → ∃ u, exec (.gateListTakesEffect t) s = .next u ∧ u.pending = s.pending ∧ u.hdr = s.hdr ∧
      AMap.get? u.dev.tenants t = some { x with gates := if g.entries = [] then none else some g, gatesPending := none }) ∧
    (s.dev.tick.count < g.start → exec (.gateListTakesEffect t) s = .next s)) ∧
  (∀ (u : Nat) (s : State), s.dev.stopped = false →
    let x := s.dev.unit (UnitClass.ofCode (u / 65536)) (u % 65536)
    (x.service = .demoted → x.lastProbe + 64 ≤ s.dev.tick.count → Completes (.limpProbe u) s (fun d =>
      d.modUnit (UnitClass.ofCode (u / 65536)) (u % 65536) (fun r => { r with lastProbe := d.tick.count, probeDue := true }))) ∧
    (x.service ≠ .demoted ∨ s.dev.tick.count < x.lastProbe + 64 → exec (.limpProbe u) s = .next s)) ∧
  (∀ (sid pos : Nat) (st : Stream) (x : Deferred) (s : State), s.dev.stopped = false → s.dev.stream? sid = some st → st.deferred.find? (fun y => y.pos == pos) = some x →
    (s.dev.param ParamId.deferLimit st.tenant * (x.stalls + 1) ≤ s.dev.tick.count - x.tick →
      ∃ u st', exec (.deferStalled sid pos) s = .next u ∧ u.pending = s.pending ∧ u.hdr = s.hdr ∧ u.dev.stream? sid = some st' ∧
        st'.deferred = st.deferred.map (fun z => if z.pos = pos then { z with stalls := z.stalls + 1 } else z)) ∧
    (s.dev.tick.count - x.tick < s.dev.param ParamId.deferLimit st.tenant * (x.stalls + 1) → exec (.deferStalled sid pos) s = .next s)) ∧
  (∀ s : State, s.dev.stopped = false →
    (s.dev.tick.count % 1024 = 0 ∨ s.dev.face.recompute = true → Completes .slcLimitRecompute s Dev.recomputeSlc) ∧
    (s.dev.tick.count % 1024 ≠ 0 → s.dev.face.recompute = false → exec .slcLimitRecompute s = .next s)) ∧
  (∀ (id sid pos : Nat) (i : Item) (e : Dev) (s : State), s.dev.stopped = false → s.dev.item? id = some i → i.job = .sample sid pos 0 → i.phase = .running → i.out = none →
    i.discard = false → ((s.dev.stream? sid).bind s.dev.progOfStream).any Prog.peerOk = true → i.due ≤ s.dev.tick.count + 1 →
    s.dev.haul.reqs.any (fun q => q.stream == sid && q.pos == pos) = false →
    (32 * (s.dev.face.hedgesThisTick + 1) ≤ s.dev.face.readsThisTick → s.dev.askPeer sid pos true = some e →
      Completes (.readHedge id) s (fun _ => Dev.count { e with face := { e.face with hedgesThisTick := e.face.hedgesThisTick + 1 } } Counter.hedgeIssued 0 1)) ∧
    (s.dev.face.readsThisTick < 32 * (s.dev.face.hedgesThisTick + 1) → exec (.readHedge id) s = .next s))

/-! ### The media -/

/-- R216 to R221, R244: what fails on the NAND. A page that takes n soft reads (1 to 3) counts n SOFT_READ and nothing else; a failed program marks
the last position sent to its member and makes the bench WEAK; a verify makes a closed bench VERIFIED or WEAK; an erased block is ERASED, one whose
erase fails is retired with a spare in its place; a die that fails is FAILED with FACE_FAULT and DIE_FAILED, and so does every die of a channel that
fails to retrain. -/
def Obligations.MediaFailures : Prop :=
  (∀ (ds off n e k : Nat) (t : Dataset) (x : Extent) (s : State), s.dev.stopped = false → ds ≠ 0xFFFF → AMap.get? s.dev.face.datasets ds = some t →
    s.dev.extentAt t off = some (e, x, k) → x.unreadable.contains k = false → (s.dev.pagePlace x k).isSome = true → 1 ≤ n → n ≤ 3 →
    Completes (.pageDecodeFail ds off (.soft n)) s (fun d => d.count Counter.softRead 0 n)) ∧
  (∀ (id m : Nat) (b : Bench) (s : State), s.dev.stopped = false → AMap.get? s.dev.face.benches id = some b → b.state = .opened → m < b.members.length → m < b.endPos →
    ∃ pos, pos < b.endPos ∧ b.endPos ≤ pos + b.members.length ∧ pos % b.members.length = m ∧
      Completes (.programFail id m) s (fun d => (d.weaken id (fun x => { x with failed := x.failed ++ [pos] })).count Counter.programFail 0 1)) ∧
  (∀ (id : Nat) (b : Bench) (s : State), s.dev.stopped = false → AMap.get? s.dev.face.benches id = some b →
    (b.state = .closed → Completes (.benchVerify id true) s (fun d =>
      (((b.members.foldl (fun d m => d.setBlock m.1 m.2 .verified) d).modBench id (fun x => { x with state := .verified, parityBench := none })).reclaimBench id).releaseParity)) ∧
    (b.state = .closed → Completes (.benchVerify id false) s (fun d => (d.weaken id (fun x => x)).count Counter.benchWeak 0 1)) ∧
    (b.state ≠ .closed → ∀ ok, exec (.benchVerify id ok) s = .next s)) ∧
  (∀ (die b : Nat) (x : Die) (s : State), s.dev.stopped = false → AMap.get? s.dev.face.dies die = some x → s.dev.blockState x b = .stale → x.state ≠ .failed → x.state ≠ .absent →
    Completes (.eraseDone die b true) s (fun d => (d.setBlock die b .erased).blockReturned die b) ∧
    ((s.dev.takeSpare die).isSome = true → Completes (.eraseDone die b false) s (fun d => (d.retireBlock die b).blockReturned die b))) ∧
  (∀ (n : Nat) (s : State), s.dev.stopped = false → s.dev.dieState n ≠ .absent → s.dev.dieState n ≠ .failed → s.dev.tick.items = [] →
    (∀ p ∈ s.dev.face.benches, ∀ m ∈ p.2.members, m.1 ≠ n) →
    Completes (.dieFailed n) s (fun d =>
      let e := ((d.setDie n .failed).chipTrouble ChipBit.faceFault).event adminWin EventCode.dieFailed 0 [(20, 2, n), (24, 4, 0)]
      { e with face := { e.face with recompute := true } })) ∧
  (∀ (n : Nat) (s : State), s.dev.stopped = false → (s.dev.dieState n = .absent ∨ s.dev.dieState n = .failed) → exec (.dieFailed n) s = .next s) ∧
  (∀ (c : Nat) (s : State), s.dev.stopped = false → Completes (.channelRetrainFail c) s (fun d => (List.range 16).foldl (fun d e => d.dieFails (16 * c + e)) d))

/-- R226, R238, R240, R413: what the media get done. A flushed journal has an empty tail and its last record flashed, and a checkpoint of the maps
covers it; room under DIRTY_PERMIT programs chunks and then takes up what waits; an extent that is closed while some of it is dirty is live with its
digest; a finished fold counts its pages; and a finished sweep is no longer owed. -/
def Obligations.MediaProgress : Prop :=
  (∀ s : State, s.dev.stopped = false →
    Completes .journalTailFlush s (fun d => { d with face := { d.face with journalTail := [], flashedSeq := d.face.journalSeq } }) ∧
    Completes .mapsCheckpoint s (fun d => { d with face := { d.face with journalTail := [], flashedSeq := d.face.journalSeq, checkpointSeq := d.face.journalSeq } })) ∧
  (∀ (n : Nat) (s : State), s.dev.stopped = false →
    (s.dev.bellows.slumber = false → Completes (.writePermitRoom n) s (fun d => (Dev.programWaiting (d.programChunks n).1 (d.programChunks n).2.admitNvme).2)) ∧
    (s.dev.bellows.slumber = true → exec (.writePermitRoom n) s = .next s)) ∧
  (∀ (n e : Nat) (t : Dataset) (x : Extent) (s : State), s.dev.stopped = false → AMap.get? s.dev.face.datasets n = some t → t.openExtent = some e →
    AMap.get? s.dev.face.extents e = some x → x.dirty ≠ 0 →
    ∃ u t' x', exec (.openExtentClose n) s = .next u ∧ u.pending = s.pending ∧ u.hdr = s.hdr ∧ AMap.get? u.dev.face.datasets n = some t' ∧ t'.openExtent = none ∧
      AMap.get? u.dev.face.extents e = some x' ∧ x'.state = .live ∧ x'.digest = sha256 x.data ∧ x'.data = x.data) ∧
  (∀ (e : Nat) (x : Extent) (d' : Dev) (s : State), s.dev.stopped = false → e < 2 ^ 32 → AMap.get? s.dev.face.extents e = some x → x.state ≠ .discarded → x.programmed = true →
    s.dev.foldNext x = true → (s.dev.losePages ((List.range (pagesOf x.length)).map (fun k => (e, k)))).settleExtent e x true = some d' →
    Completes (.maintenanceMoveDone e) s (fun _ => (d'.releasePages x).count Counter.foldPage 0 (pagesOf x.length))) ∧
  (∀ (k g : Nat) (w : Sweep) (s : State), s.dev.stopped = false → s.dev.screen.sweeps.find? (fun y => y.table == k && y.gen == g) = some w →
    ∃ u, exec (.dedupSweepDone k g) s = .next u ∧ u.pending = s.pending ∧ u.hdr = s.hdr ∧ u.dev.screen.sweeps = s.dev.screen.sweeps.erase w)

/-! ### What commands with tickets, drains and configuration leave -/

/-- R196, R229 to R231, R238, R417 to R422: a load whose validation succeeds leaves its program LOADED with its slot's report; a build that its image
suits waits, built, for the next boundary, and a build that deletes leaves no table; a retired generation that nothing pins is gone; an append whose
bytes are all in the write buffer or programmed becomes durable, and a seal with a good directory fixes the manifest. -/
def Obligations.LoadsAndDatasetsFinish : Prop :=
  (∀ (w : Window) (n slot f : Nat) (p q : Prog) (s : State), s.dev.stopped = false → s.dev.progOf w.num n = some (slot, p) → p.state = .loading →
    AMap.get? (s.dev.validateThrough p.loadSeq).progs slot = some q →
    (q.verdict = some (Status.success, f) → Completes (.programLoadDone w n) s (fun d =>
      let v := d.validateThrough p.loadSeq
      let r : Prog := { q with state := .loaded, ticket := none, loadTick := v.tick.count, binary := [] }
      Dev.completeReport { v with progs := AMap.set v.progs slot r } w.num n Status.success (loadReport Status.success slot f r))) ∧
    (∀ st : Status, q.verdict = some (st, f) → st ≠ Status.success →
      Completes (.programLoadDone w n) s (fun d => (d.validateThrough p.loadSeq).failLoad slot w.num n st f q))) ∧
  (∀ (w : Window) (n k : Nat) (x : ScrTable) (b : Build) (t : Ticket) (s : State), s.dev.stopped = false → s.dev.buildOf w.num n = some (k, x, b) →
    s.dev.ticketOf w.num n 0x0304 = some t → b.built = false → b.delete = true →
    ∃ u, exec (.screenBuildDone w n) s = .next u ∧ u.pending = s.pending ∧ u.hdr = s.hdr ∧ AMap.get? u.dev.screen.tables k = none) ∧
  (∀ (k n : Nat) (x : ScrTable) (s : State), s.dev.stopped = false → AMap.get? s.dev.screen.tables k = some x → x.retired.any (fun g => g.num == n) = true →
    s.dev.isPinned k n = false →
    ∃ u x', exec (.generationRetire k n) s = .next u ∧ u.pending = s.pending ∧ u.hdr = s.hdr ∧ AMap.get? u.dev.screen.tables k = some x' ∧
      x'.retired = x.retired.filter (fun g => g.num != n) ∧ x'.current = x.current) ∧
  (∀ (k n : Nat) (s : State), s.dev.stopped = false → s.dev.isPinned k n = true → exec (.generationRetire k n) s = .next s) ∧
  (∀ (w : Window) (n e : Nat) (x : Extent) (s : State), s.dev.stopped = false → s.dev.face.extents.find? (fun p => p.2.append == some (w.num, n)) = some (e, x) →
    AMap.get? s.dev.face.extents e = some x → (x.buffered || x.programmed) = true → x.durable = false →
    ∃ u x', exec (.datasetAppendDurable w n) s = .next u ∧ u.pending = s.pending ∧ u.hdr = s.hdr ∧ AMap.get? u.dev.face.extents e = some x' ∧ x'.state = .live ∧
      x'.durable = true ∧ x'.durTick = s.dev.tick.count ∧ x'.append = none ∧ x'.data = x.data ∧ x'.digest = sha256 x.data) ∧
  (∀ (w : Window) (n k dir cnt : Nat) (a : Nat × Nat) (t : Dataset) (s : State), s.dev.stopped = false → s.dev.sealOf w.num n = some (k, t) →
    t.sealing = some (a.1, a.2, dir, cnt) → AMap.get? s.dev.face.datasets k = some t →
    (s.dev.modDataset k (fun t => { t with sealing := none })).badDirectory t dir cnt = none →
    ∃ u t', exec (.datasetSealDone w n) s = .next u ∧ u.pending = s.pending ∧ u.hdr = s.hdr ∧ AMap.get? u.dev.face.datasets k = some t' ∧ t'.sealed_ = true ∧
      t'.sealing = none ∧ t'.dirOffset = dir ∧ t'.count = cnt)

/-- R485, R532, R560 to R565: how streams and tenants end. A stream whose work is done is deleted and gone; the frames of a closing ingest stream are
dropped 16 ticks after the close, not before; a reset of a function, or the removal of a VF, drains the ENABLED tenant that it belongs to; each
boundary of a drain takes its step; and a drained tenant with nothing busy is removed with its streams. R586: a replay that has been aborted, and
whose stream has no work left running, ends: it is off the list of replays, its log is free to be run again, and its stream is gone. One that has
neither reached the end of its log, diverged, lost an input nor been aborted goes on. -/
def Obligations.StreamsReplaysAndTenantsEnd : Prop :=
  (∀ (sid : Nat) (a : Nat × Nat × Nat) (st : Stream) (s : State), s.dev.stopped = false → s.dev.stream? sid = some st → st.deleting = some a → s.dev.workRuns sid = false →
    s.dev.group.replays.any (fun r => r.stream == sid) = false →
    ∃ u, exec (.streamDeleteDone sid) s = .next u ∧ u.pending = s.pending ∧ u.hdr = s.hdr ∧ u.dev.stream? sid = none) ∧
  (∀ (sid w n t : Nat) (rest : List (Nat × Nat × Nat)) (st : Stream) (s : State), s.dev.stopped = false → s.dev.closings sid = (w, n, t) :: rest → s.dev.stream? sid = some st →
    (s.dev.tick.count < t + 16 → exec (.ingestCloseDiscard sid) s = .next s) ∧
    (t + 16 ≤ s.dev.tick.count → (∀ p ∈ st.samples, p.2.state ≠ .flight ∧ p.2.state ≠ .resident) →
      (∀ i ∈ s.dev.tick.items, i.ofStream sid = false) → Completes (.ingestCloseDiscard sid) s (fun d => d.assemble sid)) ∧
    (∀ e : Dev, (s.dev.assemble sid).epochComplete sid = e → (∀ y, e.stream? sid = some y → y.state = .idle ∧ y.cmds = [] ∧ y.log = none) → (e.stream? sid).isSome = true →
      e.workRuns sid = false →
      ∃ u, exec (.ingestCloseDone sid) s = .next u ∧ u.pending = s.pending ∧ u.hdr = s.hdr ∧ u.dev.stream? sid = none)) ∧
  (∀ (w : Window) (x : Tenant) (s : State), s.dev.stopped = false → w.num ≠ adminWin → AMap.get? s.dev.tenants w.num = some x → x.state = .enabled →
    ∃ u y d, exec (.functionLevelReset w) s = .next u ∧ u.pending = s.pending ∧ u.hdr = s.hdr ∧ AMap.get? u.dev.tenants w.num = some y ∧ y.state = .draining ∧
      y.drain = some d ∧ d.trigger = 3 ∧ d.b0 = some (s.dev.tick.count + 1) ∧ d.removing = false) ∧
  (∀ (vf : Nat) (x : Tenant) (s : State), s.dev.stopped = false → AMap.get? s.dev.tenants vf = some x → x.state = .enabled →
    ∃ u y d, exec (.vfRemoval vf) s = .next u ∧ u.pending = s.pending ∧ u.hdr = s.hdr ∧ u.dev.hearth.vfs.contains vf = false ∧ AMap.get? u.dev.tenants vf = some y ∧
      y.state = .draining ∧ y.drain = some d ∧ d.trigger = 4 ∧ d.b0 = some (s.dev.tick.count + 1)) ∧
  (∀ (t b : Nat) (x : Tenant) (y : Drain) (s : State), s.dev.stopped = false → AMap.get? s.dev.tenants t = some x → x.drain = some y → y.b0 = some b → y.removing = false →
    (s.dev.drainAudit? t).isSome = false →
    (s.dev.tick.count < b → exec (.drainTickStep t) s = .next s) ∧
    (s.dev.tick.count = b ∨ s.dev.tick.count = b + 1 → Completes (.drainTickStep t) s (fun d => d.drainCancel t)) ∧
    (s.dev.tick.count = b + 2 → Completes (.drainTickStep t) s (fun d => (d.drainCancel t).drainStop t)) ∧
    (s.dev.tick.count = b + 3 → Completes (.drainTickStep t) s (fun d => ((d.drainCancel t).drainStop t).drainQps t)) ∧
    (b + 4 ≤ s.dev.tick.count → Completes (.drainTickStep t) s (fun d => (((d.drainCancel t).drainStop t).drainQps t).drainAudit t))) ∧
  (∀ (t : Nat) (x : Tenant) (y : Drain) (s : State), s.dev.stopped = false → AMap.get? s.dev.tenants t = some x → x.drain = some y →
    (y.removing = true → s.dev.datasetsBusy t = false →
      ∃ u, exec (.tenantRemovalDone t) s = .next u ∧ u.pending = s.pending ∧ u.hdr = s.hdr ∧ AMap.get? u.dev.tenants t = none) ∧
    (y.removing = false → exec (.tenantRemovalDone t) s = .next s)) ∧
  (∀ (sid : Nat) (r : Replay) (l : Log) (st : Stream) (s : State), s.dev.stopped = false → s.dev.group.replays.find? (fun r => r.stream == sid) = some r →
    AMap.get? s.dev.group.logs r.log = some l → r.aborted = true → s.dev.workRuns sid = false → s.dev.stream? sid = some st → st.deleting = none →
    ∃ t l', exec (.replayEnd sid) s = .next t ∧ t.pending = s.pending ∧ t.hdr = s.hdr ∧ t.dev.group.replays.find? (fun r => r.stream == sid) = none ∧
      AMap.get? t.dev.group.logs r.log = some l' ∧ l'.run = none ∧ t.dev.stream? sid = none) ∧
  (∀ (sid : Nat) (r : Replay) (l : Log) (s : State), s.dev.stopped = false → s.dev.group.replays.find? (fun r => r.stream == sid) = some r →
    AMap.get? s.dev.group.logs r.log = some l → r.verdict l (s.dev.stream? sid) = none → exec (.replayEnd sid) s = .next s)

/-- R180, R541, R683, R693: the configuration writes. A CONFIG_WRITE whose read-back succeeds stores its image with the next SEQUENCE in the copy not
in use; in HOLD, when the image expects what the device finds, the device enters READY with no window of a tenant or the administrator negotiated; the
activation asked for is written to its record and asked for no more; Bus Master Enable and VF Enable keep the functions they name. -/
def Obligations.ConfigurationIsWritten : Prop :=
  (∀ (w : Window) (n : Nat) (t : Ticket) (s : State), s.dev.stopped = false → s.dev.ticketOf w.num n 0x0902 = some t → cfgImageOk t.data = true →
    s.dev.configReady w.num n true = false → s.dev.hearth.cfgInUse = none →
    Completes (.configWriteDone w n true) s (fun d =>
      (d.norProgram (cfgBase 0) norSector (cfgSeal (overlay (t.data.take 65536) 8 (leBytes 8 1)))).completeTicket w.num n Status.success 0)) ∧
  (∀ (w : Window) (n : Nat) (t : Ticket) (s : State), s.dev.stopped = false → s.dev.ticketOf w.num n 0x0902 = some t → s.dev.configReady w.num n true = true →
    ∃ u, exec (.configWriteDone w n true) s = .next u ∧ u.pending = s.pending ∧ (∀ k, k ≤ 1024 → u.version k = 0) ∧ u.dev.hearth.state = .ready) ∧
  (∀ (w : Window) (n : Nat) (t : Ticket) (s : State), s.dev.stopped = false → s.dev.ticketOf w.num n 0x0902 = some t → cfgImageOk t.data = false →
    ∀ ok, Completes (.configWriteDone w n ok) s (fun d => d.completeTicket w.num n Status.fieldInvalid 0)) ∧
  (∀ (slot : Nat) (commit : Bool) (s : State), s.dev.stopped = false → s.dev.boot.activation = some (slot, commit) →
    ∃ u, exec .activationRecordWritten s = .next u ∧ u.pending = s.pending ∧ u.hdr = s.hdr ∧ u.dev.boot.activation = none ∧
      u.dev = Dev.writeRecord { s.dev with boot := { s.dev.boot with activation := none } } slot commit) ∧
  (∀ (fn : Nat) (s : State), s.dev.stopped = false →
    Completes (.busMasterEnableChange fn false) s (fun d => { d with hearth := { d.hearth with busMaster := d.hearth.busMaster.filter (fun f => f != fn) } }) ∧
    (∃ u, exec (.busMasterEnableChange fn true) s = .next u ∧ u.pending = s.pending ∧ u.hdr = s.hdr ∧ u.dev.hearth.busMaster.contains fn = true)) ∧
  (∀ (vf : Nat) (s : State), s.dev.stopped = false →
    ∃ u, exec (.sriovVfEnable vf) s = .next u ∧ u.pending = s.pending ∧ u.hdr = s.hdr ∧ u.dev.hearth.vfs.contains vf = true ∧
      (∀ k, k ≠ vf → u.dev.hearth.vfs.contains k = s.dev.hearth.vfs.contains k) ∧ u.dev = { s.dev with hearth := { s.dev.hearth with vfs := u.dev.hearth.vfs } })
end

