-- ==== Sys2Proof/Laws/Assoc.lean ====
section
/-!
SUPPORT. Laws/Assoc.lean: what the operations of a sparse table do, and that they keep its keys strictly rising.
-/
namespace Sys2Proof.Laws

open Sys2Proof.Machine

variable {α : Type}

/-- The keys of a table rise strictly: its canonical form. -/
def AMapSorted (m : AMap α) : Prop := List.Pairwise (fun p q => p.1 < q.1) m

theorem amap_get_set (m : AMap α) (k j : Nat) (v : α) :
    AMap.get? (AMap.set m k v) j = if j = k then some v else AMap.get? m j := by
  induction m with
  | nil =>
    by_cases h : j = k
    · subst h; simp [AMap.set, AMap.get?]
    · have h' : ¬ k = j := fun e => h e.symm
      simp [AMap.set, AMap.get?, h, h']
  | cons p r ih =>
    obtain ⟨a, b⟩ := p
    unfold AMap.set
    by_cases h1 : k < a
    · by_cases h : j = k
      · subst h; simp [h1, AMap.get?]
      · have h' : ¬ k = j := fun e => h e.symm
        simp [h1, AMap.get?, h, h']
    · by_cases h2 : a = k
      · subst h2
        by_cases h : j = a
        · subst h; simp [AMap.get?]
        · have h' : ¬ a = j := fun e => h e.symm
          simp [AMap.get?, h, h']
      · simp only [h1, h2, if_false, AMap.get?]
        by_cases h : a = j
        · subst h; simp [h2]
        · simp only [h, if_false]; exact ih

/-- A read after a write to the same key gives the value written, and a write leaves every other key alone. -/
theorem amap_getD_set (m : AMap α) (k j : Nat) (v d : α) :
    AMap.getD (AMap.set m k v) j d = if j = k then v else AMap.getD m j d := by
  unfold AMap.getD
  rw [amap_get_set]
  split <;> rfl

@[simp] theorem amap_getD_set_same (m : AMap α) (k : Nat) (v d : α) : AMap.getD (AMap.set m k v) k d = v := by
  rw [amap_getD_set, if_pos rfl]

theorem amap_getD_set_other (m : AMap α) (k j : Nat) (v d : α) (h : j ≠ k) : AMap.getD (AMap.set m k v) j d = AMap.getD m j d := by
  rw [amap_getD_set, if_neg h]

theorem amap_get_mod (m : AMap α) (k j : Nat) (f : α → α) :
    AMap.get? (AMap.mod m k f) j = if j = k then (AMap.get? m j).map f else AMap.get? m j := by
  unfold AMap.mod
  induction m with
  | nil => simp [AMap.get?]
  | cons p r ih =>
    obtain ⟨a, b⟩ := p
    simp only [List.map_cons]
    by_cases h : a = k
    · subst h
      by_cases h2 : a = j
      · subst h2; simp [AMap.get?]
      · have h2' : ¬ j = a := fun e => h2 e.symm
        simp only [if_true, AMap.get?, h2, if_false, h2'] at ih ⊢
        rw [ih]
    · by_cases h2 : a = j
      · subst h2; simp [AMap.get?, h]
      · simp only [h, if_false, AMap.get?, h2]; exact ih

theorem amap_set_mem (m : AMap α) (k : Nat) (v : α) (p : Nat × α) (h : p ∈ AMap.set m k v) : p = (k, v) ∨ p ∈ m := by
  induction m with
  | nil => simp [AMap.set] at h; exact Or.inl h
  | cons q r ih =>
    unfold AMap.set at h
    split at h
    · rcases List.mem_cons.1 h with h | h
      · exact Or.inl h
      · exact Or.inr h
    · split at h
      · rcases List.mem_cons.1 h with h | h
        · exact Or.inl h
        · exact Or.inr (List.mem_cons_of_mem _ h)
      · rcases List.mem_cons.1 h with h | h
        · exact Or.inr (h ▸ List.mem_cons_self)
        · rcases ih h with h | h
          · exact Or.inl h
          · exact Or.inr (List.mem_cons_of_mem _ h)

/-- Writing an entry keeps the canonical form. -/
theorem amap_set_sorted (m : AMap α) (k : Nat) (v : α) (h : AMapSorted m) : AMapSorted (AMap.set m k v) := by
  induction m with
  | nil => simp [AMap.set, AMapSorted]
  | cons q r ih =>
    obtain ⟨a, b⟩ := q
    have hr : AMapSorted r := (List.pairwise_cons.1 h).2
    have hq := (List.pairwise_cons.1 h).1
    unfold AMap.set
    by_cases h1 : k < a
    · rw [if_pos h1]
      refine List.pairwise_cons.2 ⟨?_, h⟩
      intro p hp
      rcases List.mem_cons.1 hp with e | e
      · subst e; exact h1
      · exact Nat.lt_trans h1 (hq p e)
    · rw [if_neg h1]
      by_cases h2 : a = k
      · rw [if_pos h2]
        subst h2
        exact List.pairwise_cons.2 ⟨hq, hr⟩
      · rw [if_neg h2]
        refine List.pairwise_cons.2 ⟨?_, ih hr⟩
        intro p hp
        rcases amap_set_mem _ _ _ _ hp with e | e
        · subst e; show a < k; omega
        · exact hq p e

/-- Removing an entry, or keeping some, keeps the canonical form. -/
theorem amap_del_sorted (m : AMap α) (k : Nat) (h : AMapSorted m) : AMapSorted (AMap.del m k) := List.Pairwise.filter _ h

theorem amap_keep_sorted (m : AMap α) (p : Nat → α → Bool) (h : AMapSorted m) : AMapSorted (AMap.keep p m) := List.Pairwise.filter _ h

theorem amap_upd_sorted (m : AMap α) (k : Nat) (d : α) (f : α → α) (h : AMapSorted m) : AMapSorted (AMap.upd m k d f) :=
  amap_set_sorted _ _ _ h

/-- Changing the values of a table keeps the canonical form. -/
theorem amap_mapKV_sorted {β : Type} (f : Nat → α → β) (m : AMap α) (h : AMapSorted m) : AMapSorted (AMap.mapKV f m) := by
  unfold AMap.mapKV AMapSorted
  rw [List.pairwise_map]
  exact h

theorem amap_mod_sorted (m : AMap α) (k : Nat) (f : α → α) (h : AMapSorted m) : AMapSorted (AMap.mod m k f) := by
  unfold AMap.mod AMapSorted
  rw [List.pairwise_map]
  refine List.Pairwise.imp ?_ h
  intro p q hpq
  split <;> split <;> exact hpq

end Sys2Proof.Laws
end

