-- ==== Sys2Proof/Laws/Exec.lean ====
section
/-!
SUPPORT. Laws/Exec.lean: for each command, the one equation that says what `exec` does with it, so that no proof unfolds the dispatch.
-/
namespace Sys2Proof.Laws

open Sys2Proof.Machine

theorem exec_hello (w : Window) (r : Request) (s : State) : exec (.hello w r) s =
    (.next { s with hdr := helloHdr s.hdr s.dev w.num r, dev := cmdHello.doorbell s.dev w.num (s.version w.num) r }) := rfl

theorem exec_setEventRing (w : Window) (r : Request) (s : State) : exec (.setEventRing w r) s =
    (s.onDoorbell cmdSetEventRing w r) := rfl

theorem exec_ticketQuery (w : Window) (r : Request) (s : State) : exec (.ticketQuery w r) s =
    (s.onDoorbell cmdTicketQuery w r) := rfl

theorem exec_setParam (w : Window) (r : Request) (s : State) : exec (.setParam w r) s =
    (s.onDoorbell cmdSetParam w r) := rfl

theorem exec_getParam (w : Window) (r : Request) (s : State) : exec (.getParam w r) s =
    (s.onDoorbell cmdGetParam w r) := rfl

theorem exec_readCounters (w : Window) (r : Request) (s : State) : exec (.readCounters w r) s =
    (s.onDoorbell cmdReadCounters w r) := rfl

theorem exec_readTrouble (w : Window) (r : Request) (s : State) : exec (.readTrouble w r) s =
    (s.onDoorbell cmdReadTrouble w r) := rfl

theorem exec_clearSticky (w : Window) (r : Request) (s : State) : exec (.clearSticky w r) s =
    (s.onDoorbell cmdClearSticky w r) := rfl

theorem exec_unitMap (w : Window) (r : Request) (s : State) : exec (.unitMap w r) s =
    (s.onDoorbell cmdUnitMap w r) := rfl

theorem exec_unitMapDone (w : Window) (ticket : Nat) (s : State) : exec (.unitMapDone w ticket) s =
    (s.onRunning (fun d => d.unitMapDone w.num ticket)) := rfl

theorem exec_tenantCreate (w : Window) (r : Request) (s : State) : exec (.tenantCreate w r) s =
    (s.onDoorbell cmdTenantCreate w r) := rfl

theorem exec_tenantDelete (w : Window) (r : Request) (s : State) : exec (.tenantDelete w r) s =
    (s.onDoorbell cmdTenantDelete w r) := rfl

theorem exec_functionDisable (w : Window) (r : Request) (s : State) : exec (.functionDisable w r) s =
    (s.onDoorbell cmdFunctionDisable w r) := rfl

theorem exec_functionEnable (w : Window) (r : Request) (s : State) : exec (.functionEnable w r) s =
    (.next { s with hdr := enableHdr s.hdr s.dev w.num r, dev := cmdFunctionEnable.doorbell s.dev w.num (s.version w.num) r }) := rfl

theorem exec_gateListSet (w : Window) (r : Request) (s : State) : exec (.gateListSet w r) s =
    (s.onDoorbell cmdGateListSet w r) := rfl

theorem exec_programLoad (w : Window) (r : Request) (s : State) : exec (.programLoad w r) s =
    (s.onDoorbell cmdProgramLoad w r) := rfl

theorem exec_programLoadDone (w : Window) (ticket : Nat) (s : State) : exec (.programLoadDone w ticket) s =
    (s.onRunning (fun d => d.loadDone w.num ticket)) := rfl

theorem exec_programUnload (w : Window) (r : Request) (s : State) : exec (.programUnload w r) s =
    (s.onDoorbell cmdProgramUnload w r) := rfl

theorem exec_programUnloadDone (w : Window) (ticket : Nat) (s : State) : exec (.programUnloadDone w ticket) s =
    (s.onRunning (fun d => d.unloadDone w.num ticket)) := rfl

theorem exec_vocabLoad (w : Window) (r : Request) (s : State) : exec (.vocabLoad w r) s =
    (s.onDoorbell cmdVocabLoad w r) := rfl

theorem exec_vocabLoadDone (w : Window) (ticket : Nat) (s : State) : exec (.vocabLoadDone w ticket) s =
    (s.onRunning (fun d => d.vocabDone w.num ticket)) := rfl

theorem exec_screenTableLoad (w : Window) (r : Request) (s : State) : exec (.screenTableLoad w r) s =
    (s.onDoorbell cmdScreenTableLoad w r) := rfl

theorem exec_screenBuildDone (w : Window) (ticket : Nat) (s : State) : exec (.screenBuildDone w ticket) s =
    (s.onRunning (fun d => d.buildDone w.num ticket)) := rfl

theorem exec_generationRetire (slot gen : Nat) (s : State) : exec (.generationRetire slot gen) s =
    (s.onRunning (fun d => d.retireGen slot gen)) := rfl

theorem exec_screenTableUpdate (w : Window) (r : Request) (s : State) : exec (.screenTableUpdate w r) s =
    (s.onDoorbell cmdScreenTableUpdate w r) := rfl

theorem exec_streamCreate (w : Window) (r : Request) (s : State) : exec (.streamCreate w r) s =
    (s.onDoorbell cmdStreamCreate w r) := rfl

theorem exec_streamDelete (w : Window) (r : Request) (s : State) : exec (.streamDelete w r) s =
    (s.onDoorbell cmdStreamDelete w r) := rfl

theorem exec_streamDeleteDone (stream : Nat) (s : State) : exec (.streamDeleteDone stream) s =
    (s.onRunning (fun d => d.deleteDone stream)) := rfl

theorem exec_epochStart (w : Window) (r : Request) (s : State) : exec (.epochStart w r) s =
    (s.onDoorbell cmdEpochStart w r) := rfl

theorem exec_streamPause (w : Window) (r : Request) (s : State) : exec (.streamPause w r) s =
    (s.onDoorbell cmdStreamPause w r) := rfl

theorem exec_streamResume (w : Window) (r : Request) (s : State) : exec (.streamResume w r) s =
    (s.onDoorbell cmdStreamResume w r) := rfl

theorem exec_modeSet (w : Window) (r : Request) (s : State) : exec (.modeSet w r) s =
    (s.onDoorbell cmdModeSet w r) := rfl

theorem exec_contextRead (w : Window) (r : Request) (s : State) : exec (.contextRead w r) s =
    (s.onDoorbell cmdContextRead w r) := rfl

theorem exec_consumerAttach (w : Window) (r : Request) (s : State) : exec (.consumerAttach w r) s =
    (s.onDoorbell cmdConsumerAttach w r) := rfl

theorem exec_attachTimeout (tenant reservoir : Nat) (s : State) : exec (.attachTimeout tenant reservoir) s =
    (s.onRunning (fun d => d.attachTimeout (resKey tenant reservoir))) := rfl

theorem exec_consumerDetach (w : Window) (r : Request) (s : State) : exec (.consumerDetach w r) s =
    (s.onDoorbell cmdConsumerDetach w r) := rfl

theorem exec_consumerDetachDone (tenant reservoir : Nat) (s : State) : exec (.consumerDetachDone tenant reservoir) s =
    (s.onRunning (fun d => d.detachDone (resKey tenant reservoir))) := rfl

theorem exec_reservoirBind (w : Window) (r : Request) (s : State) : exec (.reservoirBind w r) s =
    (s.onDoorbell cmdReservoirBind w r) := rfl

theorem exec_peerAdd (w : Window) (r : Request) (s : State) : exec (.peerAdd w r) s =
    (s.onDoorbell cmdPeerAdd w r) := rfl

theorem exec_ingestOpen (w : Window) (r : Request) (s : State) : exec (.ingestOpen w r) s =
    (s.onDoorbell cmdIngestOpen w r) := rfl

theorem exec_ingestClose (w : Window) (r : Request) (s : State) : exec (.ingestClose w r) s =
    (s.onDoorbell cmdIngestClose w r) := rfl

theorem exec_ingestCloseDone (stream : Nat) (s : State) : exec (.ingestCloseDone stream) s =
    (s.onRunning (fun d => d.ingestClosed stream)) := rfl

theorem exec_ingestCloseDiscard (stream : Nat) (s : State) : exec (.ingestCloseDiscard stream) s =
    (s.onRunning (fun d => d.ingestDiscard stream)) := rfl

theorem exec_datasetCreate (w : Window) (r : Request) (s : State) : exec (.datasetCreate w r) s =
    (s.onDoorbell cmdDatasetCreate w r) := rfl

theorem exec_datasetAppend (w : Window) (r : Request) (s : State) : exec (.datasetAppend w r) s =
    (s.onDoorbell cmdDatasetAppend w r) := rfl

theorem exec_datasetAppendDurable (w : Window) (ticket : Nat) (s : State) : exec (.datasetAppendDurable w ticket) s =
    (s.onRunning (fun d => d.appendDurable w.num ticket)) := rfl

theorem exec_datasetSeal (w : Window) (r : Request) (s : State) : exec (.datasetSeal w r) s =
    (s.onDoorbell cmdDatasetSeal w r) := rfl

theorem exec_datasetSealDone (w : Window) (ticket : Nat) (s : State) : exec (.datasetSealDone w ticket) s =
    (s.onRunning (fun d => d.sealDone w.num ticket)) := rfl

theorem exec_datasetDiscard (w : Window) (r : Request) (s : State) : exec (.datasetDiscard w r) s =
    (s.onDoorbell cmdDatasetDiscard w r) := rfl

theorem exec_placementSet (w : Window) (r : Request) (s : State) : exec (.placementSet w r) s =
    (s.onDoorbell cmdPlacementSet w r) := rfl

theorem exec_datasetKeySet (w : Window) (r : Request) (s : State) : exec (.datasetKeySet w r) s =
    (s.onDoorbell cmdDatasetKeySet w r) := rfl

theorem exec_barrierJoin (w : Window) (r : Request) (s : State) : exec (.barrierJoin w r) s =
    (s.onDoorbell cmdBarrierJoin w r) := rfl

theorem exec_barrierJoinDone  (s : State) : exec (.barrierJoinDone) s =
    (s.onRunning Dev.joinDone) := rfl

theorem exec_syncTimeout  (s : State) : exec (.syncTimeout) s =
    (s.onRunning (fun d => d.joinFails Status.syncTimeout)) := rfl

theorem exec_tickEpochSet (w : Window) (r : Request) (s : State) : exec (.tickEpochSet w r) s =
    (s.onDoorbell cmdTickEpochSet w r) := rfl

theorem exec_tickEpochTakesEffect (found : BoundaryFound) (s : State) : exec (.tickEpochTakesEffect found) s =
    (s.onRunning (fun d => d.epochBoundary found)) := rfl

theorem exec_replayRecord (w : Window) (r : Request) (s : State) : exec (.replayRecord w r) s =
    (s.onDoorbell cmdReplayRecord w r) := rfl

theorem exec_replayRun (w : Window) (r : Request) (s : State) : exec (.replayRun w r) s =
    (s.onDoorbell cmdReplayRun w r) := rfl

theorem exec_replayEnd (stream : Nat) (s : State) : exec (.replayEnd stream) s =
    (s.onRunning (fun d => d.replayEnd stream)) := rfl

theorem exec_digestRead (w : Window) (r : Request) (s : State) : exec (.digestRead w r) s =
    (s.onDoorbell cmdDigestRead w r) := rfl

theorem exec_tongsAudit (w : Window) (r : Request) (s : State) : exec (.tongsAudit w r) s =
    (s.onDoorbell cmdTongsAudit w r) := rfl

theorem exec_tongsAuditDone (audit : AuditRef) (s : State) : exec (.tongsAuditDone audit) s =
    (s.onRunning (fun d => match audit with
    | .command w n => d.auditDone w.num n
    | .drain t => d.drainComplete t)) := rfl

theorem exec_tongsBufferState (w : Window) (r : Request) (s : State) : exec (.tongsBufferState w r) s =
    (s.onDoorbell cmdTongsBufferState w r) := rfl

theorem exec_configRead (w : Window) (r : Request) (s : State) : exec (.configRead w r) s =
    (s.onDoorbell cmdConfigRead w r) := rfl

theorem exec_configReadDone (w : Window) (ticket : Nat) (s : State) : exec (.configReadDone w ticket) s =
    (s.onRunning (fun d => d.configReadDone w.num ticket)) := rfl

theorem exec_configWrite (w : Window) (r : Request) (s : State) : exec (.configWrite w r) s =
    (s.onDoorbell cmdConfigWrite w r) := rfl

theorem exec_configWriteDone (w : Window) (ticket : Nat) (readBackOk : Bool) (s : State) : exec (.configWriteDone w ticket readBackOk) s =
    (.next { s with
    hdr := if s.dev.configReady w.num ticket readBackOk then windowsReset s.hdr else s.hdr
    dev := if s.dev.stopped then s.dev else s.dev.configWriteDone w.num ticket readBackOk }) := rfl

theorem exec_topologyAck (w : Window) (r : Request) (s : State) : exec (.topologyAck w r) s =
    (.next { s with
    hdr := if cmdTopologyAck.accepts s.dev w.num (s.version w.num) r then windowsReset s.hdr else s.hdr
    dev := cmdTopologyAck.doorbell s.dev w.num (s.version w.num) r }) := rfl

theorem exec_fwStage (w : Window) (r : Request) (s : State) : exec (.fwStage w r) s =
    (s.onDoorbell cmdFwStage w r) := rfl

theorem exec_fwStageDone (w : Window) (ticket : Nat) (readBackOk : Bool) (s : State) : exec (.fwStageDone w ticket readBackOk) s =
    (s.onRunning (fun d => d.fwStageDone w.num ticket readBackOk)) := rfl

theorem exec_fwActivate (w : Window) (r : Request) (s : State) : exec (.fwActivate w r) s =
    (s.onDoorbell cmdFwActivate w r) := rfl

theorem exec_activationRecordWritten  (s : State) : exec (.activationRecordWritten) s =
    (s.onRunning Dev.recordWritten) := rfl

theorem exec_holdupMeasure (w : Window) (r : Request) (s : State) : exec (.holdupMeasure w r) s =
    (s.onDoorbell cmdHoldupMeasure w r) := rfl

theorem exec_powerStateSet (w : Window) (r : Request) (s : State) : exec (.powerStateSet w r) s =
    (s.onDoorbell cmdPowerStateSet w r) := rfl

theorem exec_tickCountLoRead  (s : State) : exec (.tickCountLoRead) s =
    (s.onRunning (fun d => ({ d with tick := { d.tick with hiLatch := some (d.tick.count / 2 ^ 32) } }).emit (.readData (leBytes 4 d.tick.count)))) := rfl

theorem exec_mbxIrqWrite (w : Window) (value : Nat) (s : State) : exec (.mbxIrqWrite w value) s =
    (s.onRunning (fun d => d.writeIrq w.num value)) := rfl

theorem exec_evtHeadWrite (w : Window) (value : Nat) (s : State) : exec (.evtHeadWrite w value) s =
    (s.onRunning (fun d => d.writeHead w.num value)) := rfl

theorem exec_registerWrite (target : RegTarget) (offset bits value : Nat) (s : State) : exec (.registerWrite target offset bits value) s =
    (s.onRunning (fun d => d.writeRegister target offset bits value)) := rfl

theorem exec_tickBoundary (found : BoundaryFound) (s : State) : exec (.tickBoundary found) s =
    (s.onRunning (fun d => if d.makesBoundary then d.boundary found none else d)) := rfl

theorem exec_planFreeze  (s : State) : exec (.planFreeze) s =
    (s.onRunning Dev.freezePlan) := rfl

theorem exec_limpProbe (unit : Nat) (s : State) : exec (.limpProbe unit) s =
    (s.onRunning (fun d => d.limpProbe unit)) := rfl

theorem exec_periodChangeTakesEffect  (s : State) : exec (.periodChangeTakesEffect) s =
    (s.onRunning Dev.periodChanges) := rfl

theorem exec_gateListTakesEffect (tenant : Nat) (s : State) : exec (.gateListTakesEffect tenant) s =
    (s.onRunning (fun d => d.gatesDue tenant)) := rfl

theorem exec_deferStalled (stream pos : Nat) (s : State) : exec (.deferStalled stream pos) s =
    (s.onRunning (fun d => d.deferStalled stream pos)) := rfl

theorem exec_slcLimitRecompute  (s : State) : exec (.slcLimitRecompute) s =
    (s.onRunning Dev.slcRecompute) := rfl

theorem exec_stagedLaunchPrecharge (cell : CellRef) (s : State) : exec (.stagedLaunchPrecharge cell) s =
    (s.onRunning (fun d => match d.cellOf cell with | some c => d.launchPrecharge c | none => d)) := rfl

theorem exec_stagedLaunchRelease (cell : CellRef) (s : State) : exec (.stagedLaunchRelease cell) s =
    (s.onRunning (fun d => match d.cellOf cell with | some c => d.launchRelease c | none => d)) := rfl

theorem exec_workItemComplete (item atNs : Nat) (s : State) : exec (.workItemComplete item atNs) s =
    (s.onRunning (fun d => d.workItemComplete item atNs)) := rfl

theorem exec_readHedge (item : Nat) (s : State) : exec (.readHedge item) s =
    (s.onRunning (fun d => d.readHedge item)) := rfl

theorem exec_cellStoreCe (cell : CellRef) (atNs : Nat) (s : State) : exec (.cellStoreCe cell atNs) s =
    (s.onRunning (fun d => match d.cellOf cell with | some c => d.cellStoreCe c atNs | none => d)) := rfl

theorem exec_cellOpFailure (cell : CellRef) (residue : Bool) (atNs : Nat) (s : State) : exec (.cellOpFailure cell residue atNs) s =
    (s.onRunning (fun d => match d.cellOf cell with | some c => d.cellOpFailure c residue atNs | none => d)) := rfl

theorem exec_laneFault (block : BlockRef) (lane : Fin 4) (atNs : Nat) (s : State) : exec (.laneFault block lane atNs) s =
    (s.onRunning (fun d => match d.blockOf block with
    | some g => d.unitFault .lane (g * 4 + lane.val) atNs (fun d => d.quarantineLane (g * 4 + lane.val) atNs)
    | none => d)) := rfl

theorem exec_swageFault (block : BlockRef) (atNs : Nat) (s : State) : exec (.swageFault block atNs) s =
    (s.onRunning (fun d => match d.blockOf block with
    | some g => d.unitFault .swage g atNs (fun d => (d.blockTrouble (d.regionOfBlock g) BlockBit.swageFault).fenceBlock g)
    | none => d)) := rfl

theorem exec_screenFault (block : BlockRef) (atNs : Nat) (s : State) : exec (.screenFault block atNs) s =
    (s.onRunning (fun d => match d.blockOf block with
    | some g => d.unitFault .screen g atNs (fun d => (d.blockTrouble (d.regionOfBlock g) BlockBit.screenFault).fenceBlock g)
    | none => d)) := rfl

theorem exec_blockStoreUe (block : BlockRef) (holds : StoreHolds) (atNs : Nat) (s : State) : exec (.blockStoreUe block holds atNs) s =
    (s.onRunning (fun d => match d.blockOf block with | some g => d.blockStoreUe g holds atNs | none => d)) := rfl

theorem exec_hbmCe (region : Fin 8) (s : State) : exec (.hbmCe region) s =
    (s.onRunning (fun d => if d.regionIn region.val then d.count Counter.hbmCe region.val 1 else d)) := rfl

theorem exec_hbmUe (region : Fin 8) (holds : HbmHolds) (s : State) : exec (.hbmUe region holds) s =
    (s.onRunning (fun d => d.hbmUe region.val holds)) := rfl

theorem exec_ringFault (region : Fin 8) (lost : List Nat) (s : State) : exec (.ringFault region lost) s =
    (s.onRunning (fun d => if d.regionIn region.val then (d.regionTrouble region.val RegionBit.ringFault).resetRegion region.val lost else d)) := rfl

theorem exec_dirFault (region : Fin 8) (lost : List Nat) (s : State) : exec (.dirFault region lost) s =
    (s.onRunning (fun d => if d.regionIn region.val then (d.regionTrouble region.val RegionBit.dirFault).resetRegion region.val lost else d)) := rfl

theorem exec_wedgeFault (region : Fin 8) (unit : Fin 8) (atNs : Nat) (s : State) : exec (.wedgeFault region unit atNs) s =
    (let u := region.val * 8 + unit.val
  s.onRunning (fun d => d.unitFault .wedge u atNs (fun d => d.quarantineWedge u))) := rfl

theorem exec_regionResetDone (region : Fin 8) (s : State) : exec (.regionResetDone region) s =
    (s.onRunning (fun d => if (d.region region.val).resetting then
    d.modRegion region.val (fun x => { x with resetting := false, resumeAtBoundary := true, lastResetDone := some d.tick.count }) else d)) := rfl

theorem exec_regionResetTimeout (region : Fin 8) (s : State) : exec (.regionResetTimeout region) s =
    (s.onRunning (fun d => if (d.region region.val).resetting then d.fenceRegion region.val false else d)) := rfl

theorem exec_hbmControllerFailure (region : Fin 8) (s : State) : exec (.hbmControllerFailure region) s =
    (s.onRunning (fun d => d.fenceRegion region.val true)) := rfl

theorem exec_rehomeDone (region : Fin 8) (s : State) : exec (.rehomeDone region) s =
    (s.onRunning (fun d => d.rehomeDone region.val)) := rfl

theorem exec_coreFault (core : Fin 8) (s : State) : exec (.coreFault core) s =
    (s.onRunning (fun d =>
    if !d.hearth.cores.contains core.val then d
    else
      let d := d.chipTrouble ChipBit.coreFault
      let d : Dev := { d with hearth := { d.hearth with cores := d.hearth.cores.filter (fun c => c != core.val) } }
      if d.hearth.cores.isEmpty then d.halt else d)) := rfl

theorem exec_lockstepMismatch  (s : State) : exec (.lockstepMismatch) s =
    (s.onRunning (fun d => (d.chipTrouble ChipBit.lockstepMismatch).halt)) := rfl

theorem exec_hubSramUe (copyExists : Bool) (s : State) : exec (.hubSramUe copyExists) s =
    (s.onRunning (fun d =>
    let d := d.chipTrouble ChipBit.hubSramUe
    if copyExists then d else d.halt)) := rfl

theorem exec_permuteFault  (s : State) : exec (.permuteFault) s =
    (s.onRunning (fun d => d.chipTrouble ChipBit.permuteFault)) := rfl

theorem exec_pageDecodeFail (dataset offset : Nat) (found : PageFound) (s : State) : exec (.pageDecodeFail dataset offset found) s =
    (s.onRunning (fun d => d.pageDecodeFail dataset offset found)) := rfl

theorem exec_programFail (bench member : Nat) (s : State) : exec (.programFail bench member) s =
    (s.onRunning (fun d => d.programFail bench member)) := rfl

theorem exec_eraseDone (die block : Nat) (ok : Bool) (s : State) : exec (.eraseDone die block ok) s =
    (s.onRunning (fun d => d.eraseDone die block ok)) := rfl

theorem exec_benchVerify (bench : Nat) (ok : Bool) (s : State) : exec (.benchVerify bench ok) s =
    (s.onRunning (fun d => d.benchVerify bench ok)) := rfl

theorem exec_dieFailed (die : Nat) (s : State) : exec (.dieFailed die) s =
    (s.onRunning (fun d => d.dieFails die)) := rfl

theorem exec_channelRetrainFail (channel : Nat) (s : State) : exec (.channelRetrainFail channel) s =
    (s.onRunning (fun d => d.channelFails channel)) := rfl

theorem exec_writePermitRoom (chunks : Nat) (s : State) : exec (.writePermitRoom chunks) s =
    (s.onRunning (fun d => d.permitRoom chunks)) := rfl

theorem exec_journalTailFlush  (s : State) : exec (.journalTailFlush) s =
    (s.onRunning Dev.flushJournal) := rfl

theorem exec_mapsCheckpoint  (s : State) : exec (.mapsCheckpoint) s =
    (s.onRunning Dev.checkpoint) := rfl

theorem exec_dedupSweepDone (slot gen : Nat) (s : State) : exec (.dedupSweepDone slot gen) s =
    (s.onRunning (fun d => d.sweepDone slot gen)) := rfl

theorem exec_drainTickStep (tenant : Nat) (s : State) : exec (.drainTickStep tenant) s =
    (s.onRunning (fun d => d.drainStep tenant)) := rfl

theorem exec_tenantRemovalDone (tenant : Nat) (s : State) : exec (.tenantRemovalDone tenant) s =
    (s.onRunning (fun d => d.removeTenant tenant)) := rfl

theorem exec_functionLevelReset (w : Window) (s : State) : exec (.functionLevelReset w) s =
    (s.onRunning (fun d => d.startDrain (if w.num = adminWin then 0 else w.num) 3 [])) := rfl

theorem exec_vfRemoval (vf : Nat) (s : State) : exec (.vfRemoval vf) s =
    (s.onRunning (fun d => ({ d with hearth := { d.hearth with vfs := d.hearth.vfs.filter (fun v => v != vf) } }).startDrain vf 4 [])) := rfl

theorem exec_rdmaAck (tenant reservoir : Nat) (s : State) : exec (.rdmaAck tenant reservoir) s =
    (s.onRunning (fun d => d.rdmaAck (resKey tenant reservoir))) := rfl

theorem exec_fenceResponse (tenant reservoir : Nat) (s : State) : exec (.fenceResponse tenant reservoir) s =
    (s.onRunning (fun d => d.fenceResponse (resKey tenant reservoir))) := rfl

theorem exec_qpError (qp : QpRef) (reason : Nat) (s : State) : exec (.qpError qp reason) s =
    (s.onRunning (fun d => d.qpError qp reason)) := rfl

theorem exec_cnpReceived (qp : QpRef) (ns : Nat) (s : State) : exec (.cnpReceived qp ns) s =
    (s.onRunning (fun d => d.cnp qp ns)) := rfl

theorem exec_congestionIncrease (qp : QpRef) (s : State) : exec (.congestionIncrease qp) s =
    (s.onRunning (fun d => d.congestionPeriod qp)) := rfl

theorem exec_gaugeReadResponse (tenant reservoir : Nat) (value : Nat) (s : State) : exec (.gaugeReadResponse tenant reservoir value) s =
    (s.onRunning (fun d => d.gaugeResponse (resKey tenant reservoir) value)) := rfl

theorem exec_arpRequest (port : Nat) (frame : List Byte) (s : State) : exec (.arpRequest port frame) s =
    (s.onRunning (fun d => match d.portUp port, parseFrame (d.parseCtx port) frame with
    | true, .arp off => d.answerArp port frame off
    | _, _ => d)) := rfl

theorem exec_neighborSolicitation (port : Nat) (frame : List Byte) (s : State) : exec (.neighborSolicitation port frame) s =
    (s.onRunning (fun d => match d.portUp port, parseFrame (d.parseCtx port) frame with
    | true, .solicit ip off stop => d.answerSolicit port frame ip off stop
    | _, _ => d)) := rfl

theorem exec_ingressFrame (port : Nat) (frame : List Byte) (ns : Nat) (s : State) : exec (.ingressFrame port frame ns) s =
    (s.onRunning (fun d => d.ingressFrame port frame ns)) := rfl

theorem exec_manifestQuery (peer : Nat) (message : List Byte) (s : State) : exec (.manifestQuery peer message) s =
    (s.onRunning (fun d => match parsePeerMsg message with
    | some m => if m.type_ = 1 then d.manifestQuery peer m else d
    | none => d)) := rfl

theorem exec_manifestReply (peer : Nat) (message : List Byte) (s : State) : exec (.manifestReply peer message) s =
    (s.onRunning (fun d => match parsePeerMsg message with
    | some m => if m.type_ = 2 && (d.peer? peer).isSome then d.manifestReply peer m else d
    | none => d)) := rfl

theorem exec_readReq (peer : Nat) (message : List Byte) (s : State) : exec (.readReq peer message) s =
    (s.onRunning (fun d => match parsePeerMsg message with
    | some m => if m.type_ = 3 && (d.peer? peer).isSome then d.serveRead peer m else d
    | none => d)) := rfl

theorem exec_readReady (peer : Nat) (message : List Byte) (s : State) : exec (.readReady peer message) s =
    (s.onRunning (fun d => match parsePeerMsg message with
    | some m => if m.type_ = 4 then d.readReady peer m else d
    | none => d)) := rfl

theorem exec_readFail (peer : Nat) (message : List Byte) (s : State) : exec (.readFail peer message) s =
    (s.onRunning (fun d => match parsePeerMsg message with
    | some m => if m.type_ = 5 then d.readFail peer m else d
    | none => d)) := rfl

theorem exec_release (peer : Nat) (message : List Byte) (s : State) : exec (.release peer message) s =
    (s.onRunning (fun d => match parsePeerMsg message with
    | some m => if m.type_ = 6 then d.endServed peer m.tag else d
    | none => d)) := rfl

theorem exec_peerLinkReadDone (peer tag : Nat) (data : List Byte) (s : State) : exec (.peerLinkReadDone peer tag data) s =
    (s.onRunning (fun d => d.linkReadDone peer tag data)) := rfl

theorem exec_peerRequestTimeout (peer tag : Nat) (s : State) : exec (.peerRequestTimeout peer tag) s =
    (s.onRunning (fun d => d.requestTimeout peer tag)) := rfl

theorem exec_peerBusyRetry (peer tag : Nat) (s : State) : exec (.peerBusyRetry peer tag) s =
    (s.onRunning (fun d => d.busyRetry peer tag)) := rfl

theorem exec_peerReleaseTimeout (peer tag : Nat) (s : State) : exec (.peerReleaseTimeout peer tag) s =
    (s.onRunning (fun d => d.releaseTimeout peer tag)) := rfl

theorem exec_peerProbe (peer : Nat) (s : State) : exec (.peerProbe peer) s =
    (s.onRunning (fun d => d.peerProbe peer)) := rfl

theorem exec_portLinkLoss (port : Nat) (s : State) : exec (.portLinkLoss port) s =
    (s.onRunning (fun d => d.portLost port)) := rfl

theorem exec_ethRefclkLoss (port : Nat) (s : State) : exec (.ethRefclkLoss port) s =
    (s.onRunning (fun d => d.portLost port)) := rfl

theorem exec_tickBusFrame (frame : List Byte) (s : State) : exec (.tickBusFrame frame) s =
    (s.onRunning (fun d => d.tickFrameIn frame)) := rfl

theorem exec_tickPulseMissing  (s : State) : exec (.tickPulseMissing) s =
    (s.onRunning Dev.pulseMissing) := rfl

theorem exec_ptpSyncMessage (offset : Int) (boundaryNs : Nat) (s : State) : exec (.ptpSyncMessage offset boundaryNs) s =
    (s.onRunning (fun d => d.ptpSync offset boundaryNs)) := rfl

theorem exec_ptpSyncTimeout  (s : State) : exec (.ptpSyncTimeout) s =
    (s.onRunning (fun d => if d.ptpMember then d.losePtp else d)) := rfl

theorem exec_resync (reference number eNs : Nat) (found : BoundaryFound) (s : State) : exec (.resync reference number eNs found) s =
    (s.onRunning (fun d => d.meetReference reference number eNs found)) := rfl

theorem exec_slumberEntry  (s : State) : exec (.slumberEntry) s =
    (s.onRunning Dev.enterSlumber) := rfl

theorem exec_slumberExit  (s : State) : exec (.slumberExit) s =
    (s.onRunning Dev.exitSlumber) := rfl

theorem exec_powerStateExitDone  (s : State) : exec (.powerStateExitDone) s =
    (s.onRunning (fun d => if d.bellows.exiting then Dev.settlePower { d with bellows := { d.bellows with exiting := false } } else d)) := rfl

theorem exec_droopDetect (block : BlockRef) (s : State) : exec (.droopDetect block) s =
    (s.onRunning (fun d => match d.blockOf block with | some g => d.droopDetect g | none => d)) := rfl

theorem exec_droopRecover (block : BlockRef) (s : State) : exec (.droopRecover block) s =
    (s.onRunning (fun d => match d.blockOf block with
    | some g => if (d.block g).drooped then d.modBlock g (fun x => { x with drooped := false }) else d
    | none => d)) := rfl

theorem exec_droopCeilingExpire  (s : State) : exec (.droopCeilingExpire) s =
    (s.onRunning (fun d => match d.bellows.droop with
    | some (_, t) => if t ≤ d.tick.count then { d with bellows := { d.bellows with droop := none } } else d
    | none => d)) := rfl

theorem exec_pmbusRead (reads : List (Option (Nat × Nat))) (s : State) : exec (.pmbusRead reads) s =
    (s.onRunning (fun d => d.pmbusRead reads)) := rfl

theorem exec_gainUpdate  (s : State) : exec (.gainUpdate) s =
    (s.onRunning (fun d => (List.range 20).foldl Dev.updateGain d)) := rfl

theorem exec_holdupTestDue  (s : State) : exec (.holdupTestDue) s =
    (s.onRunning Dev.testFallsDue) := rfl

theorem exec_holdupTestDone (dtUs v2Mv : Nat) (s : State) : exec (.holdupTestDone dtUs v2Mv) s =
    (s.onRunning (fun d => d.testDone dtUs v2Mv)) := rfl

theorem exec_holdupTestTimeout  (s : State) : exec (.holdupTestTimeout) s =
    (s.onRunning Dev.testTimeout) := rfl

theorem exec_quenchTrip (die sensor : Nat) (s : State) : exec (.quenchTrip die sensor) s =
    (s.onDev (fun d => if d.boot.held != 0 || d.bellows.tripped then d else { d with
    bellows := { d.bellows with tripped := true, quench := some (die, sensor) }
    face := { d.face with flushing := false }
    boot := { d.boot with pins := { d.boot.pins with thermtripL := false } } })) := rfl

theorem exec_powerOn (found : BringupFound) (s : State) : exec (.powerOn found) s =
    (s.onReset (fun _ => true) (fun d => Dev.coldReset { d with face := { d.face with pfailLow := false } } found 1)) := rfl

theorem exec_resetLAssert (found : BringupFound) (s : State) : exec (.resetLAssert found) s =
    (s.onReset (fun d => d.boot.held != 3) (fun d =>
    if d.face.pfailLow then { d with face := { d.face with flushing := false }, boot := { d.boot with held := 1 } } else d.coldReset found 1)) := rfl

theorem exec_perstL (found : BringupFound) (s : State) : exec (.perstL found) s =
    (s.onReset (fun d => !d.stopped) (fun d => d.warmReset found false)) := rfl

theorem exec_pfailLFall  (s : State) : exec (.pfailLFall) s =
    (s.onDev (fun d =>
    if d.face.pfailLow then d
    else
      let low : Dev := { d with face := { d.face with pfailLow := true } }
      if d.stopped then low
      else if d.hearth.state = .boot then { low with boot := { low.boot with held := 1 } }
      else
        let d := low.abortTest
        { d with face := { d.face with flushing := true } })) := rfl

theorem exec_pfailLRise  (s : State) : exec (.pfailLRise) s =
    (s.onDev (fun d => { d with face := { d.face with pfailLow := false } })) := rfl

theorem exec_holdupFlushDone (found : BringupFound) (s : State) : exec (.holdupFlushDone found) s =
    (if !s.dev.face.flushing then .next s
  else
    let d := s.dev.endWrites.flushBuffer false
    let d : Dev := { d with face := { d.face with flushing := false } }
    if d.face.pfailLow then .next { s with dev := { d with boot := { d.boot with held := 1 } } }
    else .next { s with hdr := [], dev := d.warmReset found true }) := rfl

theorem exec_railFault (rail : Nat) (s : State) : exec (.railFault rail) s =
    (s.onDev (fun d =>
    if d.boot.held = 1 || d.boot.held = 3 then d
    else { d with
      face := { d.face with flushing := false }
      boot := { d.boot with held := 3, railFaults := d.boot.railFaults ++ [rail % 256 + 256 * bitNat d.face.flushing] } })) := rfl

theorem exec_lpoClkLoss  (s : State) : exec (.lpoClkLoss) s =
    (s.onRunning (fun d => if d.bellows.slumber then { d with bellows := { d.bellows with lpoLost := true } } else d)) := rfl

theorem exec_loadFw (image : List Byte) (readBackOk : Bool) (found : BringupFound) (s : State) : exec (.loadFw image readBackOk found) s =
    (if s.dev.recLoads image readBackOk then
    .next { s with hdr := [], dev := (s.dev.onRec false (fun d => d.recLoad image readBackOk)).coldReset found 1 }
  else s.onDev (fun d => d.onRec false (fun d => d.recLoad image readBackOk))) := rfl

theorem exec_readLog  (s : State) : exec (.readLog) s =
    (s.onDev (fun d => d.onRec true Dev.recReadLog)) := rfl

theorem exec_factoryDefaults (readBackOk : Bool) (s : State) : exec (.factoryDefaults readBackOk) s =
    (s.onDev (fun d => d.onRec false (fun d => d.recDefaults readBackOk))) := rfl

theorem exec_sanitize (readBackOk : Bool) (s : State) : exec (.sanitize readBackOk) s =
    (s.onDev (fun d => d.onRec false (fun d => d.recSanitize readBackOk))) := rfl

theorem exec_reset (found : BringupFound) (s : State) : exec (.reset found) s =
    (if s.dev.recServes false then .next { s with hdr := [], dev := (s.dev.onRec false (fun d => d.recEnd RecResult.ok)).coldReset found 1 }
  else s.onDev (fun d => d.onRec false id)) := rfl

theorem exec_forceRecovery (found : BringupFound) (s : State) : exec (.forceRecovery found) s =
    (if s.dev.recServes true && s.dev.recArg == forceKey then
    .next { s with hdr := [], dev := ((s.dev.onRec true (fun d => d.recEnd RecResult.ok)).forceRecovery).coldReset found 1 }
  else s.onDev (fun d => d.onRec true (fun d => d.recEnd RecResult.badArg))) := rfl

theorem exec_recStatusRead  (s : State) : exec (.recStatusRead) s =
    (s.onDev (fun d => if d.stopped then d else (d.emit (.readData (leBytes 4 d.side.recov.status))).modRec (fun x => { x with ignored := false }))) := rfl

theorem exec_sanitizeDone (failed : List (Nat × Nat)) (s : State) : exec (.sanitizeDone failed) s =
    (s.onRunning (fun d => d.sanitizeDone failed)) := rfl

theorem exec_nvmeCreateIoSq (c : NvmeRequest) (s : State) : exec (.nvmeCreateIoSq c) s =
    (s.onDev (fun d => d.onNvme c false (fun d => d.createSq c))) := rfl

theorem exec_nvmeCreateIoCq (c : NvmeRequest) (s : State) : exec (.nvmeCreateIoCq c) s =
    (s.onDev (fun d => d.onNvme c false (fun d => d.createCq c))) := rfl

theorem exec_nvmeDeleteIoSq (c : NvmeRequest) (s : State) : exec (.nvmeDeleteIoSq c) s =
    (s.onDev (fun d => d.onNvme c false (fun d => d.deleteSq c))) := rfl

theorem exec_nvmeDeleteIoCq (c : NvmeRequest) (s : State) : exec (.nvmeDeleteIoCq c) s =
    (s.onDev (fun d => d.onNvme c false (fun d => d.deleteCq c))) := rfl

theorem exec_getLogPage (c : NvmeRequest) (s : State) : exec (.getLogPage c) s =
    (s.onDev (fun d => d.onNvme c false (fun d => d.getLogPage c))) := rfl

theorem exec_identify (c : NvmeRequest) (s : State) : exec (.identify c) s =
    (s.onDev (fun d => d.onNvme c false (fun d => d.identify c))) := rfl

theorem exec_abort (c : NvmeRequest) (s : State) : exec (.abort c) s =
    (s.onDev (fun d => d.onNvme c false (fun d => d.abort c))) := rfl

theorem exec_setFeatures (c : NvmeRequest) (s : State) : exec (.setFeatures c) s =
    (s.onDev (fun d => d.onNvme c false (fun d => d.setFeatures c))) := rfl

theorem exec_getFeatures (c : NvmeRequest) (s : State) : exec (.getFeatures c) s =
    (s.onDev (fun d => d.onNvme c false (fun d => d.getFeatures c))) := rfl

theorem exec_asynchronousEventRequest (c : NvmeRequest) (s : State) : exec (.asynchronousEventRequest c) s =
    (s.onDev (fun d => d.onNvme c false (fun d => d.eventRequest c))) := rfl

theorem exec_deviceSelfTest (c : NvmeRequest) (s : State) : exec (.deviceSelfTest c) s =
    (s.onDev (fun d => d.onNvme c false (fun d => d.deviceSelfTest c))) := rfl

theorem exec_selftestDone (segment : Nat) (die : Option Nat) (s : State) : exec (.selftestDone segment die) s =
    (s.onRunning (fun d => d.selfTestDone segment die)) := rfl

theorem exec_nvmeSanitize (c : NvmeRequest) (s : State) : exec (.nvmeSanitize c) s =
    (s.onDev (fun d => d.onNvme c false (fun d => d.nvmeSanitize c))) := rfl

theorem exec_nvmeFlush (c : NvmeRequest) (s : State) : exec (.nvmeFlush c) s =
    (s.onDev (fun d => d.onNvme c true (fun d => d.nvmeFlush c))) := rfl

theorem exec_nvmeWrite (c : NvmeRequest) (s : State) : exec (.nvmeWrite c) s =
    (s.onDev (fun d => d.onNvme c true (fun d => d.nvmeWrite c))) := rfl

theorem exec_nvmeRead (c : NvmeRequest) (s : State) : exec (.nvmeRead c) s =
    (s.onDev (fun d => d.onNvme c true (fun d => d.nvmeRead c))) := rfl

theorem exec_writeZeroes (c : NvmeRequest) (s : State) : exec (.writeZeroes c) s =
    (s.onDev (fun d => d.onNvme c true (fun d => d.writeZeroes c))) := rfl

theorem exec_datasetManagement (c : NvmeRequest) (s : State) : exec (.datasetManagement c) s =
    (s.onDev (fun d => d.onNvme c true (fun d => d.datasetManagement c))) := rfl

theorem exec_nvmeInvalidOpcode (c : NvmeRequest) (s : State) : exec (.nvmeInvalidOpcode c) s =
    (s.onDev (fun d => d.onNvme c (c.sq != 0) (fun d => d.nvmeReply c .invalidOpcode))) := rfl

theorem exec_openExtentClose (dataset : Nat) (s : State) : exec (.openExtentClose dataset) s =
    (s.onRunning (fun d => d.closeOpenExtent dataset)) := rfl

theorem exec_apstTransition  (s : State) : exec (.apstTransition) s =
    (s.onRunning Dev.apstTransition) := rfl

theorem exec_pf0Reset  (s : State) : exec (.pf0Reset) s =
    (s.onRunning Dev.pf0Reset) := rfl

theorem exec_setEndpointId (p : MctpPacket) (s : State) : exec (.setEndpointId p) s =
    (s.onRunning (fun d => d.onControl p 1 2 (fun d b => d.setEid p b))) := rfl

theorem exec_getEndpointId (p : MctpPacket) (s : State) : exec (.getEndpointId p) s =
    (s.onRunning (fun d => d.onControl p 2 0 (fun d _ => d.controlReply p 0 (leBytes 1 d.side.mctp.eid ++ zeros 2)))) := rfl

theorem exec_getMctpVersionSupport (p : MctpPacket) (s : State) : exec (.getMctpVersionSupport p) s =
    (s.onRunning (fun d => d.onControl p 4 1 (fun d b => d.mctpVersions p b))) := rfl

theorem exec_getMessageTypeSupport (p : MctpPacket) (s : State) : exec (.getMessageTypeSupport p) s =
    (s.onRunning (fun d => d.onControl p 5 0 (fun d _ => d.controlReply p 0 (leBytes 1 1 ++ leBytes 1 0x7F)))) := rfl

theorem exec_getVendorDefinedMessageSupport (p : MctpPacket) (s : State) : exec (.getVendorDefinedMessageSupport p) s =
    (s.onRunning (fun d => d.onControl p 6 1 (fun d b => d.mctpVendors p b))) := rfl

theorem exec_vendorDefinedMessage (p : MctpPacket) (s : State) : exec (.vendorDefinedMessage p) s =
    (.next { s with
    hdr := vendorHdr s.hdr s.dev p
    dev := if s.dev.stopped then s.dev else s.dev.onVendor p (s.version sideKey) }) := rfl

theorem exec_setdasa (address : Nat) (s : State) : exec (.setdasa address) s =
    (s.onRunning (fun d => d.modMctp (fun x => if x.dynAddr.isNone then { x with dynAddr := some (address % 128) } else x))) := rfl

theorem exec_entdaa (address : Nat) (s : State) : exec (.entdaa address) s =
    (s.onRunning (fun d => d.modMctp (fun x => if x.dynAddr.isNone then { x with dynAddr := some (address % 128) } else x))) := rfl

theorem exec_rstdaa  (s : State) : exec (.rstdaa) s =
    (s.onRunning (fun d => d.modMctp (fun x => { x with dynAddr := none }))) := rfl

theorem exec_bypass (bits : List Bool) (s : State) : exec (.bypass bits) s =
    (s.onDev (fun d => (d.modJtag (fun x => { x with ir := .bypass, extest := false })).emit (.tdo ((false :: bits).take bits.length)))) := rfl

theorem exec_idcode (bits : List Bool) (s : State) : exec (.idcode bits) s =
    (s.onDev (fun d => (d.modJtag (fun x => { x with ir := .idcode, extest := false })).emit (.tdo ((idcodeBits ++ bits).take bits.length)))) := rfl

theorem exec_samplePreload (bits : List Bool) (s : State) : exec (.samplePreload bits) s =
    (s.onDev (fun d =>
    let (k, d) := d.draw
    (d.modJtag (fun _ => { ir := .samplePreload, boundary := bits, extest := false })).emit (.tdo (freeBits k bits.length)))) := rfl

theorem exec_extest (bits : List Bool) (s : State) : exec (.extest bits) s =
    (s.onDev (fun d =>
    if d.hearth.state != .boot && d.hearth.state != .recovery then d
    else
      let (k, d) := d.draw
      (d.modJtag (fun _ => { ir := .extest, boundary := bits, extest := true })).emit (.tdo (freeBits k bits.length)))) := rfl

theorem exec_readShared (region : Fin 8) (slot : Nat) (block : Fin 16) (s : State) : exec (.readShared region slot block) s =
    (s.onRunning (fun d => d.readShared region.val slot block.val)) := rfl

theorem exec_readOwn (region : Fin 8) (slot : Nat) (block : Fin 16) (s : State) : exec (.readOwn region slot block) s =
    (s.onRunning (fun d => d.readOwn region.val slot block.val)) := rfl

theorem exec_writeback (region : Fin 8) (slot : Nat) (block : Fin 16) (s : State) : exec (.writeback region slot block) s =
    (s.onRunning (fun d => d.writeback region.val slot block.val)) := rfl

theorem exec_evictClean (region : Fin 8) (slot : Nat) (block : Fin 16) (s : State) : exec (.evictClean region slot block) s =
    (s.onRunning (fun d => d.evictClean region.val slot block.val)) := rfl

theorem exec_hubRead (region : Fin 8) (slot : Nat) (s : State) : exec (.hubRead region slot) s =
    (s.onRunning (fun d => d.hubRead region.val slot)) := rfl

theorem exec_hubWrite (region : Fin 8) (slot : Nat) (mask : Nat) (data : List Byte) (s : State) : exec (.hubWrite region slot mask data) s =
    (s.onRunning (fun d => d.hubWrite region.val slot mask data)) := rfl

theorem exec_bufferAllocate (region : Fin 8) (len : Nat) (tenant cls : Nat) (s : State) : exec (.bufferAllocate region len tenant cls) s =
    (s.onRunning (fun d => d.bufferAllocate region.val len tenant cls)) := rfl

theorem exec_share (handle cls tenant : Nat) (s : State) : exec (.share handle cls tenant) s =
    (s.onRunning (fun d => d.shareBuf handle cls tenant)) := rfl

theorem exec_drop (handle cls tenant : Nat) (s : State) : exec (.drop handle cls tenant) s =
    (s.onRunning (fun d => d.dropBuf handle cls tenant)) := rfl

theorem exec_move (block : BlockRef) (m : MoveRec) (tenant : Nat) (mem : List Byte) (s : State) : exec (.move block m tenant mem) s =
    (s.onRunning (fun d => d.move block m tenant mem)) := rfl

theorem exec_compressorData (ctx log cls tenant : Nat) (data : List Byte) (s : State) : exec (.compressorData ctx log cls tenant data) s =
    (s.onRunning (fun d => d.compressorData ctx log cls tenant data)) := rfl

theorem exec_compressorFlush (ctx : Nat) (s : State) : exec (.compressorFlush ctx) s =
    (s.onRunning (fun d => d.compressorFlush ctx)) := rfl

theorem exec_compressorEnd (ctx : Nat) (s : State) : exec (.compressorEnd ctx) s =
    (s.onRunning (fun d => d.compressorEnd ctx)) := rfl

theorem exec_maintenanceMoveDone (what : Nat) (s : State) : exec (.maintenanceMoveDone what) s =
    (s.onRunning (fun d => d.moveDone what)) := rfl

theorem exec_blockStoreCe (block : BlockRef) (s : State) : exec (.blockStoreCe block) s =
    (s.onRunning (fun d => match d.blockOf block with
    | some g => if d.blockIn g then d.blockTrouble (d.regionOfBlock g) BlockBit.storeCe else d
    | none => d)) := rfl

theorem exec_gaugePageWrite (tenant reservoir : Nat) (data : List Byte) (s : State) : exec (.gaugePageWrite tenant reservoir data) s =
    (s.onRunning (fun d => d.gaugeWrite (resKey tenant reservoir) data)) := rfl

theorem exec_peerBufferRdmaRead (peer link : Nat) (s : State) : exec (.peerBufferRdmaRead peer link) s =
    (s.onRunning (fun d => d.answerLink peer link)) := rfl

theorem exec_localAckTimeout (qp : QpRef) (s : State) : exec (.localAckTimeout qp) s =
    (s.onRunning (fun d => d.ackTimeout qp)) := rfl

theorem exec_replayExportDone (w : Window) (ticket : Nat) (s : State) : exec (.replayExportDone w ticket) s =
    (s.onRunning (fun d => d.exportDone w.num ticket)) := rfl

theorem exec_replayLogDeleteDone (w : Window) (ticket : Nat) (s : State) : exec (.replayLogDeleteDone w ticket) s =
    (s.onRunning (fun d => d.logDeleteDone w.num ticket)) := rfl

theorem exec_unitUngated (unit : Nat) (s : State) : exec (.unitUngated unit) s =
    (s.onRunning (fun d => d.modUnit (UnitClass.ofCode (unit / 65536)) (unit % 65536) (fun x => { x with ungating := false }))) := rfl

theorem exec_standbyPowerLoss  (s : State) : exec (.standbyPowerLoss) s =
    (s.onDev (fun d => { d with
    bellows := { d.bellows with quench := none }
    boot := { d.boot with pendPools := [none, none, none, none], railFaults := [] } })) := rfl

theorem exec_ccEnSet  (s : State) : exec (.ccEnSet) s =
    (s.onRunning (fun d => { d with nvme := { d.nvme with ccEn := true } })) := rfl

theorem exec_busMasterEnableChange (fn : Nat) (enabled : Bool) (s : State) : exec (.busMasterEnableChange fn enabled) s =
    (s.onRunning (fun d => d.setBusMaster fn enabled)) := rfl

theorem exec_sriovVfEnable (vf : Nat) (s : State) : exec (.sriovVfEnable vf) s =
    (s.onRunning (fun d => { d with hearth := { d.hearth with vfs := if d.hearth.vfs.contains vf then d.hearth.vfs else insertByKey id vf d.hearth.vfs } })) := rfl

theorem exec_opcodeUnknown (w : Window) (opcode : Nat) (r : Request) (s : State) : exec (.opcodeUnknown w opcode r) s =
    (if opcodeDefined opcode (s.version w.num) then .next s else s.onDoorbell (cmdUnknown opcode) w r) := rfl

theorem exec_badCode (code : Nat) (s : State) : exec (.badCode code) s =
    (s.onDev (fun d => if 1 ≤ code % 256 && code % 256 ≤ 6 then d else d.onRec true (fun d => d.recEnd RecResult.badCode))) := rfl

end Sys2Proof.Laws
end

