-- ==== Sys2Proof/Laws/Ops.lean ====
section
/-!
SUPPORT. Laws/Ops.lean: what the shared operations over windows, event rings, tickets and counters do, and that they change nothing else.
-/
namespace Sys2Proof.Laws

open Sys2Proof.Machine

/-! ### Windows -/

theorem win_setWin (d : Dev) (w j : Nat) (x : Win) : (d.setWin w x).win j = if j = w then x else d.win j := amap_getD_set _ _ _ _ _

@[simp] theorem win_setWin_same (d : Dev) (w : Nat) (x : Win) : (d.setWin w x).win w = x := by rw [win_setWin, if_pos rfl]

theorem win_modWin (d : Dev) (w j : Nat) (f : Win → Win) : (d.modWin w f).win j = if j = w then f (d.win w) else d.win j := win_setWin _ _ _ _

@[simp] theorem win_modWin_same (d : Dev) (w : Nat) (f : Win → Win) : (d.modWin w f).win w = f (d.win w) := win_setWin_same _ _ _

@[simp] theorem win_emit (d : Dev) (o : Output) (w : Nat) : (d.emit o).win w = d.win w := rfl

@[simp] theorem win_count (d : Dev) (id idx n w : Nat) : (d.count id idx n).win w = d.win w := by unfold Dev.count; split <;> rfl

theorem win_donePending (d : Dev) (w j : Nat) :
    (d.donePending w).win j = if j = w then { d.win w with donePending := true } else d.win j := by
  unfold Dev.donePending
  dsimp only
  split <;> simp [win_setWin]

theorem win_eventPending (d : Dev) (w j : Nat) :
    (d.eventPending w).win j = if j = w then { d.win w with eventPending := true } else d.win j := by
  unfold Dev.eventPending
  dsimp only
  split <;> simp [win_setWin]

/-- A response leaves the window DONE with DONE_PENDING set and the response in its area (R139). -/
theorem win_respond (d : Dev) (w s t : Nat) (bs : List Byte) (j : Nat) :
    (d.respond w s t bs).win j =
      if j = w then { d.win w with resp := respBytes s t d.tick.count bs, state := .done, donePending := true } else d.win j := by
  unfold Dev.respond
  rw [win_donePending]
  by_cases h : j = w
  · subst h; simp
  · simp [h, win_modWin]

/-! ### What posting changes: windows, counters and outputs, and nothing else -/

/-- `d'` differs from `d` at most in its mailbox windows, its counters and its outputs. -/
def PostsOnly (d d' : Dev) : Prop :=
  d' = { d with hearth := { d.hearth with wins := d'.hearth.wins, counters := d'.hearth.counters }, out := d'.out }

theorem PostsOnly.refl (d : Dev) : PostsOnly d d := rfl

theorem PostsOnly.trans {a b c : Dev} (h1 : PostsOnly a b) (h2 : PostsOnly b c) : PostsOnly a c := by
  unfold PostsOnly at *
  rw [h2, h1]

theorem postsOnly_emit (d : Dev) (o : Output) : PostsOnly d (d.emit o) := rfl

theorem postsOnly_setWin (d : Dev) (w : Nat) (x : Win) : PostsOnly d (d.setWin w x) := rfl

theorem postsOnly_modWin (d : Dev) (w : Nat) (f : Win → Win) : PostsOnly d (d.modWin w f) := rfl

theorem postsOnly_count (d : Dev) (id idx n : Nat) : PostsOnly d (d.count id idx n) := by unfold Dev.count; split <;> rfl

theorem postsOnly_donePending (d : Dev) (w : Nat) : PostsOnly d (d.donePending w) := by unfold Dev.donePending; dsimp only; split <;> rfl

theorem postsOnly_eventPending (d : Dev) (w : Nat) : PostsOnly d (d.eventPending w) := by unfold Dev.eventPending; dsimp only; split <;> rfl

theorem postsOnly_respond (d : Dev) (w s t : Nat) (bs : List Byte) : PostsOnly d (d.respond w s t bs) :=
  (postsOnly_modWin _ _ _).trans (postsOnly_donePending _ _)

theorem postsOnly_refuse (d : Dev) (w : Nat) (s : Status) : PostsOnly d (d.refuse w s) := (postsOnly_count _ _ _ _).trans (postsOnly_respond _ _ _ _ _)

theorem postsOnly_writeEntry (d : Dev) (w base : Nat) (e : Event) : PostsOnly d (d.writeEntry w base e) :=
  (((postsOnly_emit _ _).trans (postsOnly_emit _ _)).trans (postsOnly_setWin _ _ _)).trans (postsOnly_eventPending _ _)

theorem postsOnly_postStaged (w : Nat) : ∀ (n : Nat) (d : Dev), PostsOnly d (Dev.postStaged n w d) := by
  intro n
  induction n with
  | zero => intro d; exact PostsOnly.refl d
  | succ n ih =>
    intro d
    unfold Dev.postStaged
    dsimp only
    split
    · exact PostsOnly.refl d
    · split
      · exact PostsOnly.refl d
      · split
        · exact ((postsOnly_setWin _ _ _).trans (postsOnly_writeEntry _ _ _ _)).trans (ih _)
        · split
          · exact PostsOnly.refl d
          · exact ((postsOnly_setWin _ _ _).trans (postsOnly_writeEntry _ _ _ _)).trans (ih _)

theorem postsOnly_flushStaged (d : Dev) (w : Nat) : PostsOnly d (d.flushStaged w) := postsOnly_postStaged _ _ _

theorem postsOnly_post (d : Dev) (w : Nat) (e : Event) : PostsOnly d (d.post w e) := by
  unfold Dev.post
  dsimp only
  split
  · exact (postsOnly_setWin _ _ _).trans (postsOnly_count _ _ _ _)
  · exact (postsOnly_setWin _ _ _).trans (postsOnly_flushStaged _ _)

theorem postsOnly_event (d : Dev) (w c s : Nat) (fs : List (Nat × Nat × Nat)) : PostsOnly d (d.event w c s fs) := postsOnly_post _ _ _

theorem postsOnly_writeSgl (fn : Nat) : ∀ (l : List SglEntry) (d : Dev) (o : Nat) (bs : List Byte), PostsOnly d (d.writeSgl fn l o bs) := by
  intro l
  induction l with
  | nil => intro d o bs; exact PostsOnly.refl d
  | cons e r ih =>
    intro d o bs
    unfold Dev.writeSgl
    split
    · exact PostsOnly.refl d
    · split
      · exact ih _ _ _
      · exact (postsOnly_emit _ _).trans (ih _ _ _)

theorem postsOnly_completeTicket (d : Dev) (w n s len : Nat) : PostsOnly d (d.completeTicket w n s len) := by
  unfold Dev.completeTicket
  split
  · exact PostsOnly.refl d
  · exact (postsOnly_modWin _ _ _).trans (postsOnly_post _ _ _)

theorem postsOnly_completeWith (d : Dev) (w n : Nat) (bs : List Byte) : PostsOnly d (d.completeWith w n bs) := by
  unfold Dev.completeWith
  split
  · exact PostsOnly.refl d
  · exact (postsOnly_writeSgl _ _ _ _ _).trans (postsOnly_completeTicket _ _ _ _ _)

theorem postsOnly_completeReport (d : Dev) (w n s : Nat) (bs : List Byte) : PostsOnly d (d.completeReport w n s bs) := by
  unfold Dev.completeReport
  split
  · exact PostsOnly.refl d
  · exact (postsOnly_writeSgl _ _ _ _ _).trans (postsOnly_completeTicket _ _ _ _ _)

theorem postsOnly_issueTicket (d : Dev) (w op obj : Nat) (r : Request) : PostsOnly d (d.issueTicket w op obj r).1 := rfl

section fields
variable {d d' : Dev} (h : PostsOnly d d')
include h
theorem PostsOnly.units : d'.units = d.units := by rw [h]
theorem PostsOnly.tongs : d'.tongs = d.tongs := by rw [h]
theorem PostsOnly.tick : d'.tick = d.tick := by rw [h]
theorem PostsOnly.progs : d'.progs = d.progs := by rw [h]
theorem PostsOnly.screen : d'.screen = d.screen := by rw [h]
theorem PostsOnly.vocabs : d'.vocabs = d.vocabs := by rw [h]
theorem PostsOnly.streams : d'.streams = d.streams := by rw [h]
theorem PostsOnly.tenants : d'.tenants = d.tenants := by rw [h]
theorem PostsOnly.haul : d'.haul = d.haul := by rw [h]
theorem PostsOnly.group : d'.group = d.group := by rw [h]
theorem PostsOnly.face : d'.face = d.face := by rw [h]
theorem PostsOnly.bellows : d'.bellows = d.bellows := by rw [h]
theorem PostsOnly.nvme : d'.nvme = d.nvme := by rw [h]
theorem PostsOnly.side : d'.side = d.side := by rw [h]
theorem PostsOnly.boot : d'.boot = d.boot := by rw [h]
theorem PostsOnly.draws : d'.draws = d.draws := by rw [h]
theorem PostsOnly.state : d'.hearth.state = d.hearth.state := by rw [h]
theorem PostsOnly.params : d'.hearth.params = d.hearth.params := by rw [h]
theorem PostsOnly.busMaster : d'.hearth.busMaster = d.hearth.busMaster := by rw [h]
theorem PostsOnly.cores : d'.hearth.cores = d.hearth.cores := by rw [h]
end fields

/-! ### Tickets -/

/-- The tickets of a window are those it has staged no events over: posting never changes them. -/
theorem tickets_postStaged (w j : Nat) : ∀ (n : Nat) (d : Dev), ((Dev.postStaged n w d).win j).tickets = (d.win j).tickets := by
  intro n
  induction n with
  | zero => intro d; rfl
  | succ n ih =>
    intro d
    have hw : ∀ (x : Win) (base : Nat) (e : Event), x.tickets = (d.win w).tickets →
        (((d.setWin w x).writeEntry w base e).win j).tickets = (d.win j).tickets := by
      intro x base e hx
      unfold Dev.writeEntry
      dsimp only
      rw [win_eventPending]
      by_cases h : j = w
      · subst h; simp [hx]
      · simp [h, win_setWin]
    unfold Dev.postStaged
    dsimp only
    split
    · rfl
    · split
      · rfl
      · split
        · rw [ih]; exact hw _ _ _ rfl
        · split
          · rfl
          · rw [ih]; exact hw _ _ _ rfl

theorem tickets_post (d : Dev) (w j : Nat) (e : Event) : ((d.post w e).win j).tickets = (d.win j).tickets := by
  unfold Dev.post
  dsimp only
  split
  · rw [win_count, win_setWin]
    split
    · rename_i h; subst h; rfl
    · rfl
  · unfold Dev.flushStaged
    rw [tickets_postStaged, win_setWin]
    split
    · rename_i h; subst h; rfl
    · rfl

/-- After its completion a ticket is outstanding no more, and every other ticket stands (R149). -/
theorem tickets_completeTicket (d : Dev) (w n s len j : Nat) :
    ((d.completeTicket w n s len).win j).tickets =
      if j = w ∧ (d.ticket? w n).isSome then (d.win w).tickets.filter (fun u => u.num != n) else (d.win j).tickets := by
  unfold Dev.completeTicket
  split
  · rename_i h; simp [h]
  · rename_i t h
    rw [tickets_post, win_modWin]
    by_cases hj : j = w
    · simp [hj, h]
    · simp [hj]

theorem win_writeSgl (fn j : Nat) : ∀ (l : List SglEntry) (d : Dev) (o : Nat) (bs : List Byte), (d.writeSgl fn l o bs).win j = d.win j := by
  intro l
  induction l with
  | nil => intro d o bs; rfl
  | cons e r ih =>
    intro d o bs
    unfold Dev.writeSgl
    split
    · rfl
    · split
      · exact ih _ _ _
      · rw [ih]; rfl

theorem ticket_writeSgl (fn w n : Nat) (l : List SglEntry) (d : Dev) (o : Nat) (bs : List Byte) :
    (d.writeSgl fn l o bs).ticket? w n = d.ticket? w n := by
  unfold Dev.ticket?
  rw [win_writeSgl]

theorem ticket_completeTicket (d : Dev) (w n s len : Nat) : (d.completeTicket w n s len).ticket? w n = none := by
  cases h : d.ticket? w n with
  | none => unfold Dev.completeTicket; rw [h]; exact h
  | some t =>
    unfold Dev.ticket?
    rw [tickets_completeTicket]
    simp [h]

theorem ticket_completeWith (d : Dev) (w n : Nat) (bs : List Byte) : (d.completeWith w n bs).ticket? w n = none := by
  unfold Dev.completeWith
  split
  · assumption
  · exact ticket_completeTicket _ _ _ _ _

theorem ticket_completeReport (d : Dev) (w n s : Nat) (bs : List Byte) : (d.completeReport w n s bs).ticket? w n = none := by
  unfold Dev.completeReport
  split
  · assumption
  · exact ticket_completeTicket _ _ _ _ _

end Sys2Proof.Laws
end

