-- ==== Sys2Proof/Laws/Flags.lean ====
section
/-!
SUPPORT. Laws/Flags.lean: what setting the bits of a trouble word leaves alone, and what a trouble word reads after it is set.
-/
namespace Sys2Proof.Laws

open Sys2Proof.Machine

/-- Setting the sticky bits of a word changes only the records of the four words. -/
theorem setSticky_frame (d : Dev) (w : TroubleWord) (i x : Nat) :
    d.setSticky w i x = { d with units := { d.units with
      cellT := (d.setSticky w i x).units.cellT, blockT := (d.setSticky w i x).units.blockT
      regionT := (d.setSticky w i x).units.regionT, chipT := (d.setSticky w i x).units.chipT } } := by
  cases w <;> rfl

/-- Setting bits of a trouble word changes only the records of the four words and what is noted for the TROUBLE event. -/
theorem trouble_frame (d : Dev) (w : TroubleWord) (i m : Nat) :
    d.trouble w i m = { d with units := { d.units with
      cellT := (d.trouble w i m).units.cellT, blockT := (d.trouble w i m).units.blockT, regionT := (d.trouble w i m).units.regionT
      chipT := (d.trouble w i m).units.chipT, fresh := (d.trouble w i m).units.fresh } } := by
  unfold Dev.trouble
  dsimp only
  split
  · rfl
  · rw [setSticky_frame]

section trouble
variable (d : Dev) (w : TroubleWord) (i m : Nat)
@[simp] theorem trouble_hearth : (d.trouble w i m).hearth = d.hearth := by rw [trouble_frame]
@[simp] theorem trouble_tick : (d.trouble w i m).tick = d.tick := by rw [trouble_frame]
@[simp] theorem trouble_tongs : (d.trouble w i m).tongs = d.tongs := by rw [trouble_frame]
@[simp] theorem trouble_streams : (d.trouble w i m).streams = d.streams := by rw [trouble_frame]
@[simp] theorem trouble_tenants : (d.trouble w i m).tenants = d.tenants := by rw [trouble_frame]
@[simp] theorem trouble_progs : (d.trouble w i m).progs = d.progs := by rw [trouble_frame]
@[simp] theorem trouble_vocabs : (d.trouble w i m).vocabs = d.vocabs := by rw [trouble_frame]
@[simp] theorem trouble_screen : (d.trouble w i m).screen = d.screen := by rw [trouble_frame]
@[simp] theorem trouble_haul : (d.trouble w i m).haul = d.haul := by rw [trouble_frame]
@[simp] theorem trouble_group : (d.trouble w i m).group = d.group := by rw [trouble_frame]
@[simp] theorem trouble_face : (d.trouble w i m).face = d.face := by rw [trouble_frame]
@[simp] theorem trouble_bellows : (d.trouble w i m).bellows = d.bellows := by rw [trouble_frame]
@[simp] theorem trouble_nvme : (d.trouble w i m).nvme = d.nvme := by rw [trouble_frame]
@[simp] theorem trouble_side : (d.trouble w i m).side = d.side := by rw [trouble_frame]
@[simp] theorem trouble_boot : (d.trouble w i m).boot = d.boot := by rw [trouble_frame]
@[simp] theorem trouble_draws : (d.trouble w i m).draws = d.draws := by rw [trouble_frame]
@[simp] theorem trouble_out : (d.trouble w i m).out = d.out := by rw [trouble_frame]
@[simp] theorem trouble_recs : (d.trouble w i m).units.recs = d.units.recs := by rw [trouble_frame]
@[simp] theorem trouble_blocks : (d.trouble w i m).units.blocks = d.units.blocks := by rw [trouble_frame]
@[simp] theorem trouble_regions : (d.trouble w i m).units.regions = d.units.regions := by rw [trouble_frame]
end trouble

theorem sticky_lt (d : Dev) (w : TroubleWord) (i : Nat) (h : w ≠ .region) : d.sticky w i < 2 ^ 32 := by
  cases w <;> simp only [Dev.sticky] <;> first | exact absurd rfl h | exact BitVec.isLt _

theorem sticky_lt64 (d : Dev) (w : TroubleWord) (i : Nat) : d.sticky w i < 2 ^ 64 := by
  by_cases h : w = .region
  · subst h; exact BitVec.isLt _
  · have := sticky_lt d w i h; omega

/-- A word reads as it was set. -/
theorem sticky_setSticky (d : Dev) (w : TroubleWord) (i x : Nat) (hx : w ≠ .region → x < 2 ^ 32) (hx2 : x < 2 ^ 64) : (d.setSticky w i x).sticky w i = x := by
  by_cases h : w = .region
  · subst h; simp only [Dev.setSticky, Dev.sticky, BitVec.toNat_ofNat]; apply Nat.mod_eq_of_lt; omega
  · have := hx h
    cases w <;> simp only [Dev.setSticky, Dev.sticky, amap_getD_set_same, BitVec.toNat_ofNat] <;> apply Nat.mod_eq_of_lt <;> omega

/-- Setting one word leaves the others alone. -/
theorem sticky_setSticky_other (d : Dev) (w w' : TroubleWord) (i j x : Nat) (h : w' ≠ w) : (d.setSticky w i x).sticky w' j = d.sticky w' j := by
  cases w <;> cases w' <;> first | exact absurd rfl h | rfl

/-- The word at an index after some of its bits are set. -/
theorem sticky_trouble (d : Dev) (w : TroubleWord) (i m : Nat) (hm : m < 2 ^ 64) (hm2 : w ≠ .region → m < 2 ^ 32) :
    (d.trouble w i m).sticky w i = d.sticky w i ||| m := by
  unfold Dev.trouble
  dsimp only
  split
  · rename_i h
    exact (Nat.xor_eq_zero_iff.1 h).symm
  · have hf : ∀ (e : Dev) f, Dev.sticky { e with units := { e.units with fresh := f } } w i = e.sticky w i := by intro e f; cases w <;> rfl
    rw [hf]
    exact sticky_setSticky _ _ _ _ (fun h => Nat.or_lt_two_pow (sticky_lt d w i h) (hm2 h)) (Nat.or_lt_two_pow (sticky_lt64 d w i) hm)

/-- Of the words that are kept per object, one object's stands while another's is set. -/
theorem sticky_trouble_index (d : Dev) (w : TroubleWord) (i j m : Nat) (hw : w = .cell ∨ w = .block) (hj : j ≠ i) :
    (d.trouble w i m).sticky w j = d.sticky w j := by
  unfold Dev.trouble
  dsimp only
  split
  · rfl
  · rcases hw with hw | hw <;> subst hw <;> simp only [Dev.sticky, Dev.setSticky, amap_getD_set_other _ _ _ _ _ hj]

/-- Setting bits of one word leaves the others alone. -/
theorem sticky_trouble_other (d : Dev) (w w' : TroubleWord) (i j m : Nat) (hw : w' ≠ w) : (d.trouble w i m).sticky w' j = d.sticky w' j := by
  unfold Dev.trouble
  dsimp only
  split
  · rfl
  · have hf : ∀ (e : Dev) f, Dev.sticky { e with units := { e.units with fresh := f } } w' j = e.sticky w' j := by intro e f; cases w' <;> rfl
    rw [hf]
    exact sticky_setSticky_other _ _ _ _ _ _ hw

/-- A bit once set stays set through every later setting of bits. -/
theorem sticky_trouble_mono (d : Dev) (w w' : TroubleWord) (i j m b : Nat) (hm : m < 2 ^ 64) (hm2 : w ≠ .region → m < 2 ^ 32)
    (h : (d.sticky w' j).testBit b = true) : ((d.trouble w i m).sticky w' j).testBit b = true := by
  by_cases hw : w' = w
  · subst hw
    by_cases hj : j = i
    · subst hj; rw [sticky_trouble _ _ _ _ hm hm2, Nat.testBit_or, h]; rfl
    · cases w' with
      | cell => rw [sticky_trouble_index _ _ _ _ _ (Or.inl rfl) hj]; exact h
      | block => rw [sticky_trouble_index _ _ _ _ _ (Or.inr rfl) hj]; exact h
      | region =>
        have e : (d.trouble .region i m).sticky .region j = (d.trouble .region i m).sticky .region i := rfl
        rw [e, sticky_trouble _ _ _ _ hm hm2, Nat.testBit_or]
        have e2 : d.sticky .region i = d.sticky .region j := rfl
        rw [e2, h]; rfl
      | chip =>
        have e : (d.trouble .chip i m).sticky .chip j = (d.trouble .chip i m).sticky .chip i := rfl
        rw [e, sticky_trouble _ _ _ _ hm hm2, Nat.testBit_or]
        have e2 : d.sticky .chip i = d.sticky .chip j := rfl
        rw [e2, h]; rfl
  · rw [sticky_trouble_other _ _ _ _ _ _ hw]; exact h

end Sys2Proof.Laws
end

