-- ==== Sys2Proof/Laws/Meaning.lean ====
section
/-!
SUPPORT. Laws/Meaning.lean: what the shapes of a meaning answer: with the device running, with it stopped, and for a doorbell.
-/
namespace Sys2Proof.Laws

open Sys2Proof.Machine

/-- With the device running, an event of the hardware has its effect on the device, and on nothing else. -/
theorem onRunning_live (s : State) (f : Dev → Dev) (h : s.dev.stopped = false) : s.onRunning f = .next { s with dev := f s.dev } := by
  unfold State.onRunning State.onDev
  simp [h]

/-- With the device stopped, an event of the hardware changes nothing. -/
theorem onRunning_stopped (s : State) (f : Dev → Dev) (h : s.dev.stopped = true) : s.onRunning f = .next s := by
  unfold State.onRunning State.onDev
  simp [h]

theorem onDev_eq (s : State) (f : Dev → Dev) (h : f s.dev = s.dev) : s.onDev f = .next s := by
  unfold State.onDev
  rw [h]

theorem doorbell_stopped (c : Cmd) (d : Dev) (w v : Nat) (r : Request) (h : d.stopped = true) : c.doorbell d w v r = d := by
  unfold Cmd.doorbell
  simp [h]

theorem onDoorbell_stopped (s : State) (c : Cmd) (w : Window) (r : Request) (h : s.dev.stopped = true) : s.onDoorbell c w r = .next s :=
  onDev_eq _ _ (doorbell_stopped _ _ _ _ _ h)

theorem accepts_stopped (c : Cmd) (d : Dev) (w v : Nat) (r : Request) (h : d.stopped = true) : c.accepts d w v r = false := by
  unfold Cmd.accepts
  simp [h]

theorem onReset_completes (s : State) (p : Dev → Bool) (f : Dev → Dev) : ∃ t, s.onReset p f = .next t ∧ t.pending = s.pending := by
  unfold State.onReset
  split <;> exact ⟨_, rfl, rfl⟩

@[simp] theorem state_modWin (d : Dev) (w : Nat) (f : Win → Win) : (d.modWin w f).hearth.state = d.hearth.state := rfl

@[simp] theorem state_writeRequest (d : Dev) (w op : Nat) (r : Request) : (d.writeRequest w op r).hearth.state = d.hearth.state := rfl

@[simp] theorem winState_writeRequest (d : Dev) (w op : Nat) (r : Request) : ((d.writeRequest w op r).win w).state = (d.win w).state := by
  unfold Dev.writeRequest
  rw [win_modWin_same]
  split <;> rfl

/-- A doorbell is discarded when its window is BUSY, or in BOOT and RECOVERY (R137, R141). -/
theorem discarded_iff (d : Dev) (w op : Nat) (r : Request) :
    (d.writeRequest w op r).doorbellDiscarded w = true ↔ ((d.win w).state = .busy ∨ d.hearth.state = .boot ∨ d.hearth.state = .recovery) := by
  unfold Dev.doorbellDiscarded
  simp [or_assoc]

theorem doorbell_discarded (c : Cmd) (d : Dev) (w v : Nat) (r : Request) (h : d.stopped = false)
    (hd : (d.win w).state = .busy ∨ d.hearth.state = .boot ∨ d.hearth.state = .recovery) :
    c.doorbell d w v r = (d.writeRequest w c.opcode r).modWin w (fun y => { y with ignored := true }) := by
  unfold Cmd.doorbell
  simp only [h, (discarded_iff d w c.opcode r).2 hd, if_true]
  rfl

theorem doorbell_served (c : Cmd) (d : Dev) (w : Window) (v : Nat) (r : Request) (h : d.stopped = false)
    (hb : (d.win w.num).state ≠ .busy) (h1 : d.hearth.state ≠ .boot) (h2 : d.hearth.state ≠ .recovery) :
    c.doorbell d w.num v r = c.serve (((d.writeRequest w.num c.opcode r).latch w.num r.tag).wakeUp) { w := w.num, v := v, r := r } := by
  unfold Cmd.doorbell
  have hd : (d.writeRequest w.num c.opcode r).doorbellDiscarded w.num = false := by
    rw [← Bool.not_eq_true, discarded_iff]
    simp [hb, h1, h2]
  simp only [h, hd]
  rfl

theorem accepts_discarded (c : Cmd) (d : Dev) (w v : Nat) (r : Request)
    (hd : (d.win w).state = .busy ∨ d.hearth.state = .boot ∨ d.hearth.state = .recovery) : c.accepts d w v r = false := by
  unfold Cmd.accepts
  simp [(discarded_iff d w c.opcode r).2 hd]

end Sys2Proof.Laws
end

