-- ==== Sys2Proof/Laws/Mem.lean ====
section
/-!
SUPPORT. Laws/Mem.lean: the laws of the sparse memories: a read after a write, the canonical form, and that every operation keeps it.
-/
namespace Sys2Proof.Laws

open Sys2Proof.Machine

/-- The canonical form as a proposition: addresses rise strictly, and no listed byte is what an unlisted address reads as. -/
def MemOk (d : Byte) (m : Mem) : Prop := List.Pairwise (fun p q => p.1 < q.1) m ∧ ∀ p ∈ m, p.2 ≠ d

theorem mem_wf_iff (d : Byte) (m : Mem) : Mem.wf d m = true ↔ MemOk d m := by
  induction m with
  | nil => simp [Mem.wf, MemOk]
  | cons p r ih =>
    obtain ⟨x, b⟩ := p
    cases r with
    | nil => simp [Mem.wf, MemOk]
    | cons q r =>
      obtain ⟨y, c⟩ := q
      simp only [Mem.wf, Bool.and_eq_true, bne_iff_ne, decide_eq_true_eq, ih]
      constructor
      · rintro ⟨⟨hb, hxy⟩, hp, hm⟩
        refine ⟨List.pairwise_cons.2 ⟨?_, hp⟩, ?_⟩
        · intro e he
          rcases List.mem_cons.1 he with h | h
          · subst h; exact hxy
          · exact Nat.lt_trans hxy ((List.pairwise_cons.1 hp).1 e h)
        · intro e he
          rcases List.mem_cons.1 he with h | h
          · subst h; exact hb
          · exact hm e h
      · rintro ⟨hp, hm⟩
        refine ⟨⟨hm _ List.mem_cons_self, (List.pairwise_cons.1 hp).1 _ List.mem_cons_self⟩, (List.pairwise_cons.1 hp).2, ?_⟩
        intro e he
        exact hm e (List.mem_cons_of_mem _ he)

theorem mem_write_mem (d : Byte) (m : Mem) (a : Nat) (b : Byte) (p : Nat × Byte) (h : p ∈ Mem.write d m a b) :
    (p = (a, b) ∧ b ≠ d) ∨ p ∈ m := by
  induction m with
  | nil =>
    unfold Mem.write at h
    split at h
    · simp at h
    · rename_i hb; simp at h; exact Or.inl ⟨h, hb⟩
  | cons q r ih =>
    unfold Mem.write at h
    split at h
    · split at h
      · exact Or.inr h
      · rename_i hb
        rcases List.mem_cons.1 h with h | h
        · exact Or.inl ⟨h, hb⟩
        · exact Or.inr h
    · split at h
      · split at h
        · exact Or.inr (List.mem_cons_of_mem _ h)
        · rename_i hb
          rcases List.mem_cons.1 h with h | h
          · exact Or.inl ⟨h, hb⟩
          · exact Or.inr (List.mem_cons_of_mem _ h)
      · rcases List.mem_cons.1 h with h | h
        · exact Or.inr (h ▸ List.mem_cons_self)
        · rcases ih h with h | h
          · exact Or.inl h
          · exact Or.inr (List.mem_cons_of_mem _ h)

theorem mem_write_ok (d : Byte) (m : Mem) (a : Nat) (b : Byte) (h : MemOk d m) : MemOk d (Mem.write d m a b) := by
  refine ⟨?_, ?_⟩
  · have hs := h.1
    clear h
    induction m with
    | nil => unfold Mem.write; split <;> simp
    | cons q r ih =>
      obtain ⟨x, c⟩ := q
      have hq := (List.pairwise_cons.1 hs).1
      have hr := (List.pairwise_cons.1 hs).2
      unfold Mem.write
      by_cases h1 : a < x
      · rw [if_pos h1]
        split
        · exact hs
        · refine List.pairwise_cons.2 ⟨?_, hs⟩
          intro e he
          rcases List.mem_cons.1 he with h | h
          · subst h; exact h1
          · exact Nat.lt_trans h1 (hq e h)
      · rw [if_neg h1]
        by_cases h2 : x = a
        · rw [if_pos h2]
          split
          · exact hr
          · subst h2; exact List.pairwise_cons.2 ⟨hq, hr⟩
        · rw [if_neg h2]
          refine List.pairwise_cons.2 ⟨?_, ih hr⟩
          intro e he
          rcases mem_write_mem _ _ _ _ _ he with h | h
          · rw [h.1]; show x < a; omega
          · exact hq e h
  · intro p hp
    rcases mem_write_mem _ _ _ _ _ hp with h' | h'
    · rw [h'.1]; exact h'.2
    · exact h.2 p h'

/-- A write keeps the canonical form. -/
theorem mem_write_wf (d : Byte) (m : Mem) (a : Nat) (b : Byte) (h : Mem.wf d m = true) : Mem.wf d (Mem.write d m a b) = true :=
  (mem_wf_iff _ _).2 (mem_write_ok d m a b ((mem_wf_iff _ _).1 h))

theorem mem_writeAll_wf (d : Byte) (bs : List Byte) : ∀ (m : Mem) (a : Nat), Mem.wf d m = true → Mem.wf d (Mem.writeAll d m a bs) = true := by
  induction bs with
  | nil => intro m a h; exact h
  | cons b r ih => intro m a h; exact ih _ _ (mem_write_wf d m a b h)

/-- An erase keeps the canonical form. -/
theorem mem_erase_wf (d : Byte) (m : Mem) (a n : Nat) (h : Mem.wf d m = true) : Mem.wf d (Mem.erase m a n) = true := by
  rw [mem_wf_iff] at h ⊢
  exact ⟨List.Pairwise.filter _ h.1, fun p hp => h.2 p (List.mem_filter.1 hp).1⟩

theorem mem_read_above (d : Byte) (m : Mem) (a : Nat) (h : ∀ p ∈ m, a < p.1) : Mem.read d m a = d := by
  induction m with
  | nil => rfl
  | cons p r ih =>
    obtain ⟨x, b⟩ := p
    have hx : a < x := h _ List.mem_cons_self
    have : ¬ x = a := by omega
    simp only [Mem.read, this, if_false]
    exact ih (fun q hq => h q (List.mem_cons_of_mem _ hq))

/-- A read after a write to the same address gives the byte written, and a write leaves every other address alone. -/
theorem mem_read_write (d : Byte) (m : Mem) (a j : Nat) (b : Byte) (h : MemOk d m) :
    Mem.read d (Mem.write d m a b) j = if j = a then b else Mem.read d m j := by
  have hs := h.1
  clear h
  induction m with
  | nil =>
    unfold Mem.write
    by_cases hb : b = d
    · subst hb; simp [Mem.read]
    · by_cases hj : j = a
      · subst hj; simp [hb, Mem.read]
      · have hj' : ¬ a = j := fun e => hj e.symm
        simp [hb, Mem.read, hj, hj']
  | cons q r ih =>
    obtain ⟨x, c⟩ := q
    have hq := (List.pairwise_cons.1 hs).1
    have hr := (List.pairwise_cons.1 hs).2
    unfold Mem.write
    by_cases h1 : a < x
    · rw [if_pos h1]
      by_cases hb : b = d
      · rw [if_pos hb]
        by_cases hj : j = a
        · subst hj
          rw [if_pos rfl, hb]
          refine mem_read_above d _ j ?_
          intro p hp
          rcases List.mem_cons.1 hp with e | e
          · subst e; exact h1
          · exact Nat.lt_trans h1 (hq p e)
        · rw [if_neg hj]
      · rw [if_neg hb]
        by_cases hj : j = a
        · subst hj; simp [Mem.read]
        · have hj' : ¬ a = j := fun e => hj e.symm
          simp [Mem.read, hj, hj']
    · rw [if_neg h1]
      by_cases h2 : x = a
      · rw [if_pos h2]
        subst h2
        by_cases hb : b = d
        · rw [if_pos hb]
          by_cases hj : j = x
          · subst hj
            rw [if_pos rfl, hb]
            exact mem_read_above d _ j hq
          · have hj' : ¬ x = j := fun e => hj e.symm
            simp [Mem.read, hj, hj']
        · rw [if_neg hb]
          by_cases hj : j = x
          · subst hj; simp [Mem.read]
          · have hj' : ¬ x = j := fun e => hj e.symm
            simp [Mem.read, hj, hj']
      · rw [if_neg h2]
        simp only [Mem.read]
        rw [ih hr]
        by_cases hx : x = j
        · subst hx; simp [h2]
        · simp [hx]

end Sys2Proof.Laws
end

