-- ==== Sys2Proof/Laws/State.lean ====
section
/-!
SUPPORT. Laws/State.lean: one lemma for each part of the device and each small update: the parts that the update does not change.
-/
namespace Sys2Proof.Laws

open Sys2Proof.Machine

section updates
variable (d : Dev)

/-! `emit` -/

@[simp] theorem emit_hearth (o : Output) : (d.emit o).hearth = d.hearth := rfl
@[simp] theorem emit_units (o : Output) : (d.emit o).units = d.units := rfl
@[simp] theorem emit_tongs (o : Output) : (d.emit o).tongs = d.tongs := rfl
@[simp] theorem emit_tick (o : Output) : (d.emit o).tick = d.tick := rfl
@[simp] theorem emit_progs (o : Output) : (d.emit o).progs = d.progs := rfl
@[simp] theorem emit_screen (o : Output) : (d.emit o).screen = d.screen := rfl
@[simp] theorem emit_vocabs (o : Output) : (d.emit o).vocabs = d.vocabs := rfl
@[simp] theorem emit_streams (o : Output) : (d.emit o).streams = d.streams := rfl
@[simp] theorem emit_tenants (o : Output) : (d.emit o).tenants = d.tenants := rfl
@[simp] theorem emit_haul (o : Output) : (d.emit o).haul = d.haul := rfl
@[simp] theorem emit_group (o : Output) : (d.emit o).group = d.group := rfl
@[simp] theorem emit_face (o : Output) : (d.emit o).face = d.face := rfl
@[simp] theorem emit_bellows (o : Output) : (d.emit o).bellows = d.bellows := rfl
@[simp] theorem emit_nvme (o : Output) : (d.emit o).nvme = d.nvme := rfl
@[simp] theorem emit_side (o : Output) : (d.emit o).side = d.side := rfl
@[simp] theorem emit_boot (o : Output) : (d.emit o).boot = d.boot := rfl
@[simp] theorem emit_draws (o : Output) : (d.emit o).draws = d.draws := rfl

/-! `setWin` -/

@[simp] theorem setWin_units (w : Nat) (x : Win) : (d.setWin w x).units = d.units := rfl
@[simp] theorem setWin_tongs (w : Nat) (x : Win) : (d.setWin w x).tongs = d.tongs := rfl
@[simp] theorem setWin_tick (w : Nat) (x : Win) : (d.setWin w x).tick = d.tick := rfl
@[simp] theorem setWin_progs (w : Nat) (x : Win) : (d.setWin w x).progs = d.progs := rfl
@[simp] theorem setWin_screen (w : Nat) (x : Win) : (d.setWin w x).screen = d.screen := rfl
@[simp] theorem setWin_vocabs (w : Nat) (x : Win) : (d.setWin w x).vocabs = d.vocabs := rfl
@[simp] theorem setWin_streams (w : Nat) (x : Win) : (d.setWin w x).streams = d.streams := rfl
@[simp] theorem setWin_tenants (w : Nat) (x : Win) : (d.setWin w x).tenants = d.tenants := rfl
@[simp] theorem setWin_haul (w : Nat) (x : Win) : (d.setWin w x).haul = d.haul := rfl
@[simp] theorem setWin_group (w : Nat) (x : Win) : (d.setWin w x).group = d.group := rfl
@[simp] theorem setWin_face (w : Nat) (x : Win) : (d.setWin w x).face = d.face := rfl
@[simp] theorem setWin_bellows (w : Nat) (x : Win) : (d.setWin w x).bellows = d.bellows := rfl
@[simp] theorem setWin_nvme (w : Nat) (x : Win) : (d.setWin w x).nvme = d.nvme := rfl
@[simp] theorem setWin_side (w : Nat) (x : Win) : (d.setWin w x).side = d.side := rfl
@[simp] theorem setWin_boot (w : Nat) (x : Win) : (d.setWin w x).boot = d.boot := rfl
@[simp] theorem setWin_draws (w : Nat) (x : Win) : (d.setWin w x).draws = d.draws := rfl
@[simp] theorem setWin_out (w : Nat) (x : Win) : (d.setWin w x).out = d.out := rfl

/-! `modWin` -/

@[simp] theorem modWin_units (w : Nat) (f : Win → Win) : (d.modWin w f).units = d.units := rfl
@[simp] theorem modWin_tongs (w : Nat) (f : Win → Win) : (d.modWin w f).tongs = d.tongs := rfl
@[simp] theorem modWin_tick (w : Nat) (f : Win → Win) : (d.modWin w f).tick = d.tick := rfl
@[simp] theorem modWin_progs (w : Nat) (f : Win → Win) : (d.modWin w f).progs = d.progs := rfl
@[simp] theorem modWin_screen (w : Nat) (f : Win → Win) : (d.modWin w f).screen = d.screen := rfl
@[simp] theorem modWin_vocabs (w : Nat) (f : Win → Win) : (d.modWin w f).vocabs = d.vocabs := rfl
@[simp] theorem modWin_streams (w : Nat) (f : Win → Win) : (d.modWin w f).streams = d.streams := rfl
@[simp] theorem modWin_tenants (w : Nat) (f : Win → Win) : (d.modWin w f).tenants = d.tenants := rfl
@[simp] theorem modWin_haul (w : Nat) (f : Win → Win) : (d.modWin w f).haul = d.haul := rfl
@[simp] theorem modWin_group (w : Nat) (f : Win → Win) : (d.modWin w f).group = d.group := rfl
@[simp] theorem modWin_face (w : Nat) (f : Win → Win) : (d.modWin w f).face = d.face := rfl
@[simp] theorem modWin_bellows (w : Nat) (f : Win → Win) : (d.modWin w f).bellows = d.bellows := rfl
@[simp] theorem modWin_nvme (w : Nat) (f : Win → Win) : (d.modWin w f).nvme = d.nvme := rfl
@[simp] theorem modWin_side (w : Nat) (f : Win → Win) : (d.modWin w f).side = d.side := rfl
@[simp] theorem modWin_boot (w : Nat) (f : Win → Win) : (d.modWin w f).boot = d.boot := rfl
@[simp] theorem modWin_draws (w : Nat) (f : Win → Win) : (d.modWin w f).draws = d.draws := rfl
@[simp] theorem modWin_out (w : Nat) (f : Win → Win) : (d.modWin w f).out = d.out := rfl

/-! `modUnit` -/

@[simp] theorem modUnit_hearth (c : UnitClass) (i : Nat) (f : UnitRec → UnitRec) : (d.modUnit c i f).hearth = d.hearth := rfl
@[simp] theorem modUnit_tongs (c : UnitClass) (i : Nat) (f : UnitRec → UnitRec) : (d.modUnit c i f).tongs = d.tongs := rfl
@[simp] theorem modUnit_tick (c : UnitClass) (i : Nat) (f : UnitRec → UnitRec) : (d.modUnit c i f).tick = d.tick := rfl
@[simp] theorem modUnit_progs (c : UnitClass) (i : Nat) (f : UnitRec → UnitRec) : (d.modUnit c i f).progs = d.progs := rfl
@[simp] theorem modUnit_screen (c : UnitClass) (i : Nat) (f : UnitRec → UnitRec) : (d.modUnit c i f).screen = d.screen := rfl
@[simp] theorem modUnit_vocabs (c : UnitClass) (i : Nat) (f : UnitRec → UnitRec) : (d.modUnit c i f).vocabs = d.vocabs := rfl
@[simp] theorem modUnit_streams (c : UnitClass) (i : Nat) (f : UnitRec → UnitRec) : (d.modUnit c i f).streams = d.streams := rfl
@[simp] theorem modUnit_tenants (c : UnitClass) (i : Nat) (f : UnitRec → UnitRec) : (d.modUnit c i f).tenants = d.tenants := rfl
@[simp] theorem modUnit_haul (c : UnitClass) (i : Nat) (f : UnitRec → UnitRec) : (d.modUnit c i f).haul = d.haul := rfl
@[simp] theorem modUnit_group (c : UnitClass) (i : Nat) (f : UnitRec → UnitRec) : (d.modUnit c i f).group = d.group := rfl
@[simp] theorem modUnit_face (c : UnitClass) (i : Nat) (f : UnitRec → UnitRec) : (d.modUnit c i f).face = d.face := rfl
@[simp] theorem modUnit_bellows (c : UnitClass) (i : Nat) (f : UnitRec → UnitRec) : (d.modUnit c i f).bellows = d.bellows := rfl
@[simp] theorem modUnit_nvme (c : UnitClass) (i : Nat) (f : UnitRec → UnitRec) : (d.modUnit c i f).nvme = d.nvme := rfl
@[simp] theorem modUnit_side (c : UnitClass) (i : Nat) (f : UnitRec → UnitRec) : (d.modUnit c i f).side = d.side := rfl
@[simp] theorem modUnit_boot (c : UnitClass) (i : Nat) (f : UnitRec → UnitRec) : (d.modUnit c i f).boot = d.boot := rfl
@[simp] theorem modUnit_draws (c : UnitClass) (i : Nat) (f : UnitRec → UnitRec) : (d.modUnit c i f).draws = d.draws := rfl
@[simp] theorem modUnit_out (c : UnitClass) (i : Nat) (f : UnitRec → UnitRec) : (d.modUnit c i f).out = d.out := rfl

/-! `modBlock` -/

@[simp] theorem modBlock_hearth (g : Nat) (f : BlockRec → BlockRec) : (d.modBlock g f).hearth = d.hearth := rfl
@[simp] theorem modBlock_tongs (g : Nat) (f : BlockRec → BlockRec) : (d.modBlock g f).tongs = d.tongs := rfl
@[simp] theorem modBlock_tick (g : Nat) (f : BlockRec → BlockRec) : (d.modBlock g f).tick = d.tick := rfl
@[simp] theorem modBlock_progs (g : Nat) (f : BlockRec → BlockRec) : (d.modBlock g f).progs = d.progs := rfl
@[simp] theorem modBlock_screen (g : Nat) (f : BlockRec → BlockRec) : (d.modBlock g f).screen = d.screen := rfl
@[simp] theorem modBlock_vocabs (g : Nat) (f : BlockRec → BlockRec) : (d.modBlock g f).vocabs = d.vocabs := rfl
@[simp] theorem modBlock_streams (g : Nat) (f : BlockRec → BlockRec) : (d.modBlock g f).streams = d.streams := rfl
@[simp] theorem modBlock_tenants (g : Nat) (f : BlockRec → BlockRec) : (d.modBlock g f).tenants = d.tenants := rfl
@[simp] theorem modBlock_haul (g : Nat) (f : BlockRec → BlockRec) : (d.modBlock g f).haul = d.haul := rfl
@[simp] theorem modBlock_group (g : Nat) (f : BlockRec → BlockRec) : (d.modBlock g f).group = d.group := rfl
@[simp] theorem modBlock_face (g : Nat) (f : BlockRec → BlockRec) : (d.modBlock g f).face = d.face := rfl
@[simp] theorem modBlock_bellows (g : Nat) (f : BlockRec → BlockRec) : (d.modBlock g f).bellows = d.bellows := rfl
@[simp] theorem modBlock_nvme (g : Nat) (f : BlockRec → BlockRec) : (d.modBlock g f).nvme = d.nvme := rfl
@[simp] theorem modBlock_side (g : Nat) (f : BlockRec → BlockRec) : (d.modBlock g f).side = d.side := rfl
@[simp] theorem modBlock_boot (g : Nat) (f : BlockRec → BlockRec) : (d.modBlock g f).boot = d.boot := rfl
@[simp] theorem modBlock_draws (g : Nat) (f : BlockRec → BlockRec) : (d.modBlock g f).draws = d.draws := rfl
@[simp] theorem modBlock_out (g : Nat) (f : BlockRec → BlockRec) : (d.modBlock g f).out = d.out := rfl

/-! `modRegion` -/

@[simp] theorem modRegion_hearth (r : Nat) (f : RegionRec → RegionRec) : (d.modRegion r f).hearth = d.hearth := rfl
@[simp] theorem modRegion_tongs (r : Nat) (f : RegionRec → RegionRec) : (d.modRegion r f).tongs = d.tongs := rfl
@[simp] theorem modRegion_tick (r : Nat) (f : RegionRec → RegionRec) : (d.modRegion r f).tick = d.tick := rfl
@[simp] theorem modRegion_progs (r : Nat) (f : RegionRec → RegionRec) : (d.modRegion r f).progs = d.progs := rfl
@[simp] theorem modRegion_screen (r : Nat) (f : RegionRec → RegionRec) : (d.modRegion r f).screen = d.screen := rfl
@[simp] theorem modRegion_vocabs (r : Nat) (f : RegionRec → RegionRec) : (d.modRegion r f).vocabs = d.vocabs := rfl
@[simp] theorem modRegion_streams (r : Nat) (f : RegionRec → RegionRec) : (d.modRegion r f).streams = d.streams := rfl
@[simp] theorem modRegion_tenants (r : Nat) (f : RegionRec → RegionRec) : (d.modRegion r f).tenants = d.tenants := rfl
@[simp] theorem modRegion_haul (r : Nat) (f : RegionRec → RegionRec) : (d.modRegion r f).haul = d.haul := rfl
@[simp] theorem modRegion_group (r : Nat) (f : RegionRec → RegionRec) : (d.modRegion r f).group = d.group := rfl
@[simp] theorem modRegion_face (r : Nat) (f : RegionRec → RegionRec) : (d.modRegion r f).face = d.face := rfl
@[simp] theorem modRegion_bellows (r : Nat) (f : RegionRec → RegionRec) : (d.modRegion r f).bellows = d.bellows := rfl
@[simp] theorem modRegion_nvme (r : Nat) (f : RegionRec → RegionRec) : (d.modRegion r f).nvme = d.nvme := rfl
@[simp] theorem modRegion_side (r : Nat) (f : RegionRec → RegionRec) : (d.modRegion r f).side = d.side := rfl
@[simp] theorem modRegion_boot (r : Nat) (f : RegionRec → RegionRec) : (d.modRegion r f).boot = d.boot := rfl
@[simp] theorem modRegion_draws (r : Nat) (f : RegionRec → RegionRec) : (d.modRegion r f).draws = d.draws := rfl
@[simp] theorem modRegion_out (r : Nat) (f : RegionRec → RegionRec) : (d.modRegion r f).out = d.out := rfl

/-! `modItem` -/

@[simp] theorem modItem_hearth (i : Nat) (f : Item → Item) : (d.modItem i f).hearth = d.hearth := rfl
@[simp] theorem modItem_units (i : Nat) (f : Item → Item) : (d.modItem i f).units = d.units := rfl
@[simp] theorem modItem_tongs (i : Nat) (f : Item → Item) : (d.modItem i f).tongs = d.tongs := rfl
@[simp] theorem modItem_progs (i : Nat) (f : Item → Item) : (d.modItem i f).progs = d.progs := rfl
@[simp] theorem modItem_screen (i : Nat) (f : Item → Item) : (d.modItem i f).screen = d.screen := rfl
@[simp] theorem modItem_vocabs (i : Nat) (f : Item → Item) : (d.modItem i f).vocabs = d.vocabs := rfl
@[simp] theorem modItem_streams (i : Nat) (f : Item → Item) : (d.modItem i f).streams = d.streams := rfl
@[simp] theorem modItem_tenants (i : Nat) (f : Item → Item) : (d.modItem i f).tenants = d.tenants := rfl
@[simp] theorem modItem_haul (i : Nat) (f : Item → Item) : (d.modItem i f).haul = d.haul := rfl
@[simp] theorem modItem_group (i : Nat) (f : Item → Item) : (d.modItem i f).group = d.group := rfl
@[simp] theorem modItem_face (i : Nat) (f : Item → Item) : (d.modItem i f).face = d.face := rfl
@[simp] theorem modItem_bellows (i : Nat) (f : Item → Item) : (d.modItem i f).bellows = d.bellows := rfl
@[simp] theorem modItem_nvme (i : Nat) (f : Item → Item) : (d.modItem i f).nvme = d.nvme := rfl
@[simp] theorem modItem_side (i : Nat) (f : Item → Item) : (d.modItem i f).side = d.side := rfl
@[simp] theorem modItem_boot (i : Nat) (f : Item → Item) : (d.modItem i f).boot = d.boot := rfl
@[simp] theorem modItem_draws (i : Nat) (f : Item → Item) : (d.modItem i f).draws = d.draws := rfl
@[simp] theorem modItem_out (i : Nat) (f : Item → Item) : (d.modItem i f).out = d.out := rfl

/-! `mapItems` -/

@[simp] theorem mapItems_hearth (f : Item → Item) : (d.mapItems f).hearth = d.hearth := rfl
@[simp] theorem mapItems_units (f : Item → Item) : (d.mapItems f).units = d.units := rfl
@[simp] theorem mapItems_tongs (f : Item → Item) : (d.mapItems f).tongs = d.tongs := rfl
@[simp] theorem mapItems_progs (f : Item → Item) : (d.mapItems f).progs = d.progs := rfl
@[simp] theorem mapItems_screen (f : Item → Item) : (d.mapItems f).screen = d.screen := rfl
@[simp] theorem mapItems_vocabs (f : Item → Item) : (d.mapItems f).vocabs = d.vocabs := rfl
@[simp] theorem mapItems_streams (f : Item → Item) : (d.mapItems f).streams = d.streams := rfl
@[simp] theorem mapItems_tenants (f : Item → Item) : (d.mapItems f).tenants = d.tenants := rfl
@[simp] theorem mapItems_haul (f : Item → Item) : (d.mapItems f).haul = d.haul := rfl
@[simp] theorem mapItems_group (f : Item → Item) : (d.mapItems f).group = d.group := rfl
@[simp] theorem mapItems_face (f : Item → Item) : (d.mapItems f).face = d.face := rfl
@[simp] theorem mapItems_bellows (f : Item → Item) : (d.mapItems f).bellows = d.bellows := rfl
@[simp] theorem mapItems_nvme (f : Item → Item) : (d.mapItems f).nvme = d.nvme := rfl
@[simp] theorem mapItems_side (f : Item → Item) : (d.mapItems f).side = d.side := rfl
@[simp] theorem mapItems_boot (f : Item → Item) : (d.mapItems f).boot = d.boot := rfl
@[simp] theorem mapItems_draws (f : Item → Item) : (d.mapItems f).draws = d.draws := rfl
@[simp] theorem mapItems_out (f : Item → Item) : (d.mapItems f).out = d.out := rfl

/-! `modStream` -/

@[simp] theorem modStream_hearth (k : Nat) (f : Stream → Stream) : (d.modStream k f).hearth = d.hearth := rfl
@[simp] theorem modStream_units (k : Nat) (f : Stream → Stream) : (d.modStream k f).units = d.units := rfl
@[simp] theorem modStream_tongs (k : Nat) (f : Stream → Stream) : (d.modStream k f).tongs = d.tongs := rfl
@[simp] theorem modStream_tick (k : Nat) (f : Stream → Stream) : (d.modStream k f).tick = d.tick := rfl
@[simp] theorem modStream_progs (k : Nat) (f : Stream → Stream) : (d.modStream k f).progs = d.progs := rfl
@[simp] theorem modStream_screen (k : Nat) (f : Stream → Stream) : (d.modStream k f).screen = d.screen := rfl
@[simp] theorem modStream_vocabs (k : Nat) (f : Stream → Stream) : (d.modStream k f).vocabs = d.vocabs := rfl
@[simp] theorem modStream_tenants (k : Nat) (f : Stream → Stream) : (d.modStream k f).tenants = d.tenants := rfl
@[simp] theorem modStream_haul (k : Nat) (f : Stream → Stream) : (d.modStream k f).haul = d.haul := rfl
@[simp] theorem modStream_group (k : Nat) (f : Stream → Stream) : (d.modStream k f).group = d.group := rfl
@[simp] theorem modStream_face (k : Nat) (f : Stream → Stream) : (d.modStream k f).face = d.face := rfl
@[simp] theorem modStream_bellows (k : Nat) (f : Stream → Stream) : (d.modStream k f).bellows = d.bellows := rfl
@[simp] theorem modStream_nvme (k : Nat) (f : Stream → Stream) : (d.modStream k f).nvme = d.nvme := rfl
@[simp] theorem modStream_side (k : Nat) (f : Stream → Stream) : (d.modStream k f).side = d.side := rfl
@[simp] theorem modStream_boot (k : Nat) (f : Stream → Stream) : (d.modStream k f).boot = d.boot := rfl
@[simp] theorem modStream_draws (k : Nat) (f : Stream → Stream) : (d.modStream k f).draws = d.draws := rfl
@[simp] theorem modStream_out (k : Nat) (f : Stream → Stream) : (d.modStream k f).out = d.out := rfl

/-! `modTenant` -/

@[simp] theorem modTenant_hearth (k : Nat) (f : Tenant → Tenant) : (d.modTenant k f).hearth = d.hearth := rfl
@[simp] theorem modTenant_units (k : Nat) (f : Tenant → Tenant) : (d.modTenant k f).units = d.units := rfl
@[simp] theorem modTenant_tongs (k : Nat) (f : Tenant → Tenant) : (d.modTenant k f).tongs = d.tongs := rfl
@[simp] theorem modTenant_tick (k : Nat) (f : Tenant → Tenant) : (d.modTenant k f).tick = d.tick := rfl
@[simp] theorem modTenant_progs (k : Nat) (f : Tenant → Tenant) : (d.modTenant k f).progs = d.progs := rfl
@[simp] theorem modTenant_screen (k : Nat) (f : Tenant → Tenant) : (d.modTenant k f).screen = d.screen := rfl
@[simp] theorem modTenant_vocabs (k : Nat) (f : Tenant → Tenant) : (d.modTenant k f).vocabs = d.vocabs := rfl
@[simp] theorem modTenant_streams (k : Nat) (f : Tenant → Tenant) : (d.modTenant k f).streams = d.streams := rfl
@[simp] theorem modTenant_haul (k : Nat) (f : Tenant → Tenant) : (d.modTenant k f).haul = d.haul := rfl
@[simp] theorem modTenant_group (k : Nat) (f : Tenant → Tenant) : (d.modTenant k f).group = d.group := rfl
@[simp] theorem modTenant_face (k : Nat) (f : Tenant → Tenant) : (d.modTenant k f).face = d.face := rfl
@[simp] theorem modTenant_bellows (k : Nat) (f : Tenant → Tenant) : (d.modTenant k f).bellows = d.bellows := rfl
@[simp] theorem modTenant_nvme (k : Nat) (f : Tenant → Tenant) : (d.modTenant k f).nvme = d.nvme := rfl
@[simp] theorem modTenant_side (k : Nat) (f : Tenant → Tenant) : (d.modTenant k f).side = d.side := rfl
@[simp] theorem modTenant_boot (k : Nat) (f : Tenant → Tenant) : (d.modTenant k f).boot = d.boot := rfl
@[simp] theorem modTenant_draws (k : Nat) (f : Tenant → Tenant) : (d.modTenant k f).draws = d.draws := rfl
@[simp] theorem modTenant_out (k : Nat) (f : Tenant → Tenant) : (d.modTenant k f).out = d.out := rfl

/-! `modRes` -/

@[simp] theorem modRes_hearth (k : Nat) (f : Reservoir → Reservoir) : (d.modRes k f).hearth = d.hearth := rfl
@[simp] theorem modRes_units (k : Nat) (f : Reservoir → Reservoir) : (d.modRes k f).units = d.units := rfl
@[simp] theorem modRes_tongs (k : Nat) (f : Reservoir → Reservoir) : (d.modRes k f).tongs = d.tongs := rfl
@[simp] theorem modRes_tick (k : Nat) (f : Reservoir → Reservoir) : (d.modRes k f).tick = d.tick := rfl
@[simp] theorem modRes_progs (k : Nat) (f : Reservoir → Reservoir) : (d.modRes k f).progs = d.progs := rfl
@[simp] theorem modRes_screen (k : Nat) (f : Reservoir → Reservoir) : (d.modRes k f).screen = d.screen := rfl
@[simp] theorem modRes_vocabs (k : Nat) (f : Reservoir → Reservoir) : (d.modRes k f).vocabs = d.vocabs := rfl
@[simp] theorem modRes_streams (k : Nat) (f : Reservoir → Reservoir) : (d.modRes k f).streams = d.streams := rfl
@[simp] theorem modRes_tenants (k : Nat) (f : Reservoir → Reservoir) : (d.modRes k f).tenants = d.tenants := rfl
@[simp] theorem modRes_group (k : Nat) (f : Reservoir → Reservoir) : (d.modRes k f).group = d.group := rfl
@[simp] theorem modRes_face (k : Nat) (f : Reservoir → Reservoir) : (d.modRes k f).face = d.face := rfl
@[simp] theorem modRes_bellows (k : Nat) (f : Reservoir → Reservoir) : (d.modRes k f).bellows = d.bellows := rfl
@[simp] theorem modRes_nvme (k : Nat) (f : Reservoir → Reservoir) : (d.modRes k f).nvme = d.nvme := rfl
@[simp] theorem modRes_side (k : Nat) (f : Reservoir → Reservoir) : (d.modRes k f).side = d.side := rfl
@[simp] theorem modRes_boot (k : Nat) (f : Reservoir → Reservoir) : (d.modRes k f).boot = d.boot := rfl
@[simp] theorem modRes_draws (k : Nat) (f : Reservoir → Reservoir) : (d.modRes k f).draws = d.draws := rfl
@[simp] theorem modRes_out (k : Nat) (f : Reservoir → Reservoir) : (d.modRes k f).out = d.out := rfl

/-! `modPeer` -/

@[simp] theorem modPeer_hearth (k : Nat) (f : Peer → Peer) : (d.modPeer k f).hearth = d.hearth := rfl
@[simp] theorem modPeer_units (k : Nat) (f : Peer → Peer) : (d.modPeer k f).units = d.units := rfl
@[simp] theorem modPeer_tongs (k : Nat) (f : Peer → Peer) : (d.modPeer k f).tongs = d.tongs := rfl
@[simp] theorem modPeer_tick (k : Nat) (f : Peer → Peer) : (d.modPeer k f).tick = d.tick := rfl
@[simp] theorem modPeer_progs (k : Nat) (f : Peer → Peer) : (d.modPeer k f).progs = d.progs := rfl
@[simp] theorem modPeer_screen (k : Nat) (f : Peer → Peer) : (d.modPeer k f).screen = d.screen := rfl
@[simp] theorem modPeer_vocabs (k : Nat) (f : Peer → Peer) : (d.modPeer k f).vocabs = d.vocabs := rfl
@[simp] theorem modPeer_streams (k : Nat) (f : Peer → Peer) : (d.modPeer k f).streams = d.streams := rfl
@[simp] theorem modPeer_tenants (k : Nat) (f : Peer → Peer) : (d.modPeer k f).tenants = d.tenants := rfl
@[simp] theorem modPeer_group (k : Nat) (f : Peer → Peer) : (d.modPeer k f).group = d.group := rfl
@[simp] theorem modPeer_face (k : Nat) (f : Peer → Peer) : (d.modPeer k f).face = d.face := rfl
@[simp] theorem modPeer_bellows (k : Nat) (f : Peer → Peer) : (d.modPeer k f).bellows = d.bellows := rfl
@[simp] theorem modPeer_nvme (k : Nat) (f : Peer → Peer) : (d.modPeer k f).nvme = d.nvme := rfl
@[simp] theorem modPeer_side (k : Nat) (f : Peer → Peer) : (d.modPeer k f).side = d.side := rfl
@[simp] theorem modPeer_boot (k : Nat) (f : Peer → Peer) : (d.modPeer k f).boot = d.boot := rfl
@[simp] theorem modPeer_draws (k : Nat) (f : Peer → Peer) : (d.modPeer k f).draws = d.draws := rfl
@[simp] theorem modPeer_out (k : Nat) (f : Peer → Peer) : (d.modPeer k f).out = d.out := rfl

/-! `modDataset` -/

@[simp] theorem modDataset_hearth (k : Nat) (f : Dataset → Dataset) : (d.modDataset k f).hearth = d.hearth := rfl
@[simp] theorem modDataset_units (k : Nat) (f : Dataset → Dataset) : (d.modDataset k f).units = d.units := rfl
@[simp] theorem modDataset_tongs (k : Nat) (f : Dataset → Dataset) : (d.modDataset k f).tongs = d.tongs := rfl
@[simp] theorem modDataset_tick (k : Nat) (f : Dataset → Dataset) : (d.modDataset k f).tick = d.tick := rfl
@[simp] theorem modDataset_progs (k : Nat) (f : Dataset → Dataset) : (d.modDataset k f).progs = d.progs := rfl
@[simp] theorem modDataset_screen (k : Nat) (f : Dataset → Dataset) : (d.modDataset k f).screen = d.screen := rfl
@[simp] theorem modDataset_vocabs (k : Nat) (f : Dataset → Dataset) : (d.modDataset k f).vocabs = d.vocabs := rfl
@[simp] theorem modDataset_streams (k : Nat) (f : Dataset → Dataset) : (d.modDataset k f).streams = d.streams := rfl
@[simp] theorem modDataset_tenants (k : Nat) (f : Dataset → Dataset) : (d.modDataset k f).tenants = d.tenants := rfl
@[simp] theorem modDataset_haul (k : Nat) (f : Dataset → Dataset) : (d.modDataset k f).haul = d.haul := rfl
@[simp] theorem modDataset_group (k : Nat) (f : Dataset → Dataset) : (d.modDataset k f).group = d.group := rfl
@[simp] theorem modDataset_bellows (k : Nat) (f : Dataset → Dataset) : (d.modDataset k f).bellows = d.bellows := rfl
@[simp] theorem modDataset_nvme (k : Nat) (f : Dataset → Dataset) : (d.modDataset k f).nvme = d.nvme := rfl
@[simp] theorem modDataset_side (k : Nat) (f : Dataset → Dataset) : (d.modDataset k f).side = d.side := rfl
@[simp] theorem modDataset_boot (k : Nat) (f : Dataset → Dataset) : (d.modDataset k f).boot = d.boot := rfl
@[simp] theorem modDataset_draws (k : Nat) (f : Dataset → Dataset) : (d.modDataset k f).draws = d.draws := rfl
@[simp] theorem modDataset_out (k : Nat) (f : Dataset → Dataset) : (d.modDataset k f).out = d.out := rfl

/-! `modExtentQuiet` -/

@[simp] theorem modExtentQuiet_hearth (k : Nat) (f : Extent → Extent) : (d.modExtentQuiet k f).hearth = d.hearth := rfl
@[simp] theorem modExtentQuiet_units (k : Nat) (f : Extent → Extent) : (d.modExtentQuiet k f).units = d.units := rfl
@[simp] theorem modExtentQuiet_tongs (k : Nat) (f : Extent → Extent) : (d.modExtentQuiet k f).tongs = d.tongs := rfl
@[simp] theorem modExtentQuiet_tick (k : Nat) (f : Extent → Extent) : (d.modExtentQuiet k f).tick = d.tick := rfl
@[simp] theorem modExtentQuiet_progs (k : Nat) (f : Extent → Extent) : (d.modExtentQuiet k f).progs = d.progs := rfl
@[simp] theorem modExtentQuiet_screen (k : Nat) (f : Extent → Extent) : (d.modExtentQuiet k f).screen = d.screen := rfl
@[simp] theorem modExtentQuiet_vocabs (k : Nat) (f : Extent → Extent) : (d.modExtentQuiet k f).vocabs = d.vocabs := rfl
@[simp] theorem modExtentQuiet_streams (k : Nat) (f : Extent → Extent) : (d.modExtentQuiet k f).streams = d.streams := rfl
@[simp] theorem modExtentQuiet_tenants (k : Nat) (f : Extent → Extent) : (d.modExtentQuiet k f).tenants = d.tenants := rfl
@[simp] theorem modExtentQuiet_haul (k : Nat) (f : Extent → Extent) : (d.modExtentQuiet k f).haul = d.haul := rfl
@[simp] theorem modExtentQuiet_group (k : Nat) (f : Extent → Extent) : (d.modExtentQuiet k f).group = d.group := rfl
@[simp] theorem modExtentQuiet_bellows (k : Nat) (f : Extent → Extent) : (d.modExtentQuiet k f).bellows = d.bellows := rfl
@[simp] theorem modExtentQuiet_nvme (k : Nat) (f : Extent → Extent) : (d.modExtentQuiet k f).nvme = d.nvme := rfl
@[simp] theorem modExtentQuiet_side (k : Nat) (f : Extent → Extent) : (d.modExtentQuiet k f).side = d.side := rfl
@[simp] theorem modExtentQuiet_boot (k : Nat) (f : Extent → Extent) : (d.modExtentQuiet k f).boot = d.boot := rfl
@[simp] theorem modExtentQuiet_draws (k : Nat) (f : Extent → Extent) : (d.modExtentQuiet k f).draws = d.draws := rfl
@[simp] theorem modExtentQuiet_out (k : Nat) (f : Extent → Extent) : (d.modExtentQuiet k f).out = d.out := rfl

/-! `journal` -/

@[simp] theorem journal_hearth (m k : Nat) : (d.journal m k).hearth = d.hearth := rfl
@[simp] theorem journal_units (m k : Nat) : (d.journal m k).units = d.units := rfl
@[simp] theorem journal_tongs (m k : Nat) : (d.journal m k).tongs = d.tongs := rfl
@[simp] theorem journal_tick (m k : Nat) : (d.journal m k).tick = d.tick := rfl
@[simp] theorem journal_progs (m k : Nat) : (d.journal m k).progs = d.progs := rfl
@[simp] theorem journal_screen (m k : Nat) : (d.journal m k).screen = d.screen := rfl
@[simp] theorem journal_vocabs (m k : Nat) : (d.journal m k).vocabs = d.vocabs := rfl
@[simp] theorem journal_streams (m k : Nat) : (d.journal m k).streams = d.streams := rfl
@[simp] theorem journal_tenants (m k : Nat) : (d.journal m k).tenants = d.tenants := rfl
@[simp] theorem journal_haul (m k : Nat) : (d.journal m k).haul = d.haul := rfl
@[simp] theorem journal_group (m k : Nat) : (d.journal m k).group = d.group := rfl
@[simp] theorem journal_bellows (m k : Nat) : (d.journal m k).bellows = d.bellows := rfl
@[simp] theorem journal_nvme (m k : Nat) : (d.journal m k).nvme = d.nvme := rfl
@[simp] theorem journal_side (m k : Nat) : (d.journal m k).side = d.side := rfl
@[simp] theorem journal_boot (m k : Nat) : (d.journal m k).boot = d.boot := rfl
@[simp] theorem journal_draws (m k : Nat) : (d.journal m k).draws = d.draws := rfl
@[simp] theorem journal_out (m k : Nat) : (d.journal m k).out = d.out := rfl

/-! `modTable` -/

@[simp] theorem modTable_hearth (k : Nat) (f : ScrTable → ScrTable) : (d.modTable k f).hearth = d.hearth := rfl
@[simp] theorem modTable_units (k : Nat) (f : ScrTable → ScrTable) : (d.modTable k f).units = d.units := rfl
@[simp] theorem modTable_tongs (k : Nat) (f : ScrTable → ScrTable) : (d.modTable k f).tongs = d.tongs := rfl
@[simp] theorem modTable_tick (k : Nat) (f : ScrTable → ScrTable) : (d.modTable k f).tick = d.tick := rfl
@[simp] theorem modTable_progs (k : Nat) (f : ScrTable → ScrTable) : (d.modTable k f).progs = d.progs := rfl
@[simp] theorem modTable_vocabs (k : Nat) (f : ScrTable → ScrTable) : (d.modTable k f).vocabs = d.vocabs := rfl
@[simp] theorem modTable_streams (k : Nat) (f : ScrTable → ScrTable) : (d.modTable k f).streams = d.streams := rfl
@[simp] theorem modTable_tenants (k : Nat) (f : ScrTable → ScrTable) : (d.modTable k f).tenants = d.tenants := rfl
@[simp] theorem modTable_haul (k : Nat) (f : ScrTable → ScrTable) : (d.modTable k f).haul = d.haul := rfl
@[simp] theorem modTable_group (k : Nat) (f : ScrTable → ScrTable) : (d.modTable k f).group = d.group := rfl
@[simp] theorem modTable_face (k : Nat) (f : ScrTable → ScrTable) : (d.modTable k f).face = d.face := rfl
@[simp] theorem modTable_bellows (k : Nat) (f : ScrTable → ScrTable) : (d.modTable k f).bellows = d.bellows := rfl
@[simp] theorem modTable_nvme (k : Nat) (f : ScrTable → ScrTable) : (d.modTable k f).nvme = d.nvme := rfl
@[simp] theorem modTable_side (k : Nat) (f : ScrTable → ScrTable) : (d.modTable k f).side = d.side := rfl
@[simp] theorem modTable_boot (k : Nat) (f : ScrTable → ScrTable) : (d.modTable k f).boot = d.boot := rfl
@[simp] theorem modTable_draws (k : Nat) (f : ScrTable → ScrTable) : (d.modTable k f).draws = d.draws := rfl
@[simp] theorem modTable_out (k : Nat) (f : ScrTable → ScrTable) : (d.modTable k f).out = d.out := rfl

/-! `modLog` -/

@[simp] theorem modLog_hearth (k : Nat) (f : Log → Log) : (d.modLog k f).hearth = d.hearth := rfl
@[simp] theorem modLog_units (k : Nat) (f : Log → Log) : (d.modLog k f).units = d.units := rfl
@[simp] theorem modLog_tongs (k : Nat) (f : Log → Log) : (d.modLog k f).tongs = d.tongs := rfl
@[simp] theorem modLog_tick (k : Nat) (f : Log → Log) : (d.modLog k f).tick = d.tick := rfl
@[simp] theorem modLog_progs (k : Nat) (f : Log → Log) : (d.modLog k f).progs = d.progs := rfl
@[simp] theorem modLog_screen (k : Nat) (f : Log → Log) : (d.modLog k f).screen = d.screen := rfl
@[simp] theorem modLog_vocabs (k : Nat) (f : Log → Log) : (d.modLog k f).vocabs = d.vocabs := rfl
@[simp] theorem modLog_streams (k : Nat) (f : Log → Log) : (d.modLog k f).streams = d.streams := rfl
@[simp] theorem modLog_tenants (k : Nat) (f : Log → Log) : (d.modLog k f).tenants = d.tenants := rfl
@[simp] theorem modLog_haul (k : Nat) (f : Log → Log) : (d.modLog k f).haul = d.haul := rfl
@[simp] theorem modLog_face (k : Nat) (f : Log → Log) : (d.modLog k f).face = d.face := rfl
@[simp] theorem modLog_bellows (k : Nat) (f : Log → Log) : (d.modLog k f).bellows = d.bellows := rfl
@[simp] theorem modLog_nvme (k : Nat) (f : Log → Log) : (d.modLog k f).nvme = d.nvme := rfl
@[simp] theorem modLog_side (k : Nat) (f : Log → Log) : (d.modLog k f).side = d.side := rfl
@[simp] theorem modLog_boot (k : Nat) (f : Log → Log) : (d.modLog k f).boot = d.boot := rfl
@[simp] theorem modLog_draws (k : Nat) (f : Log → Log) : (d.modLog k f).draws = d.draws := rfl
@[simp] theorem modLog_out (k : Nat) (f : Log → Log) : (d.modLog k f).out = d.out := rfl

/-! `freePages` -/

@[simp] theorem freePages_hearth (k o : Nat) : (d.freePages k o).hearth = d.hearth := rfl
@[simp] theorem freePages_units (k o : Nat) : (d.freePages k o).units = d.units := rfl
@[simp] theorem freePages_tick (k o : Nat) : (d.freePages k o).tick = d.tick := rfl
@[simp] theorem freePages_progs (k o : Nat) : (d.freePages k o).progs = d.progs := rfl
@[simp] theorem freePages_screen (k o : Nat) : (d.freePages k o).screen = d.screen := rfl
@[simp] theorem freePages_vocabs (k o : Nat) : (d.freePages k o).vocabs = d.vocabs := rfl
@[simp] theorem freePages_streams (k o : Nat) : (d.freePages k o).streams = d.streams := rfl
@[simp] theorem freePages_tenants (k o : Nat) : (d.freePages k o).tenants = d.tenants := rfl
@[simp] theorem freePages_haul (k o : Nat) : (d.freePages k o).haul = d.haul := rfl
@[simp] theorem freePages_group (k o : Nat) : (d.freePages k o).group = d.group := rfl
@[simp] theorem freePages_face (k o : Nat) : (d.freePages k o).face = d.face := rfl
@[simp] theorem freePages_bellows (k o : Nat) : (d.freePages k o).bellows = d.bellows := rfl
@[simp] theorem freePages_nvme (k o : Nat) : (d.freePages k o).nvme = d.nvme := rfl
@[simp] theorem freePages_side (k o : Nat) : (d.freePages k o).side = d.side := rfl
@[simp] theorem freePages_boot (k o : Nat) : (d.freePages k o).boot = d.boot := rfl
@[simp] theorem freePages_draws (k o : Nat) : (d.freePages k o).draws = d.draws := rfl
@[simp] theorem freePages_out (k o : Nat) : (d.freePages k o).out = d.out := rfl

/-! `modRec` -/

@[simp] theorem modRec_hearth (f : Recovery → Recovery) : (d.modRec f).hearth = d.hearth := rfl
@[simp] theorem modRec_units (f : Recovery → Recovery) : (d.modRec f).units = d.units := rfl
@[simp] theorem modRec_tongs (f : Recovery → Recovery) : (d.modRec f).tongs = d.tongs := rfl
@[simp] theorem modRec_tick (f : Recovery → Recovery) : (d.modRec f).tick = d.tick := rfl
@[simp] theorem modRec_progs (f : Recovery → Recovery) : (d.modRec f).progs = d.progs := rfl
@[simp] theorem modRec_screen (f : Recovery → Recovery) : (d.modRec f).screen = d.screen := rfl
@[simp] theorem modRec_vocabs (f : Recovery → Recovery) : (d.modRec f).vocabs = d.vocabs := rfl
@[simp] theorem modRec_streams (f : Recovery → Recovery) : (d.modRec f).streams = d.streams := rfl
@[simp] theorem modRec_tenants (f : Recovery → Recovery) : (d.modRec f).tenants = d.tenants := rfl
@[simp] theorem modRec_haul (f : Recovery → Recovery) : (d.modRec f).haul = d.haul := rfl
@[simp] theorem modRec_group (f : Recovery → Recovery) : (d.modRec f).group = d.group := rfl
@[simp] theorem modRec_face (f : Recovery → Recovery) : (d.modRec f).face = d.face := rfl
@[simp] theorem modRec_bellows (f : Recovery → Recovery) : (d.modRec f).bellows = d.bellows := rfl
@[simp] theorem modRec_nvme (f : Recovery → Recovery) : (d.modRec f).nvme = d.nvme := rfl
@[simp] theorem modRec_boot (f : Recovery → Recovery) : (d.modRec f).boot = d.boot := rfl
@[simp] theorem modRec_draws (f : Recovery → Recovery) : (d.modRec f).draws = d.draws := rfl
@[simp] theorem modRec_out (f : Recovery → Recovery) : (d.modRec f).out = d.out := rfl

/-! `modMctp` -/

@[simp] theorem modMctp_hearth (f : Mctp → Mctp) : (d.modMctp f).hearth = d.hearth := rfl
@[simp] theorem modMctp_units (f : Mctp → Mctp) : (d.modMctp f).units = d.units := rfl
@[simp] theorem modMctp_tongs (f : Mctp → Mctp) : (d.modMctp f).tongs = d.tongs := rfl
@[simp] theorem modMctp_tick (f : Mctp → Mctp) : (d.modMctp f).tick = d.tick := rfl
@[simp] theorem modMctp_progs (f : Mctp → Mctp) : (d.modMctp f).progs = d.progs := rfl
@[simp] theorem modMctp_screen (f : Mctp → Mctp) : (d.modMctp f).screen = d.screen := rfl
@[simp] theorem modMctp_vocabs (f : Mctp → Mctp) : (d.modMctp f).vocabs = d.vocabs := rfl
@[simp] theorem modMctp_streams (f : Mctp → Mctp) : (d.modMctp f).streams = d.streams := rfl
@[simp] theorem modMctp_tenants (f : Mctp → Mctp) : (d.modMctp f).tenants = d.tenants := rfl
@[simp] theorem modMctp_haul (f : Mctp → Mctp) : (d.modMctp f).haul = d.haul := rfl
@[simp] theorem modMctp_group (f : Mctp → Mctp) : (d.modMctp f).group = d.group := rfl
@[simp] theorem modMctp_face (f : Mctp → Mctp) : (d.modMctp f).face = d.face := rfl
@[simp] theorem modMctp_bellows (f : Mctp → Mctp) : (d.modMctp f).bellows = d.bellows := rfl
@[simp] theorem modMctp_nvme (f : Mctp → Mctp) : (d.modMctp f).nvme = d.nvme := rfl
@[simp] theorem modMctp_boot (f : Mctp → Mctp) : (d.modMctp f).boot = d.boot := rfl
@[simp] theorem modMctp_draws (f : Mctp → Mctp) : (d.modMctp f).draws = d.draws := rfl
@[simp] theorem modMctp_out (f : Mctp → Mctp) : (d.modMctp f).out = d.out := rfl

/-! `modJtag` -/

@[simp] theorem modJtag_hearth (f : Jtag → Jtag) : (d.modJtag f).hearth = d.hearth := rfl
@[simp] theorem modJtag_units (f : Jtag → Jtag) : (d.modJtag f).units = d.units := rfl
@[simp] theorem modJtag_tongs (f : Jtag → Jtag) : (d.modJtag f).tongs = d.tongs := rfl
@[simp] theorem modJtag_tick (f : Jtag → Jtag) : (d.modJtag f).tick = d.tick := rfl
@[simp] theorem modJtag_progs (f : Jtag → Jtag) : (d.modJtag f).progs = d.progs := rfl
@[simp] theorem modJtag_screen (f : Jtag → Jtag) : (d.modJtag f).screen = d.screen := rfl
@[simp] theorem modJtag_vocabs (f : Jtag → Jtag) : (d.modJtag f).vocabs = d.vocabs := rfl
@[simp] theorem modJtag_streams (f : Jtag → Jtag) : (d.modJtag f).streams = d.streams := rfl
@[simp] theorem modJtag_tenants (f : Jtag → Jtag) : (d.modJtag f).tenants = d.tenants := rfl
@[simp] theorem modJtag_haul (f : Jtag → Jtag) : (d.modJtag f).haul = d.haul := rfl
@[simp] theorem modJtag_group (f : Jtag → Jtag) : (d.modJtag f).group = d.group := rfl
@[simp] theorem modJtag_face (f : Jtag → Jtag) : (d.modJtag f).face = d.face := rfl
@[simp] theorem modJtag_bellows (f : Jtag → Jtag) : (d.modJtag f).bellows = d.bellows := rfl
@[simp] theorem modJtag_nvme (f : Jtag → Jtag) : (d.modJtag f).nvme = d.nvme := rfl
@[simp] theorem modJtag_boot (f : Jtag → Jtag) : (d.modJtag f).boot = d.boot := rfl
@[simp] theorem modJtag_draws (f : Jtag → Jtag) : (d.modJtag f).draws = d.draws := rfl
@[simp] theorem modJtag_out (f : Jtag → Jtag) : (d.modJtag f).out = d.out := rfl

/-! `putParam` -/

@[simp] theorem putParam_units (id i v : Nat) : (d.putParam id i v).units = d.units := rfl
@[simp] theorem putParam_tongs (id i v : Nat) : (d.putParam id i v).tongs = d.tongs := rfl
@[simp] theorem putParam_tick (id i v : Nat) : (d.putParam id i v).tick = d.tick := rfl
@[simp] theorem putParam_progs (id i v : Nat) : (d.putParam id i v).progs = d.progs := rfl
@[simp] theorem putParam_screen (id i v : Nat) : (d.putParam id i v).screen = d.screen := rfl
@[simp] theorem putParam_vocabs (id i v : Nat) : (d.putParam id i v).vocabs = d.vocabs := rfl
@[simp] theorem putParam_streams (id i v : Nat) : (d.putParam id i v).streams = d.streams := rfl
@[simp] theorem putParam_tenants (id i v : Nat) : (d.putParam id i v).tenants = d.tenants := rfl
@[simp] theorem putParam_haul (id i v : Nat) : (d.putParam id i v).haul = d.haul := rfl
@[simp] theorem putParam_group (id i v : Nat) : (d.putParam id i v).group = d.group := rfl
@[simp] theorem putParam_face (id i v : Nat) : (d.putParam id i v).face = d.face := rfl
@[simp] theorem putParam_bellows (id i v : Nat) : (d.putParam id i v).bellows = d.bellows := rfl
@[simp] theorem putParam_nvme (id i v : Nat) : (d.putParam id i v).nvme = d.nvme := rfl
@[simp] theorem putParam_side (id i v : Nat) : (d.putParam id i v).side = d.side := rfl
@[simp] theorem putParam_boot (id i v : Nat) : (d.putParam id i v).boot = d.boot := rfl
@[simp] theorem putParam_draws (id i v : Nat) : (d.putParam id i v).draws = d.draws := rfl
@[simp] theorem putParam_out (id i v : Nat) : (d.putParam id i v).out = d.out := rfl

/-! `pend` -/

@[simp] theorem pend_units (x : PendingParam) : (d.pend x).units = d.units := rfl
@[simp] theorem pend_tongs (x : PendingParam) : (d.pend x).tongs = d.tongs := rfl
@[simp] theorem pend_tick (x : PendingParam) : (d.pend x).tick = d.tick := rfl
@[simp] theorem pend_progs (x : PendingParam) : (d.pend x).progs = d.progs := rfl
@[simp] theorem pend_screen (x : PendingParam) : (d.pend x).screen = d.screen := rfl
@[simp] theorem pend_vocabs (x : PendingParam) : (d.pend x).vocabs = d.vocabs := rfl
@[simp] theorem pend_streams (x : PendingParam) : (d.pend x).streams = d.streams := rfl
@[simp] theorem pend_tenants (x : PendingParam) : (d.pend x).tenants = d.tenants := rfl
@[simp] theorem pend_haul (x : PendingParam) : (d.pend x).haul = d.haul := rfl
@[simp] theorem pend_group (x : PendingParam) : (d.pend x).group = d.group := rfl
@[simp] theorem pend_face (x : PendingParam) : (d.pend x).face = d.face := rfl
@[simp] theorem pend_bellows (x : PendingParam) : (d.pend x).bellows = d.bellows := rfl
@[simp] theorem pend_nvme (x : PendingParam) : (d.pend x).nvme = d.nvme := rfl
@[simp] theorem pend_side (x : PendingParam) : (d.pend x).side = d.side := rfl
@[simp] theorem pend_boot (x : PendingParam) : (d.pend x).boot = d.boot := rfl
@[simp] theorem pend_draws (x : PendingParam) : (d.pend x).draws = d.draws := rfl
@[simp] theorem pend_out (x : PendingParam) : (d.pend x).out = d.out := rfl

/-! `count` -/

@[simp] theorem count_units (id i n : Nat) : (d.count id i n).units = d.units := (postsOnly_count _ _ _ _).units
@[simp] theorem count_tongs (id i n : Nat) : (d.count id i n).tongs = d.tongs := (postsOnly_count _ _ _ _).tongs
@[simp] theorem count_tick (id i n : Nat) : (d.count id i n).tick = d.tick := (postsOnly_count _ _ _ _).tick
@[simp] theorem count_progs (id i n : Nat) : (d.count id i n).progs = d.progs := (postsOnly_count _ _ _ _).progs
@[simp] theorem count_screen (id i n : Nat) : (d.count id i n).screen = d.screen := (postsOnly_count _ _ _ _).screen
@[simp] theorem count_vocabs (id i n : Nat) : (d.count id i n).vocabs = d.vocabs := (postsOnly_count _ _ _ _).vocabs
@[simp] theorem count_streams (id i n : Nat) : (d.count id i n).streams = d.streams := (postsOnly_count _ _ _ _).streams
@[simp] theorem count_tenants (id i n : Nat) : (d.count id i n).tenants = d.tenants := (postsOnly_count _ _ _ _).tenants
@[simp] theorem count_haul (id i n : Nat) : (d.count id i n).haul = d.haul := (postsOnly_count _ _ _ _).haul
@[simp] theorem count_group (id i n : Nat) : (d.count id i n).group = d.group := (postsOnly_count _ _ _ _).group
@[simp] theorem count_face (id i n : Nat) : (d.count id i n).face = d.face := (postsOnly_count _ _ _ _).face
@[simp] theorem count_bellows (id i n : Nat) : (d.count id i n).bellows = d.bellows := (postsOnly_count _ _ _ _).bellows
@[simp] theorem count_nvme (id i n : Nat) : (d.count id i n).nvme = d.nvme := (postsOnly_count _ _ _ _).nvme
@[simp] theorem count_side (id i n : Nat) : (d.count id i n).side = d.side := (postsOnly_count _ _ _ _).side
@[simp] theorem count_boot (id i n : Nat) : (d.count id i n).boot = d.boot := (postsOnly_count _ _ _ _).boot
@[simp] theorem count_draws (id i n : Nat) : (d.count id i n).draws = d.draws := (postsOnly_count _ _ _ _).draws
@[simp] theorem count_hearth_state (id i n : Nat) : (d.count id i n).hearth.state = d.hearth.state := (postsOnly_count _ _ _ _).state
@[simp] theorem count_hearth_params (id i n : Nat) : (d.count id i n).hearth.params = d.hearth.params := (postsOnly_count _ _ _ _).params
@[simp] theorem count_hearth_busMaster (id i n : Nat) : (d.count id i n).hearth.busMaster = d.hearth.busMaster := (postsOnly_count _ _ _ _).busMaster
@[simp] theorem count_hearth_cores (id i n : Nat) : (d.count id i n).hearth.cores = d.hearth.cores := (postsOnly_count _ _ _ _).cores

/-! `post` -/

@[simp] theorem post_units (w : Nat) (e : Event) : (d.post w e).units = d.units := (postsOnly_post _ _ _).units
@[simp] theorem post_tongs (w : Nat) (e : Event) : (d.post w e).tongs = d.tongs := (postsOnly_post _ _ _).tongs
@[simp] theorem post_tick (w : Nat) (e : Event) : (d.post w e).tick = d.tick := (postsOnly_post _ _ _).tick
@[simp] theorem post_progs (w : Nat) (e : Event) : (d.post w e).progs = d.progs := (postsOnly_post _ _ _).progs
@[simp] theorem post_screen (w : Nat) (e : Event) : (d.post w e).screen = d.screen := (postsOnly_post _ _ _).screen
@[simp] theorem post_vocabs (w : Nat) (e : Event) : (d.post w e).vocabs = d.vocabs := (postsOnly_post _ _ _).vocabs
@[simp] theorem post_streams (w : Nat) (e : Event) : (d.post w e).streams = d.streams := (postsOnly_post _ _ _).streams
@[simp] theorem post_tenants (w : Nat) (e : Event) : (d.post w e).tenants = d.tenants := (postsOnly_post _ _ _).tenants
@[simp] theorem post_haul (w : Nat) (e : Event) : (d.post w e).haul = d.haul := (postsOnly_post _ _ _).haul
@[simp] theorem post_group (w : Nat) (e : Event) : (d.post w e).group = d.group := (postsOnly_post _ _ _).group
@[simp] theorem post_face (w : Nat) (e : Event) : (d.post w e).face = d.face := (postsOnly_post _ _ _).face
@[simp] theorem post_bellows (w : Nat) (e : Event) : (d.post w e).bellows = d.bellows := (postsOnly_post _ _ _).bellows
@[simp] theorem post_nvme (w : Nat) (e : Event) : (d.post w e).nvme = d.nvme := (postsOnly_post _ _ _).nvme
@[simp] theorem post_side (w : Nat) (e : Event) : (d.post w e).side = d.side := (postsOnly_post _ _ _).side
@[simp] theorem post_boot (w : Nat) (e : Event) : (d.post w e).boot = d.boot := (postsOnly_post _ _ _).boot
@[simp] theorem post_draws (w : Nat) (e : Event) : (d.post w e).draws = d.draws := (postsOnly_post _ _ _).draws
@[simp] theorem post_hearth_state (w : Nat) (e : Event) : (d.post w e).hearth.state = d.hearth.state := (postsOnly_post _ _ _).state
@[simp] theorem post_hearth_params (w : Nat) (e : Event) : (d.post w e).hearth.params = d.hearth.params := (postsOnly_post _ _ _).params
@[simp] theorem post_hearth_busMaster (w : Nat) (e : Event) : (d.post w e).hearth.busMaster = d.hearth.busMaster := (postsOnly_post _ _ _).busMaster
@[simp] theorem post_hearth_cores (w : Nat) (e : Event) : (d.post w e).hearth.cores = d.hearth.cores := (postsOnly_post _ _ _).cores

/-! `event` -/

@[simp] theorem event_units (w c s : Nat) (fs : List (Nat × Nat × Nat)) : (d.event w c s fs).units = d.units := (postsOnly_event _ _ _ _ _).units
@[simp] theorem event_tongs (w c s : Nat) (fs : List (Nat × Nat × Nat)) : (d.event w c s fs).tongs = d.tongs := (postsOnly_event _ _ _ _ _).tongs
@[simp] theorem event_tick (w c s : Nat) (fs : List (Nat × Nat × Nat)) : (d.event w c s fs).tick = d.tick := (postsOnly_event _ _ _ _ _).tick
@[simp] theorem event_progs (w c s : Nat) (fs : List (Nat × Nat × Nat)) : (d.event w c s fs).progs = d.progs := (postsOnly_event _ _ _ _ _).progs
@[simp] theorem event_screen (w c s : Nat) (fs : List (Nat × Nat × Nat)) : (d.event w c s fs).screen = d.screen := (postsOnly_event _ _ _ _ _).screen
@[simp] theorem event_vocabs (w c s : Nat) (fs : List (Nat × Nat × Nat)) : (d.event w c s fs).vocabs = d.vocabs := (postsOnly_event _ _ _ _ _).vocabs
@[simp] theorem event_streams (w c s : Nat) (fs : List (Nat × Nat × Nat)) : (d.event w c s fs).streams = d.streams := (postsOnly_event _ _ _ _ _).streams
@[simp] theorem event_tenants (w c s : Nat) (fs : List (Nat × Nat × Nat)) : (d.event w c s fs).tenants = d.tenants := (postsOnly_event _ _ _ _ _).tenants
@[simp] theorem event_haul (w c s : Nat) (fs : List (Nat × Nat × Nat)) : (d.event w c s fs).haul = d.haul := (postsOnly_event _ _ _ _ _).haul
@[simp] theorem event_group (w c s : Nat) (fs : List (Nat × Nat × Nat)) : (d.event w c s fs).group = d.group := (postsOnly_event _ _ _ _ _).group
@[simp] theorem event_face (w c s : Nat) (fs : List (Nat × Nat × Nat)) : (d.event w c s fs).face = d.face := (postsOnly_event _ _ _ _ _).face
@[simp] theorem event_bellows (w c s : Nat) (fs : List (Nat × Nat × Nat)) : (d.event w c s fs).bellows = d.bellows := (postsOnly_event _ _ _ _ _).bellows
@[simp] theorem event_nvme (w c s : Nat) (fs : List (Nat × Nat × Nat)) : (d.event w c s fs).nvme = d.nvme := (postsOnly_event _ _ _ _ _).nvme
@[simp] theorem event_side (w c s : Nat) (fs : List (Nat × Nat × Nat)) : (d.event w c s fs).side = d.side := (postsOnly_event _ _ _ _ _).side
@[simp] theorem event_boot (w c s : Nat) (fs : List (Nat × Nat × Nat)) : (d.event w c s fs).boot = d.boot := (postsOnly_event _ _ _ _ _).boot
@[simp] theorem event_draws (w c s : Nat) (fs : List (Nat × Nat × Nat)) : (d.event w c s fs).draws = d.draws := (postsOnly_event _ _ _ _ _).draws
@[simp] theorem event_hearth_state (w c s : Nat) (fs : List (Nat × Nat × Nat)) : (d.event w c s fs).hearth.state = d.hearth.state := (postsOnly_event _ _ _ _ _).state
@[simp] theorem event_hearth_params (w c s : Nat) (fs : List (Nat × Nat × Nat)) : (d.event w c s fs).hearth.params = d.hearth.params := (postsOnly_event _ _ _ _ _).params
@[simp] theorem event_hearth_busMaster (w c s : Nat) (fs : List (Nat × Nat × Nat)) : (d.event w c s fs).hearth.busMaster = d.hearth.busMaster := (postsOnly_event _ _ _ _ _).busMaster
@[simp] theorem event_hearth_cores (w c s : Nat) (fs : List (Nat × Nat × Nat)) : (d.event w c s fs).hearth.cores = d.hearth.cores := (postsOnly_event _ _ _ _ _).cores

/-! `completeTicket` -/

@[simp] theorem completeTicket_units (w n s l : Nat) : (d.completeTicket w n s l).units = d.units := (postsOnly_completeTicket _ _ _ _ _).units
@[simp] theorem completeTicket_tongs (w n s l : Nat) : (d.completeTicket w n s l).tongs = d.tongs := (postsOnly_completeTicket _ _ _ _ _).tongs
@[simp] theorem completeTicket_tick (w n s l : Nat) : (d.completeTicket w n s l).tick = d.tick := (postsOnly_completeTicket _ _ _ _ _).tick
@[simp] theorem completeTicket_progs (w n s l : Nat) : (d.completeTicket w n s l).progs = d.progs := (postsOnly_completeTicket _ _ _ _ _).progs
@[simp] theorem completeTicket_screen (w n s l : Nat) : (d.completeTicket w n s l).screen = d.screen := (postsOnly_completeTicket _ _ _ _ _).screen
@[simp] theorem completeTicket_vocabs (w n s l : Nat) : (d.completeTicket w n s l).vocabs = d.vocabs := (postsOnly_completeTicket _ _ _ _ _).vocabs
@[simp] theorem completeTicket_streams (w n s l : Nat) : (d.completeTicket w n s l).streams = d.streams := (postsOnly_completeTicket _ _ _ _ _).streams
@[simp] theorem completeTicket_tenants (w n s l : Nat) : (d.completeTicket w n s l).tenants = d.tenants := (postsOnly_completeTicket _ _ _ _ _).tenants
@[simp] theorem completeTicket_haul (w n s l : Nat) : (d.completeTicket w n s l).haul = d.haul := (postsOnly_completeTicket _ _ _ _ _).haul
@[simp] theorem completeTicket_group (w n s l : Nat) : (d.completeTicket w n s l).group = d.group := (postsOnly_completeTicket _ _ _ _ _).group
@[simp] theorem completeTicket_face (w n s l : Nat) : (d.completeTicket w n s l).face = d.face := (postsOnly_completeTicket _ _ _ _ _).face
@[simp] theorem completeTicket_bellows (w n s l : Nat) : (d.completeTicket w n s l).bellows = d.bellows := (postsOnly_completeTicket _ _ _ _ _).bellows
@[simp] theorem completeTicket_nvme (w n s l : Nat) : (d.completeTicket w n s l).nvme = d.nvme := (postsOnly_completeTicket _ _ _ _ _).nvme
@[simp] theorem completeTicket_side (w n s l : Nat) : (d.completeTicket w n s l).side = d.side := (postsOnly_completeTicket _ _ _ _ _).side
@[simp] theorem completeTicket_boot (w n s l : Nat) : (d.completeTicket w n s l).boot = d.boot := (postsOnly_completeTicket _ _ _ _ _).boot
@[simp] theorem completeTicket_draws (w n s l : Nat) : (d.completeTicket w n s l).draws = d.draws := (postsOnly_completeTicket _ _ _ _ _).draws
@[simp] theorem completeTicket_hearth_state (w n s l : Nat) : (d.completeTicket w n s l).hearth.state = d.hearth.state := (postsOnly_completeTicket _ _ _ _ _).state
@[simp] theorem completeTicket_hearth_params (w n s l : Nat) : (d.completeTicket w n s l).hearth.params = d.hearth.params := (postsOnly_completeTicket _ _ _ _ _).params
@[simp] theorem completeTicket_hearth_busMaster (w n s l : Nat) : (d.completeTicket w n s l).hearth.busMaster = d.hearth.busMaster := (postsOnly_completeTicket _ _ _ _ _).busMaster
@[simp] theorem completeTicket_hearth_cores (w n s l : Nat) : (d.completeTicket w n s l).hearth.cores = d.hearth.cores := (postsOnly_completeTicket _ _ _ _ _).cores

/-! `completeWith` -/

@[simp] theorem completeWith_units (w n : Nat) (bs : List Byte) : (d.completeWith w n bs).units = d.units := (postsOnly_completeWith _ _ _ _).units
@[simp] theorem completeWith_tongs (w n : Nat) (bs : List Byte) : (d.completeWith w n bs).tongs = d.tongs := (postsOnly_completeWith _ _ _ _).tongs
@[simp] theorem completeWith_tick (w n : Nat) (bs : List Byte) : (d.completeWith w n bs).tick = d.tick := (postsOnly_completeWith _ _ _ _).tick
@[simp] theorem completeWith_progs (w n : Nat) (bs : List Byte) : (d.completeWith w n bs).progs = d.progs := (postsOnly_completeWith _ _ _ _).progs
@[simp] theorem completeWith_screen (w n : Nat) (bs : List Byte) : (d.completeWith w n bs).screen = d.screen := (postsOnly_completeWith _ _ _ _).screen
@[simp] theorem completeWith_vocabs (w n : Nat) (bs : List Byte) : (d.completeWith w n bs).vocabs = d.vocabs := (postsOnly_completeWith _ _ _ _).vocabs
@[simp] theorem completeWith_streams (w n : Nat) (bs : List Byte) : (d.completeWith w n bs).streams = d.streams := (postsOnly_completeWith _ _ _ _).streams
@[simp] theorem completeWith_tenants (w n : Nat) (bs : List Byte) : (d.completeWith w n bs).tenants = d.tenants := (postsOnly_completeWith _ _ _ _).tenants
@[simp] theorem completeWith_haul (w n : Nat) (bs : List Byte) : (d.completeWith w n bs).haul = d.haul := (postsOnly_completeWith _ _ _ _).haul
@[simp] theorem completeWith_group (w n : Nat) (bs : List Byte) : (d.completeWith w n bs).group = d.group := (postsOnly_completeWith _ _ _ _).group
@[simp] theorem completeWith_face (w n : Nat) (bs : List Byte) : (d.completeWith w n bs).face = d.face := (postsOnly_completeWith _ _ _ _).face
@[simp] theorem completeWith_bellows (w n : Nat) (bs : List Byte) : (d.completeWith w n bs).bellows = d.bellows := (postsOnly_completeWith _ _ _ _).bellows
@[simp] theorem completeWith_nvme (w n : Nat) (bs : List Byte) : (d.completeWith w n bs).nvme = d.nvme := (postsOnly_completeWith _ _ _ _).nvme
@[simp] theorem completeWith_side (w n : Nat) (bs : List Byte) : (d.completeWith w n bs).side = d.side := (postsOnly_completeWith _ _ _ _).side
@[simp] theorem completeWith_boot (w n : Nat) (bs : List Byte) : (d.completeWith w n bs).boot = d.boot := (postsOnly_completeWith _ _ _ _).boot
@[simp] theorem completeWith_draws (w n : Nat) (bs : List Byte) : (d.completeWith w n bs).draws = d.draws := (postsOnly_completeWith _ _ _ _).draws
@[simp] theorem completeWith_hearth_state (w n : Nat) (bs : List Byte) : (d.completeWith w n bs).hearth.state = d.hearth.state := (postsOnly_completeWith _ _ _ _).state
@[simp] theorem completeWith_hearth_params (w n : Nat) (bs : List Byte) : (d.completeWith w n bs).hearth.params = d.hearth.params := (postsOnly_completeWith _ _ _ _).params
@[simp] theorem completeWith_hearth_busMaster (w n : Nat) (bs : List Byte) : (d.completeWith w n bs).hearth.busMaster = d.hearth.busMaster := (postsOnly_completeWith _ _ _ _).busMaster
@[simp] theorem completeWith_hearth_cores (w n : Nat) (bs : List Byte) : (d.completeWith w n bs).hearth.cores = d.hearth.cores := (postsOnly_completeWith _ _ _ _).cores

/-! `completeReport` -/

@[simp] theorem completeReport_units (w n s : Nat) (bs : List Byte) : (d.completeReport w n s bs).units = d.units := (postsOnly_completeReport _ _ _ _ _).units
@[simp] theorem completeReport_tongs (w n s : Nat) (bs : List Byte) : (d.completeReport w n s bs).tongs = d.tongs := (postsOnly_completeReport _ _ _ _ _).tongs
@[simp] theorem completeReport_tick (w n s : Nat) (bs : List Byte) : (d.completeReport w n s bs).tick = d.tick := (postsOnly_completeReport _ _ _ _ _).tick
@[simp] theorem completeReport_progs (w n s : Nat) (bs : List Byte) : (d.completeReport w n s bs).progs = d.progs := (postsOnly_completeReport _ _ _ _ _).progs
@[simp] theorem completeReport_screen (w n s : Nat) (bs : List Byte) : (d.completeReport w n s bs).screen = d.screen := (postsOnly_completeReport _ _ _ _ _).screen
@[simp] theorem completeReport_vocabs (w n s : Nat) (bs : List Byte) : (d.completeReport w n s bs).vocabs = d.vocabs := (postsOnly_completeReport _ _ _ _ _).vocabs
@[simp] theorem completeReport_streams (w n s : Nat) (bs : List Byte) : (d.completeReport w n s bs).streams = d.streams := (postsOnly_completeReport _ _ _ _ _).streams
@[simp] theorem completeReport_tenants (w n s : Nat) (bs : List Byte) : (d.completeReport w n s bs).tenants = d.tenants := (postsOnly_completeReport _ _ _ _ _).tenants
@[simp] theorem completeReport_haul (w n s : Nat) (bs : List Byte) : (d.completeReport w n s bs).haul = d.haul := (postsOnly_completeReport _ _ _ _ _).haul
@[simp] theorem completeReport_group (w n s : Nat) (bs : List Byte) : (d.completeReport w n s bs).group = d.group := (postsOnly_completeReport _ _ _ _ _).group
@[simp] theorem completeReport_face (w n s : Nat) (bs : List Byte) : (d.completeReport w n s bs).face = d.face := (postsOnly_completeReport _ _ _ _ _).face
@[simp] theorem completeReport_bellows (w n s : Nat) (bs : List Byte) : (d.completeReport w n s bs).bellows = d.bellows := (postsOnly_completeReport _ _ _ _ _).bellows
@[simp] theorem completeReport_nvme (w n s : Nat) (bs : List Byte) : (d.completeReport w n s bs).nvme = d.nvme := (postsOnly_completeReport _ _ _ _ _).nvme
@[simp] theorem completeReport_side (w n s : Nat) (bs : List Byte) : (d.completeReport w n s bs).side = d.side := (postsOnly_completeReport _ _ _ _ _).side
@[simp] theorem completeReport_boot (w n s : Nat) (bs : List Byte) : (d.completeReport w n s bs).boot = d.boot := (postsOnly_completeReport _ _ _ _ _).boot
@[simp] theorem completeReport_draws (w n s : Nat) (bs : List Byte) : (d.completeReport w n s bs).draws = d.draws := (postsOnly_completeReport _ _ _ _ _).draws
@[simp] theorem completeReport_hearth_state (w n s : Nat) (bs : List Byte) : (d.completeReport w n s bs).hearth.state = d.hearth.state := (postsOnly_completeReport _ _ _ _ _).state
@[simp] theorem completeReport_hearth_params (w n s : Nat) (bs : List Byte) : (d.completeReport w n s bs).hearth.params = d.hearth.params := (postsOnly_completeReport _ _ _ _ _).params
@[simp] theorem completeReport_hearth_busMaster (w n s : Nat) (bs : List Byte) : (d.completeReport w n s bs).hearth.busMaster = d.hearth.busMaster := (postsOnly_completeReport _ _ _ _ _).busMaster
@[simp] theorem completeReport_hearth_cores (w n s : Nat) (bs : List Byte) : (d.completeReport w n s bs).hearth.cores = d.hearth.cores := (postsOnly_completeReport _ _ _ _ _).cores

/-! `respond` -/

@[simp] theorem respond_units (w s t : Nat) (bs : List Byte) : (d.respond w s t bs).units = d.units := (postsOnly_respond _ _ _ _ _).units
@[simp] theorem respond_tongs (w s t : Nat) (bs : List Byte) : (d.respond w s t bs).tongs = d.tongs := (postsOnly_respond _ _ _ _ _).tongs
@[simp] theorem respond_tick (w s t : Nat) (bs : List Byte) : (d.respond w s t bs).tick = d.tick := (postsOnly_respond _ _ _ _ _).tick
@[simp] theorem respond_progs (w s t : Nat) (bs : List Byte) : (d.respond w s t bs).progs = d.progs := (postsOnly_respond _ _ _ _ _).progs
@[simp] theorem respond_screen (w s t : Nat) (bs : List Byte) : (d.respond w s t bs).screen = d.screen := (postsOnly_respond _ _ _ _ _).screen
@[simp] theorem respond_vocabs (w s t : Nat) (bs : List Byte) : (d.respond w s t bs).vocabs = d.vocabs := (postsOnly_respond _ _ _ _ _).vocabs
@[simp] theorem respond_streams (w s t : Nat) (bs : List Byte) : (d.respond w s t bs).streams = d.streams := (postsOnly_respond _ _ _ _ _).streams
@[simp] theorem respond_tenants (w s t : Nat) (bs : List Byte) : (d.respond w s t bs).tenants = d.tenants := (postsOnly_respond _ _ _ _ _).tenants
@[simp] theorem respond_haul (w s t : Nat) (bs : List Byte) : (d.respond w s t bs).haul = d.haul := (postsOnly_respond _ _ _ _ _).haul
@[simp] theorem respond_group (w s t : Nat) (bs : List Byte) : (d.respond w s t bs).group = d.group := (postsOnly_respond _ _ _ _ _).group
@[simp] theorem respond_face (w s t : Nat) (bs : List Byte) : (d.respond w s t bs).face = d.face := (postsOnly_respond _ _ _ _ _).face
@[simp] theorem respond_bellows (w s t : Nat) (bs : List Byte) : (d.respond w s t bs).bellows = d.bellows := (postsOnly_respond _ _ _ _ _).bellows
@[simp] theorem respond_nvme (w s t : Nat) (bs : List Byte) : (d.respond w s t bs).nvme = d.nvme := (postsOnly_respond _ _ _ _ _).nvme
@[simp] theorem respond_side (w s t : Nat) (bs : List Byte) : (d.respond w s t bs).side = d.side := (postsOnly_respond _ _ _ _ _).side
@[simp] theorem respond_boot (w s t : Nat) (bs : List Byte) : (d.respond w s t bs).boot = d.boot := (postsOnly_respond _ _ _ _ _).boot
@[simp] theorem respond_draws (w s t : Nat) (bs : List Byte) : (d.respond w s t bs).draws = d.draws := (postsOnly_respond _ _ _ _ _).draws
@[simp] theorem respond_hearth_state (w s t : Nat) (bs : List Byte) : (d.respond w s t bs).hearth.state = d.hearth.state := (postsOnly_respond _ _ _ _ _).state
@[simp] theorem respond_hearth_params (w s t : Nat) (bs : List Byte) : (d.respond w s t bs).hearth.params = d.hearth.params := (postsOnly_respond _ _ _ _ _).params
@[simp] theorem respond_hearth_busMaster (w s t : Nat) (bs : List Byte) : (d.respond w s t bs).hearth.busMaster = d.hearth.busMaster := (postsOnly_respond _ _ _ _ _).busMaster
@[simp] theorem respond_hearth_cores (w s t : Nat) (bs : List Byte) : (d.respond w s t bs).hearth.cores = d.hearth.cores := (postsOnly_respond _ _ _ _ _).cores

/-! `flushStaged` -/

@[simp] theorem flushStaged_units (w : Nat) : (d.flushStaged w).units = d.units := (postsOnly_flushStaged _ _).units
@[simp] theorem flushStaged_tongs (w : Nat) : (d.flushStaged w).tongs = d.tongs := (postsOnly_flushStaged _ _).tongs
@[simp] theorem flushStaged_tick (w : Nat) : (d.flushStaged w).tick = d.tick := (postsOnly_flushStaged _ _).tick
@[simp] theorem flushStaged_progs (w : Nat) : (d.flushStaged w).progs = d.progs := (postsOnly_flushStaged _ _).progs
@[simp] theorem flushStaged_screen (w : Nat) : (d.flushStaged w).screen = d.screen := (postsOnly_flushStaged _ _).screen
@[simp] theorem flushStaged_vocabs (w : Nat) : (d.flushStaged w).vocabs = d.vocabs := (postsOnly_flushStaged _ _).vocabs
@[simp] theorem flushStaged_streams (w : Nat) : (d.flushStaged w).streams = d.streams := (postsOnly_flushStaged _ _).streams
@[simp] theorem flushStaged_tenants (w : Nat) : (d.flushStaged w).tenants = d.tenants := (postsOnly_flushStaged _ _).tenants
@[simp] theorem flushStaged_haul (w : Nat) : (d.flushStaged w).haul = d.haul := (postsOnly_flushStaged _ _).haul
@[simp] theorem flushStaged_group (w : Nat) : (d.flushStaged w).group = d.group := (postsOnly_flushStaged _ _).group
@[simp] theorem flushStaged_face (w : Nat) : (d.flushStaged w).face = d.face := (postsOnly_flushStaged _ _).face
@[simp] theorem flushStaged_bellows (w : Nat) : (d.flushStaged w).bellows = d.bellows := (postsOnly_flushStaged _ _).bellows
@[simp] theorem flushStaged_nvme (w : Nat) : (d.flushStaged w).nvme = d.nvme := (postsOnly_flushStaged _ _).nvme
@[simp] theorem flushStaged_side (w : Nat) : (d.flushStaged w).side = d.side := (postsOnly_flushStaged _ _).side
@[simp] theorem flushStaged_boot (w : Nat) : (d.flushStaged w).boot = d.boot := (postsOnly_flushStaged _ _).boot
@[simp] theorem flushStaged_draws (w : Nat) : (d.flushStaged w).draws = d.draws := (postsOnly_flushStaged _ _).draws
@[simp] theorem flushStaged_hearth_state (w : Nat) : (d.flushStaged w).hearth.state = d.hearth.state := (postsOnly_flushStaged _ _).state
@[simp] theorem flushStaged_hearth_params (w : Nat) : (d.flushStaged w).hearth.params = d.hearth.params := (postsOnly_flushStaged _ _).params
@[simp] theorem flushStaged_hearth_busMaster (w : Nat) : (d.flushStaged w).hearth.busMaster = d.hearth.busMaster := (postsOnly_flushStaged _ _).busMaster
@[simp] theorem flushStaged_hearth_cores (w : Nat) : (d.flushStaged w).hearth.cores = d.hearth.cores := (postsOnly_flushStaged _ _).cores

/-! Reads of what an update leaves alone. -/

theorem unit_of_recs {d e : Dev} (c : UnitClass) (i : Nat) (h : e.units.recs = d.units.recs) : e.unit c i = d.unit c i := by
  unfold Dev.unit
  rw [h]

theorem region_modRegion (r j : Nat) (f : RegionRec → RegionRec) : (d.modRegion r f).region j = if j = r then f (d.region r) else d.region j := by
  unfold Dev.region Dev.modRegion
  exact amap_getD_set _ _ _ _ _

theorem block_modBlock (r j : Nat) (f : BlockRec → BlockRec) : (d.modBlock r f).block j = if j = r then f (d.block r) else d.block j := by
  unfold Dev.block Dev.modBlock
  exact amap_getD_set _ _ _ _ _

theorem unit_modUnit (c : UnitClass) (i : Nat) (f : UnitRec → UnitRec) : (d.modUnit c i f).unit c i = f (d.unit c i) := by
  unfold Dev.unit Dev.modUnit
  exact amap_getD_set_same _ _ _ _

end updates

end Sys2Proof.Laws
end

