-- ==== Sys2Proof/WellFormed.lean ====
section
/-!
DEFINITION. WellFormed.lean: which commands can be sent: every operand fits the field, the register, the frame or the message that carries it.
-/
namespace Sys2Proof

/-- A number of `n` bits. -/
def fitsBits (n x : Nat) : Bool := decide (x < 2 ^ n)

def isU8 (x : Nat) : Bool := fitsBits 8 x
def isU16 (x : Nat) : Bool := fitsBits 16 x
def isU32 (x : Nat) : Bool := fitsBits 32 x
def isU64 (x : Nat) : Bool := fitsBits 64 x

/-- A tenant id (R12). -/
def isTenant (x : Nat) : Bool := decide (x < 1024)

/-- A tenant id, or 1,024 for a buffer of no tenant (Table 03-8). -/
def isTenantOrDevice (x : Nat) : Bool := decide (x ≤ 1024)

/-- A reservoir index of a tenant (Table 15-1). -/
def isReservoir (x : Nat) : Bool := decide (x < 256)

/-- A stream id (R12). -/
def isStream (x : Nat) : Bool := decide (x < 2 ^ 20)

/-- An Ethernet port (Table 00-1). -/
def isPort (x : Nat) : Bool := decide (x < 4)

/-- A peer id (Table 15-5). -/
def isPeer (x : Nat) : Bool := decide (x < 256)

/-- A NAND die (R209). -/
def isDie (x : Nat) : Bool := decide (x < 1024)

/-- An I3C address of seven bits (R661). -/
def isI3c (x : Nat) : Bool := decide (x < 128)

/-- A context slot of a region (Table 03-1). -/
def isSlot (x : Nat) : Bool := decide (x < 163840)

/-- The widths of a register access. -/
def accessOk (bits : Nat) : Bool := bits == 8 || bits == 16 || bits == 32 || bits == 64

/-- A frame that a port can accept (R490). -/
def frameOk (f : List Byte) : Bool := decide (f.length ≤ 9216)

/-- A peer message holds its fixed fields (Table 15-6). -/
def messageOk (m : List Byte) : Bool := decide (64 ≤ m.length)

/-- An entry of a scatter list (Table 04-15). -/
def SglEntry.wf (e : SglEntry) : Bool := isU64 e.addr && isU32 e.len && isU32 e.rsv

/-- A request area (Tables 04-8 and 04-13): its fields, a payload that the area holds, and as many entries as SGL_COUNT says. -/
def Request.wf (r : Request) : Bool :=
  isU16 r.tag && isU16 r.len && isU16 r.sglCount && isU16 r.hdrRsv && isU64 r.sglAddr && decide (r.payload.length ≤ 1968) && r.sgl.length == r.sglCount && r.sgl.all SglEntry.wf

/-- A queue pair. -/
def QpRef.wf : QpRef → Bool
  | .reservoir t n => isTenant t && isReservoir n
  | .peer n => isPeer n

/-- An audit. -/
def AuditRef.wf : AuditRef → Bool
  | .command _ n => isU32 n
  | .drain t => isTenant t

/-- The temperature of every die is there at a boundary (R624). -/
def BoundaryFound.wf (f : BoundaryFound) : Bool := f.temps.length == 9

/-- The channels, the dies and the strap of a bring-up (R209, R701). -/
def BringupFound.wf (f : BringupFound) : Bool := f.channels.all (fun c => decide (c < 64)) && f.dies.all isDie && decide (f.tickPos < 16)

/-- The fields of a submission queue entry. -/
def NvmeRequest.wf (c : NvmeRequest) : Bool :=
  isU16 c.sq && isU16 c.cid && isU32 c.nsid && isU32 c.cdw10 && isU32 c.cdw11 && isU32 c.cdw12 && isU32 c.cdw13 && isU32 c.cdw14 && isU32 c.cdw15

/-- The fields of a packet, and its body of up to 64 bytes (R661). -/
def MctpPacket.wf (p : MctpPacket) : Bool :=
  isU8 p.dest && isU8 p.source && decide (p.seq < 4) && decide (p.tag < 8) && decide (p.body.length ≤ 64)

/-- A move has up to three axes, with a count, a source pitch and a destination pitch for each (chapter 9, Moves and overlap). -/
def MoveRec.wf (m : MoveRec) : Bool := decide (m.counts.length ≤ 3) && m.counts.length == m.srcPitch.length && m.counts.length == m.dstPitch.length

/-- Whether a command can be sent. -/
def Instr.wf (i : Instr) : Bool :=
  match i with
  | .hello _ r => r.wf
  | .setEventRing _ r => r.wf
  | .ticketQuery _ r => r.wf
  | .setParam _ r => r.wf
  | .getParam _ r => r.wf
  | .readCounters _ r => r.wf
  | .readTrouble _ r => r.wf
  | .clearSticky _ r => r.wf
  | .unitMap _ r => r.wf
  | .unitMapDone _ ticket => isU32 ticket
  | .tenantCreate _ r => r.wf
  | .tenantDelete _ r => r.wf
  | .functionDisable _ r => r.wf
  | .functionEnable _ r => r.wf
  | .gateListSet _ r => r.wf
  | .programLoad _ r => r.wf
  | .programLoadDone _ ticket => isU32 ticket
  | .programUnload _ r => r.wf
  | .programUnloadDone _ ticket => isU32 ticket
  | .vocabLoad _ r => r.wf
  | .vocabLoadDone _ ticket => isU32 ticket
  | .screenTableLoad _ r => r.wf
  | .screenBuildDone _ ticket => isU32 ticket
  | .generationRetire _ _ => true
  | .screenTableUpdate _ r => r.wf
  | .streamCreate _ r => r.wf
  | .streamDelete _ r => r.wf
  | .streamDeleteDone stream => isStream stream
  | .epochStart _ r => r.wf
  | .streamPause _ r => r.wf
  | .streamResume _ r => r.wf
  | .modeSet _ r => r.wf
  | .contextRead _ r => r.wf
  | .consumerAttach _ r => r.wf
  | .attachTimeout tenant reservoir => isTenant tenant && isReservoir reservoir
  | .consumerDetach _ r => r.wf
  | .consumerDetachDone tenant reservoir => isTenant tenant && isReservoir reservoir
  | .reservoirBind _ r => r.wf
  | .peerAdd _ r => r.wf
  | .ingestOpen _ r => r.wf
  | .ingestClose _ r => r.wf
  | .ingestCloseDone stream => isStream stream
  | .ingestCloseDiscard stream => isStream stream
  | .datasetCreate _ r => r.wf
  | .datasetAppend _ r => r.wf
  | .datasetAppendDurable _ ticket => isU32 ticket
  | .datasetSeal _ r => r.wf
  | .datasetSealDone _ ticket => isU32 ticket
  | .datasetDiscard _ r => r.wf
  | .placementSet _ r => r.wf
  | .datasetKeySet _ r => r.wf
  | .barrierJoin _ r => r.wf
  | .barrierJoinDone => true
  | .syncTimeout => true
  | .tickEpochSet _ r => r.wf
  | .tickEpochTakesEffect found => found.wf
  | .replayRecord _ r => r.wf
  | .replayRun _ r => r.wf
  | .replayEnd stream => isStream stream
  | .digestRead _ r => r.wf
  | .tongsAudit _ r => r.wf
  | .tongsAuditDone audit => audit.wf
  | .tongsBufferState _ r => r.wf
  | .configRead _ r => r.wf
  | .configReadDone _ ticket => isU32 ticket
  | .configWrite _ r => r.wf
  | .configWriteDone _ ticket _ => isU32 ticket
  | .topologyAck _ r => r.wf
  | .fwStage _ r => r.wf
  | .fwStageDone _ ticket _ => isU32 ticket
  | .fwActivate _ r => r.wf
  | .activationRecordWritten => true
  | .holdupMeasure _ r => r.wf
  | .powerStateSet _ r => r.wf
  | .tickCountLoRead => true
  | .mbxIrqWrite _ value => isU64 value
  | .evtHeadWrite _ value => isU64 value
  | .registerWrite _ _ bits value => accessOk bits && decide (value < 2 ^ bits)
  | .tickBoundary found => found.wf
  | .planFreeze => true
  | .limpProbe unit => decide (unit < 8 * 65536)
  | .periodChangeTakesEffect => true
  | .gateListTakesEffect tenant => isTenant tenant
  | .deferStalled stream _ => isStream stream
  | .slcLimitRecompute => true
  | .stagedLaunchPrecharge _ => true
  | .stagedLaunchRelease _ => true
  | .workItemComplete _ _ => true
  | .readHedge _ => true
  | .cellStoreCe _ _ => true
  | .cellOpFailure _ _ _ => true
  | .laneFault _ _ _ => true
  | .swageFault _ _ => true
  | .screenFault _ _ => true
  | .blockStoreUe _ _ _ => true
  | .hbmCe _ => true
  | .hbmUe _ _ => true
  | .ringFault _ _ => true
  | .dirFault _ _ => true
  | .wedgeFault _ _ _ => true
  | .regionResetDone _ => true
  | .regionResetTimeout _ => true
  | .hbmControllerFailure _ => true
  | .rehomeDone _ => true
  | .coreFault _ => true
  | .lockstepMismatch => true
  | .hubSramUe _ => true
  | .permuteFault => true
  | .pageDecodeFail dataset _ _ => isU16 dataset
  | .programFail _ member => decide (member < 16)
  | .eraseDone die _ _ => isDie die
  | .benchVerify _ _ => true
  | .dieFailed die => isDie die
  | .channelRetrainFail channel => decide (channel < 64)
  | .writePermitRoom _ => true
  | .journalTailFlush => true
  | .mapsCheckpoint => true
  | .dedupSweepDone _ _ => true
  | .drainTickStep tenant => isTenant tenant
  | .tenantRemovalDone tenant => isTenant tenant
  | .functionLevelReset _ => true
  | .vfRemoval vf => isTenant vf
  | .rdmaAck tenant reservoir => isTenant tenant && isReservoir reservoir
  | .fenceResponse tenant reservoir => isTenant tenant && isReservoir reservoir
  | .qpError qp _ => qp.wf
  | .cnpReceived qp _ => qp.wf
  | .congestionIncrease qp => qp.wf
  | .gaugeReadResponse tenant reservoir value => isTenant tenant && isReservoir reservoir && isU64 value
  | .arpRequest port frame => isPort port && frameOk frame
  | .neighborSolicitation port frame => isPort port && frameOk frame
  | .ingressFrame port frame _ => isPort port && frameOk frame
  | .manifestQuery peer message => isPeer peer && messageOk message
  | .manifestReply peer message => isPeer peer && messageOk message
  | .readReq peer message => isPeer peer && messageOk message
  | .readReady peer message => isPeer peer && messageOk message
  | .readFail peer message => isPeer peer && messageOk message
  | .release peer message => isPeer peer && messageOk message
  | .peerLinkReadDone peer tag _ => isPeer peer && isU64 tag
  | .peerRequestTimeout peer tag => isPeer peer && isU64 tag
  | .peerBusyRetry peer tag => isPeer peer && isU64 tag
  | .peerReleaseTimeout peer tag => isPeer peer && isU64 tag
  | .peerProbe peer => isPeer peer
  | .portLinkLoss port => isPort port
  | .ethRefclkLoss port => isPort port
  | .tickBusFrame frame => frame.length == 12
  | .tickPulseMissing => true
  | .ptpSyncMessage _ boundaryNs => isU64 boundaryNs
  | .ptpSyncTimeout => true
  | .resync reference number _ found => isU64 reference && isU64 number && found.wf
  | .slumberEntry => true
  | .slumberExit => true
  | .powerStateExitDone => true
  | .droopDetect _ => true
  | .droopRecover _ => true
  | .droopCeilingExpire => true
  | .pmbusRead reads => reads.length == 20
  | .gainUpdate => true
  | .holdupTestDue => true
  | .holdupTestDone dtUs v2Mv => isU32 dtUs && isU32 v2Mv
  | .holdupTestTimeout => true
  | .quenchTrip die sensor => decide (die < 9) && isU8 sensor
  | .powerOn found => found.wf
  | .resetLAssert found => found.wf
  | .perstL found => found.wf
  | .pfailLFall => true
  | .pfailLRise => true
  | .holdupFlushDone found => found.wf
  | .railFault rail => decide (rail < 20)
  | .lpoClkLoss => true
  | .loadFw _ _ found => found.wf
  | .readLog => true
  | .factoryDefaults _ => true
  | .sanitize _ => true
  | .reset found => found.wf
  | .forceRecovery found => found.wf
  | .recStatusRead => true
  | .sanitizeDone _ => true
  | .nvmeCreateIoSq c => c.wf
  | .nvmeCreateIoCq c => c.wf
  | .nvmeDeleteIoSq c => c.wf
  | .nvmeDeleteIoCq c => c.wf
  | .getLogPage c => c.wf
  | .identify c => c.wf
  | .abort c => c.wf
  | .setFeatures c => c.wf
  | .getFeatures c => c.wf
  | .asynchronousEventRequest c => c.wf
  | .deviceSelfTest c => c.wf
  | .selftestDone _ _ => true
  | .nvmeSanitize c => c.wf
  | .nvmeFlush c => c.wf
  | .nvmeWrite c => c.wf
  | .nvmeRead c => c.wf
  | .writeZeroes c => c.wf
  | .datasetManagement c => c.wf
  | .nvmeInvalidOpcode c => c.wf
  | .openExtentClose dataset => isU16 dataset
  | .apstTransition => true
  | .pf0Reset => true
  | .setEndpointId p => p.wf
  | .getEndpointId p => p.wf
  | .getMctpVersionSupport p => p.wf
  | .getMessageTypeSupport p => p.wf
  | .getVendorDefinedMessageSupport p => p.wf
  | .vendorDefinedMessage p => p.wf
  | .setdasa address => isI3c address
  | .entdaa address => isI3c address
  | .rstdaa => true
  | .bypass _ => true
  | .idcode _ => true
  | .samplePreload _ => true
  | .extest _ => true
  | .readShared _ slot _ => isSlot slot
  | .readOwn _ slot _ => isSlot slot
  | .writeback _ slot _ => isSlot slot
  | .evictClean _ slot _ => isSlot slot
  | .hubRead _ slot => isSlot slot
  | .hubWrite _ slot mask data => isSlot slot && decide (mask < 2 ^ 256) && data.length == 256
  | .bufferAllocate _ _ tenant cls => isTenantOrDevice tenant && isU8 cls
  | .share handle cls tenant => isU64 handle && isU8 cls && isTenantOrDevice tenant
  | .drop handle cls tenant => isU64 handle && isU8 cls && isTenantOrDevice tenant
  | .move _ m tenant _ => isTenant tenant && m.wf
  | .compressorData ctx _ cls tenant _ => decide (ctx < 512) && isU8 cls && isTenantOrDevice tenant
  | .compressorFlush ctx => decide (ctx < 512)
  | .compressorEnd ctx => decide (ctx < 512)
  | .maintenanceMoveDone _ => true
  | .blockStoreCe _ => true
  | .gaugePageWrite tenant reservoir data => isTenant tenant && isReservoir reservoir && decide (data.length ≤ 4096)
  | .peerBufferRdmaRead peer _ => isPeer peer
  | .localAckTimeout qp => qp.wf
  | .replayExportDone _ ticket => isU32 ticket
  | .replayLogDeleteDone _ ticket => isU32 ticket
  | .unitUngated unit => decide (unit < 8 * 65536)
  | .standbyPowerLoss => true
  | .ccEnSet => true
  | .busMasterEnableChange fn _ => decide (fn ≤ 1024)
  | .sriovVfEnable vf => isTenant vf
  | .opcodeUnknown _ opcode r => isU16 opcode && r.wf
  | .badCode code => isU8 code

end Sys2Proof
end

