-- ==== Sys2Proof/Tests/Slice0.lean ====
section
/-!
SUPPORT. Tests/Slice0.lean: terms that the checks of WellFormed refuse, inputs that meet the hypotheses of each statement, and worked examples of the
manual.
-/
set_option linter.unusedVariables false
set_option maxRecDepth 100000
namespace Sys2Proof.Tests
open Sys2Proof Sys2Proof.Machine

/-- A device that runs, in READY at tick 1,000, changed by `f`. -/
def up (f : Dev → Dev) : State :=
  { State.reset with dev := f { Dev.init with hearth := { Hearth.init with state := .ready }, tick := { Tick.init with running := true, count := 1000 } } }

/-- A request of `len` payload bytes without a scatter list. -/
def reqOf (len : Nat) (payload : List Byte) : Request :=
  { tag := 1, len := len, sglCount := 0, hdrRsv := 0, sglAddr := 0, payload := payload, sgl := [], sglReadable := true, data := [] }

def ticketOf (n opcode : Nat) : Ticket := { num := n, opcode := opcode, object := 0, issueTick := 0, sgl := [], data := [], req := [] }

def streamOf : Stream := Stream.created 0 0 0 4 0 0 false 0

def opOf (opcode : Nat) : OpRec :=
  { opcode := opcode, vary := false, exactAlt := false, grain := 0, cls := 0, inA := 0, inB := 0, costK := 0, exactK := 0, outMax := 0, placeGroup := 0,
    stateOff := 0, stateLen := 0, params := [] }

def itemOf (job : Job) (cls : Nat) (units : List Nat) : Item :=
  { id := 7, queue := 0, job := job, cls := cls, kind := 0, measure := (0, 0), cost := 1, dies := [], due := 1, op := 0, order := 0, since := 0, tags := [],
    phase := .running, units := units, planStart := 0, planEnd := 1, planTick := 1000, heat := 0, ringBound := false, ran := 0, startAt := 0,
    retry := false, probe := false, charged := 0, shape := 0, discard := false, out := none }

def logOf : Log :=
  { tenant := 0, stream := 1, records := [], fed := 0, ctx := { log := 12, cls := 1, tenant := 0, held := [], out := [] }, recording := false,
    armed := false, ended := true, run := none, export_ := none, delete := none, stopAsked := false }

def memberOf (role : Nat) : Membership :=
  { role := role, position := 1, ptpEn := role == 0, groupId := 1, groupSize := 2, rank := 1, ptpPort := 0, ptpDomain := 0 }

def reservoirOf : Reservoir :=
  { state := .active, attach := none, detach := [], port := 0, fmt := 1, flush := false, vlanEn := false, gaugeRead := false, dscp := 0, pcp := 0,
    vlanId := 0, remoteQpn := 0, remotePsn := 0, rkey := 0, mac := [], localGid := zeros 16, remoteGid := [], ringAddr := 0, ringBytes := 65536,
    tailAddr := 0, headAddr := 0, gauge := none, gaugeNext := none, head := some 0, tail := 0, published := 0, acked := 0, virtualTail := 0, hPrev := 0,
    d := 0, i := 0, a := 0, lbar := 0, lMax := 0, nextSeq := 0, due := [], billets := [], writes := [], fences := [], fencedTo := 0, nextOp := 0,
    tails := [], rate := 1, alpha := 0, lastDecrease := none, cnpInPeriod := false, retries := 0, ticksActive := 0, fill := 0, rateSeen := 0 }

def peerOf : Peer :=
  { port := 0, remoteQpn := 0, mac := [], vlan := 0, localGid := zeros 16, remoteGid := [], up := true, timeouts := 0, downTick := 0, retries := 0,
    rate := 1, alpha := 0, lastDecrease := none, cnpInPeriod := false, qpError := false }

def askedOf : PeerReq :=
  { tag := 9, peer := 5, stream := 1, pos := 0, tried := [], links := [], length := 0, rkey := 0, waiting := false, hedge := false, sentTick := 900 }

def servedOf (bufs : List Nat) : Served := { peer := 5, tag := 9, dataset := 2, index := 0, bufs := bufs, data := [1], ready := true }

def datasetOf : Dataset :=
  { tenant := 0, sealed_ := false, extents := [], length := 0, manifest := zeros 32, dirOffset := 0, count := 0, damage := [], placement := [],
    placementNext := none, sealing := none, keyMode := 0, key := [], openExtent := none }

def extentOf : Extent :=
  { dataset := 2, state := .live, loc := .buffer 0, damaged := false, length := 4, offset := 0, journalSeq := 0, data := [], digest := zeros 32,
    unreadable := [], order := 0, dirty := 0, buffered := true, flushed := false, durable := true, durTick := 0, nativeDest := false, set_ := 0,
    append := none }

def benchOf : Bench :=
  { state := .opened, kind := .nativeData, members := (List.range 12).map (fun k => (k, 0)), endPos := 12, validPages := 0, parityBench := none,
    closedTick := 0, failed := [] }

def nvmeOf : NvmeRequest :=
  { sq := 0, cid := 0, nsid := 0, cdw10 := 0, cdw11 := 0, cdw12 := 0, cdw13 := 0, cdw14 := 0, cdw15 := 0, data := [] }

def mctpOf (body : List Byte) : MctpPacket :=
  { pecOk := true, dest := 0, source := 8, som := true, eom := true, seq := 0, tagOwner := true, tag := 0, body := body }

def foundNone : BringupFound :=
  { bad := [], channels := [], dies := [], ppb := 1536, bits := 4, blocksPerPlane := 8192, maps := .latest, retentionOk := true, tickEn := false,
    tickPos := 0, ms := 0 }

def boundaryNone : BoundaryFound := { temps := [], bankMv := 5000, hbmBytes := 0, nandBytes := [] }

/-- A frame with its check sequence. -/
def frameOf (b : List Byte) : List Byte := b ++ leBytes 4 (crc32 b)

/-- The start of an Ethernet frame to the device's first port, of the given type. -/
def ethOf (type_ : Nat) : List Byte := zeros 6 ++ [2, 0, 0, 0, 0, 1] ++ beBytes 2 type_

/-- A live frame of 4 data bytes over IPv4 to UDP port 6000, with its header of 32 bytes. -/
def liveFrame : List Byte :=
  frameOf (ethOf 0x0800 ++ [0x45, 0, 0, 64, 0, 0, 0, 0, 64, 17, 0x7A, 0xAE, 0, 0, 0, 0, 0, 0, 0, 0] ++ [0, 0] ++ beBytes 2 6000 ++ [0, 44, 0, 0] ++
    leBytes 4 0x31464942 ++ [0, 1, 32, 0, 4, 0, 0, 0] ++ zeros 20 ++ [1, 2, 3, 4])

/-- A stream of live ingest on UDP port 6000 of the first port. -/
def liveStream : Stream :=
  { streamOf with ingest := some { key := { udpPort := 6000, vniMatch := false, portMask := 1, vni := 0 }, matching := true, nextSeq := 0, closing := [] } }

/-- An ARP request for 192.0.2.1. -/
def arpFrame : List Byte := frameOf (ethOf 0x0806 ++ [0, 1, 8, 0, 6, 4, 0, 1] ++ zeros 16 ++ [192, 0, 2, 1])

/-- A neighbour solicitation for the address of sixteen ones. -/
def solicitBody (sum : Nat) : List Byte := [135, 0] ++ beBytes 2 sum ++ zeros 4 ++ List.replicate 16 1

def solicitFrame : List Byte :=
  frameOf (ethOf 0x86DD ++ [0x60, 0, 0, 0, 0, 24, 58, 0xFF] ++ zeros 32 ++ solicitBody 0x70A5)

/-- A configuration image without records, with the expectations of a whole ADF1-P16 without dies. -/
def imageOf : List Byte :=
  leBytes 4 cfgMagic ++ leBytes 2 0x0100 ++ zeros 58 ++ [1, 8, 16, 4] ++ leBytes 2 2048 ++ leBytes 2 384 ++ [0, 0, 0, 0, 255] ++ zeros 51

theorem allZero_past (b : List Byte) (o n : Nat) (h : b.drop o = []) : allZero (bytesAt b o n) = true := by
  simp [bytesAt, h, allZero]

theorem imageOf_ok : cfgImageOk imageOf = true := by
  unfold cfgImageOk
  rw [allZero_past imageOf (128 + leAt imageOf 16 4) _ (by decide)]
  decide

/-- A write of `image` that waits as ticket 1 of the administrative window. -/
def writeOf (image : List Byte) : Ticket := { ticketOf 1 0x0902 with data := image }

def holdOf : State := up fun d =>
  { d with boot := { d.boot with mapsOk := true } }.setWin 1024 { Win.init with tickets := [writeOf imageOf] } |> fun d => { d with hearth := { d.hearth with state := .hold } }

theorem holdOf_ready : holdOf.dev.configReady 1024 1 true = true := by
  have t : holdOf.dev.ticketOf 1024 1 0x0902 = some (writeOf imageOf) := by decide
  have m : holdOf.dev.mismatchWith (expectedOf imageOf) = 0 := by decide
  have s : holdOf.dev.stopped = false := by decide
  have h : holdOf.dev.hearth.state = .hold := by decide
  have o : cfgImageOk (writeOf imageOf).data = true := imageOf_ok
  have e : (writeOf imageOf).data = imageOf := rfl
  simp only [Dev.configReady, t, s, h, o]
  rw [e, m]
  rfl

def readyOf : State := up fun d => d.setWin 1024 { Win.init with tickets := [writeOf imageOf] }

theorem readyOf_stays : readyOf.dev.configReady 1024 1 true = false := by
  have t : readyOf.dev.ticketOf 1024 1 0x0902 = some (writeOf imageOf) := by decide
  have h : (readyOf.dev.hearth.state == DevState.hold) = false := by decide
  simp only [Dev.configReady, t, h, Bool.and_false, Bool.false_and]

/-- An SLC extent of one page at the head of the log, and the open native bench that its fold would fill. -/
def foldExtent : Extent := { extentOf with loc := .slc 0, length := 16384 }

def foldState : State := up fun d => { d with face := { d.face with
  extents := [(1, foldExtent)]
  benches := [(0, { benchOf with state := .opened })] } }

def settleFold (d : Dev) : Option Dev := (d.losePages [(1, 0)]).settleExtent 1 foldExtent true


/-- Inputs that meet the hypotheses of `Obligations.StepTakesTheFrontCommand`. -/
theorem witness_StepTakesTheFrontCommand :
    (∃ (c : Instr) (rest : List Instr) (s : State), s.pending = c :: rest) ∧
    (∃ s : State, s.pending = []) :=
    ⟨⟨.slumberEntry, [], { State.reset with pending := [.slumberEntry] }, by decide⟩,
     ⟨State.reset, by decide⟩⟩

/-- Inputs that meet the hypotheses of `Obligations.NegotiatedVersionsAreSpoken`. -/
theorem witness_NegotiatedVersionsAreSpoken :
    (∃ s t : State, HdrOk s ∧ step s = .next t) :=
    ⟨State.reset, State.reset, by unfold HdrOk; decide, rfl⟩

/-- Inputs that meet the hypotheses of `Obligations.StoppedDeviceDoesNothing`. -/
theorem witness_StoppedDeviceDoesNothing :
    (∃ (c : Instr) (s : State), s.dev.stopped = true ∧ actsWhenStopped c = false) :=
    ⟨.slumberEntry, (up fun d => { d with boot := { d.boot with held := 1 } }), by decide, by decide⟩

/-- Inputs that meet the hypotheses of `Obligations.BusyDoorbellIgnored`. -/
theorem witness_BusyDoorbellIgnored :
    (∃ (i : Instr) (c : Cmd) (w : Window) (r : Request) (s : State), doorbellOf i = some (c, w, r) ∧ s.dev.stopped = false ∧
      (s.dev.win w.num).state = .busy) :=
    ⟨.hello .admin (reqOf 0 []), cmdHello, .admin, reqOf 0 [], (up fun d => d.setWin 1024 { Win.init with state := .busy }), rfl, by decide,
      by decide⟩

/-- Inputs that meet the hypotheses of `Obligations.BootDoorbellIgnored`. -/
theorem witness_BootDoorbellIgnored :
    (∃ (i : Instr) (c : Cmd) (w : Window) (r : Request) (s : State), doorbellOf i = some (c, w, r) ∧ s.dev.stopped = false ∧
      (s.dev.hearth.state = .boot ∨ s.dev.hearth.state = .recovery)) :=
    ⟨.hello .admin (reqOf 0 []), cmdHello, .admin, reqOf 0 [], State.reset, rfl, by decide, by decide⟩

/-- Inputs that meet the hypotheses of `Obligations.AcceptedDoorbellCompletes`. -/
theorem witness_AcceptedDoorbellCompletes :
    (∃ (i : Instr) (c : Cmd) (w : Window) (r : Request) (s : State), doorbellOf i = some (c, w, r) ∧ s.dev.stopped = false ∧
      (s.dev.win w.num).state ≠ .busy ∧ s.dev.hearth.state ≠ .boot ∧ s.dev.hearth.state ≠ .recovery ∧
      c.refusal (s.dev.taken c w r) { w := w.num, v := s.version w.num, r := r } = none) :=
    ⟨.hello .admin (reqOf 16 (leBytes 2 0x100 ++ leBytes 2 0x100 ++ zeros 12)), cmdHello, .admin,
      reqOf 16 (leBytes 2 0x100 ++ leBytes 2 0x100 ++ zeros 12), (up fun d => d), rfl, by decide, by decide, by decide, by decide, by decide⟩

/-- Inputs that meet the hypotheses of `Obligations.RefusedDoorbellChangesOnlyItsResponse`. -/
theorem witness_RefusedDoorbellChangesOnlyItsResponse :
    (∃ (i : Instr) (c : Cmd) (w : Window) (r : Request) (s : State) (st : Status), doorbellOf i = some (c, w, r) ∧ s.dev.stopped = false ∧
      (s.dev.win w.num).state ≠ .busy ∧ s.dev.hearth.state ≠ .boot ∧ s.dev.hearth.state ≠ .recovery ∧
      c.refusal (s.dev.taken c w r) { w := w.num, v := s.version w.num, r := r } = some st) :=
    ⟨.hello .admin (reqOf 15 []), cmdHello, .admin, reqOf 15 [], (up fun d => d), Status.badLength, rfl, by decide, by decide, by decide, by decide,
      by decide⟩

/-- Inputs that meet the hypotheses of `Obligations.UnknownOpcodeRefused`. -/
theorem witness_UnknownOpcodeRefused :
    (∃ (w : Window) (opcode : Nat) (r : Request) (s : State), s.dev.stopped = false ∧ (s.dev.win w.num).state ≠ .busy ∧ s.dev.hearth.state ≠ .boot ∧
      s.dev.hearth.state ≠ .recovery ∧ s.dev.windowEnabled w.num = true ∧ HdrOk s ∧ s.version w.num ≠ 0 ∧
      opcodeDefined opcode (s.version w.num) = false) :=
    ⟨.admin, 0xFFFF, reqOf 0 [], { (up fun d => d) with hdr := [(1024, 0x100)] }, by decide, by decide, by decide, by decide, by decide,
      by unfold HdrOk; decide, by decide, by decide⟩

/-- Inputs that meet the hypotheses of `Obligations.HelloNegotiatesTheHighestVersion`. -/
theorem witness_HelloNegotiatesTheHighestVersion :
    (∃ (w : Window) (r : Request) (s : State), s.dev.stopped = false ∧ (s.dev.win w.num).state ≠ .busy ∧ s.dev.hearth.state = .ready ∧
      s.dev.nvme.sanitize = none ∧ s.dev.windowEnabled w.num = true ∧ (s.dev.win w.num).tickets = [] ∧ r.len = 16 ∧ r.sglCount = 0 ∧ r.hdrRsv = 0 ∧
      r.sglAddr = 0 ∧ allZero (bytesAt r.payload 8 8) = true ∧ leAt r.payload 0 2 ≤ leAt r.payload 2 2 ∧ ∃ v, v ∈ hcpVersions ∧
      leAt r.payload 0 2 ≤ v ∧ v ≤ leAt r.payload 2 2 ∧ (∀ u ∈ hcpVersions, leAt r.payload 0 2 ≤ u → u ≤ leAt r.payload 2 2 → u ≤ v)) ∧
    (∃ (w : Window) (r : Request) (s : State), s.dev.stopped = false ∧ (s.dev.win w.num).state ≠ .busy ∧ s.dev.hearth.state = .ready ∧
      s.dev.nvme.sanitize = none ∧ s.dev.windowEnabled w.num = true ∧ (s.dev.win w.num).tickets = [] ∧ r.len = 16 ∧ r.sglCount = 0 ∧ r.hdrRsv = 0 ∧
      r.sglAddr = 0 ∧ allZero (bytesAt r.payload 8 8) = true ∧ leAt r.payload 0 2 ≤ leAt r.payload 2 2 ∧ (∀ u ∈ hcpVersions,
      ¬ (leAt r.payload 0 2 ≤ u ∧ u ≤ leAt r.payload 2 2))) :=
    ⟨⟨.admin, reqOf 16 (leBytes 2 0x100 ++ leBytes 2 0x100 ++ zeros 12), (up fun d => d), by decide, by decide, by decide, by decide, by decide,
      by decide, by decide, by decide, by decide, by decide, by decide, by decide, 0x100, by decide, by decide, by decide, by decide⟩,
     ⟨.admin, reqOf 16 (leBytes 2 0xFFFE ++ leBytes 2 0xFFFF ++ zeros 12), (up fun d => d), by decide, by decide, by decide, by decide, by decide,
      by decide, by decide, by decide, by decide, by decide, by decide, by decide, by decide⟩⟩

/-- Inputs that meet the hypotheses of `Obligations.CountersSaturate`. -/
theorem witness_CountersSaturate :
    (∃ (d : Dev) (id i n : Nat), id < 2 ^ 32 ∧ i < 2 ^ 32 ∧ d.counter id i ≤ 2 ^ 64 - 1) ∧
    (∃ (d : Dev) (id i n : Nat), id < 2 ^ 32 ∧ i < 2 ^ 32 ∧ ∃ id' i', i' < 2 ^ 32 ∧ (id', i') ≠ (id, i)) :=
    ⟨⟨Dev.init, 1, 0, 3, by decide, by decide, by decide⟩,
     ⟨Dev.init, 1, 0, 3, by decide, by decide, 1, 5, by decide, by decide⟩⟩

/-- Inputs that meet the hypotheses of `Obligations.RegisterAccesses`. -/
theorem witness_RegisterAccesses :
    (∃ (w : Window) (v : Nat) (s : State), s.dev.stopped = false) ∧
    (∃ s : State, s.dev.stopped = false) ∧
    (∃ (w : Window) (k v : Nat) (s : State), s.dev.stopped = false ∧ (s.dev.win w.num).state ≠ .busy ∧ 16 ≤ k ∧ k < 512) :=
    ⟨⟨.admin, 0, (up fun d => d), by decide⟩,
     ⟨(up fun d => d), by decide⟩,
     ⟨.admin, 511, 7, (up fun d => d), by decide, by decide, by decide, by decide⟩⟩

/-- Inputs that meet the hypotheses of `Obligations.TicketedCommandsFinish`. -/
theorem witness_TicketedCommandsFinish :
    (∃ (w : Window) (n : Nat) (k : Ticket) (s : State), s.dev.stopped = false ∧ s.dev.ticketOf w.num n 0x0106 = some k) ∧
    (∃ (w : Window) (n : Nat) (k : Ticket) (s : State), s.dev.stopped = false ∧ s.dev.ticketOf w.num n 0x0901 = some k) ∧
    (∃ (w : Window) (n : Nat) (k : Ticket) (s : State), s.dev.stopped = false ∧ s.dev.ticketOf w.num n 0x0904 = some k) ∧
    (∃ (w : Window) (n slot : Nat) (p : Prog) (s : State), s.dev.stopped = false ∧ s.dev.progOf w.num n = some (slot, p) ∧ p.state = .unloading) ∧
    (∃ (w : Window) (n slot : Nat) (v : Vocab) (s : State), s.dev.stopped = false ∧ s.dev.vocabOf w.num n = some (slot, v) ∧ v.load = some (w.num,
      n, none)) ∧
    (∃ (w : Window) (n id : Nat) (l : Log) (s : State), s.dev.stopped = false ∧ s.dev.group.logs.find? (fun p => p.2.delete == some (w.num,
      n)) = some (id, l)) ∧
    (∃ (w : Window) (n id : Nat) (l : Log) (s : State), s.dev.stopped = false ∧ s.dev.group.logs.find? (fun p => p.2.export_ == some (w.num,
      n)) = some (id, l)) ∧
    (∃ (w n : Nat) (m : Membership) (s : State), s.dev.stopped = false ∧ s.dev.group.joining = some (w, n, m) ∧
      (if m.role = 0 then s.dev.group.ptpLocked = true else s.dev.group.aligned = true ∧ s.dev.tick.resync = false)) ∧
    (∃ (w n : Nat) (m : Membership) (s : State), s.dev.stopped = false ∧ s.dev.group.joining = some (w, n, m)) ∧
    (∃ (t n : Nat) (w k : Nat) (r : Reservoir) (s : State), s.dev.stopped = false ∧ s.dev.res? (resKey t n) = some r ∧ r.state = .attaching ∧
      r.attach = some (w, k)) ∧
    (∃ (w : Window) (n : Nat) (a : Audit) (s : State), s.dev.stopped = false ∧ s.dev.tongs.audits.find? (fun a => a.ticket == some (w.num,
      n) && a.snapTick.isSome) = some a) :=
    ⟨⟨.admin, 1, ticketOf 1 0x0106, (up fun d => d.setWin 1024 { Win.init with tickets := [ticketOf 1 0x0106] }), by decide, by decide⟩,
     ⟨.admin, 1, ticketOf 1 0x0901, (up fun d => d.setWin 1024 { Win.init with tickets := [ticketOf 1 0x0901] }), by decide, by decide⟩,
     ⟨.admin, 1, ticketOf 1 0x0904, (up fun d => d.setWin 1024 { Win.init with tickets := [ticketOf 1 0x0904] }), by decide, by decide⟩,
     ⟨.admin, 1, 3, { Prog.loadingFor 0 false with state := .unloading, ticket := some (1024, 1) },
      (up fun d => { d with progs := [(3, { Prog.loadingFor 0 false with state := .unloading, ticket := some (1024, 1) })] }), by decide, by decide,
      by decide⟩,
     ⟨.admin, 1, 5, { tenant := 0, image := none, load := some (1024, 1, none) },
      (up fun d => { d with vocabs := [(5, { tenant := 0, image := none, load := some (1024, 1, none) })] }), by decide, by decide, by decide⟩,
     ⟨.admin, 1, 2, { logOf with delete := some (1024, 1) },
      (up fun d => { d with group := { d.group with logs := [(2, { logOf with delete := some (1024, 1) })] } }), by decide, by decide⟩,
     ⟨.admin, 1, 2, { logOf with export_ := some (1024, 1) },
      (up fun d => { d with group := { d.group with logs := [(2, { logOf with export_ := some (1024, 1) })] } }), by decide, by decide⟩,
     ⟨1024, 1, memberOf 2, (up fun d => { d with group := { d.group with joining := some (1024, 1, memberOf 2), aligned := true } }), by decide,
      by decide, by decide⟩,
     ⟨1024, 1, memberOf 0, (up fun d => { d with group := { d.group with joining := some (1024, 1, memberOf 0) } }), by decide, by decide⟩,
     ⟨0, 3, 0, 1, { reservoirOf with state := .attaching, attach := some (0, 1) },
      (up fun d => { d with haul := { d.haul with reservoirs := [(3, { reservoirOf with state := .attaching, attach := some (0, 1) })] } }),
      by decide, by decide, by decide, by decide⟩,
     ⟨.admin, 1, { scope := none, ticket := some (1024, 1), snapTick := some 900, entries := [] },
      (up fun d => { d with tongs := { d.tongs with audits := [{ scope := none, ticket := some (1024, 1), snapTick := some 900, entries := [] }] } }),
      by decide, by decide⟩⟩

/-- Inputs that meet the hypotheses of `Obligations.ClampTakesTheNearestLegalValue`. -/
theorem witness_ClampTakesTheNearestLegalValue :
    (∃ v lo hi step : Nat, lo ≤ hi ∧ 0 < step ∧ (hi - lo) % step = 0) :=
    ⟨777, 100, 1600, 100, by decide, by decide, by decide⟩

/-- Inputs that meet the hypotheses of `Obligations.TroubleBitsStick`. -/
theorem witness_TroubleBitsStick :
    (∃ (d : Dev) (w : TroubleWord) (i m : Nat), m < 2 ^ 32) :=
    ⟨Dev.init, .region, 0, 2 ^ 31, by decide⟩

/-- Inputs that meet the hypotheses of `Obligations.CellStoreErrors`. -/
theorem witness_CellStoreErrors :
    (∃ (cell : CellRef) (c at_ : Nat) (s : State), s.dev.stopped = false ∧ s.dev.cellOf cell = some c ∧ s.dev.unitIn .cell c = true ∧
      ((s.dev.unit .cell c).ceTicks.filter (fun t => decide (s.dev.tick.count < t + 64))).length < 255) ∧
    (∃ (cell : CellRef) (c at_ : Nat) (s : State), s.dev.stopped = false ∧ s.dev.cellOf cell = some c ∧ s.dev.unitIn .cell c = true ∧
      255 ≤ ((s.dev.unit .cell c).ceTicks.filter (fun t => decide (s.dev.tick.count < t + 64))).length ∧ s.dev.hearth.halting = false ∧
      s.dev.tick.items = [] ∧ (s.dev.block (c / 16)).lastQuar = none ∧ 13 ≤ (s.dev.cellsIn (c / 16)).length) ∧
    (∃ (block : BlockRef) (g : Nat) (s : State), s.dev.stopped = false ∧ s.dev.blockOf block = some g ∧ s.dev.blockIn g = true) ∧
    (∃ (block : BlockRef) (g sid pos op at_ : Nat) (s : State), s.dev.stopped = false ∧ s.dev.blockOf block = some g ∧ s.dev.blockIn g = true ∧
      (s.dev.itemsOn g).find? (fun i => i.job == .sample sid pos op && i.phase == .running) = none) :=
    ⟨⟨{ region := 0, block := 0, cell := 0 }, 0, 0, (up fun d => d.modUnit .cell 0 (fun x => { x with ceTicks := List.replicate 254 937 })),
      by decide, by decide, by decide, by decide⟩,
     ⟨{ region := 0, block := 0, cell := 0 }, 0, 0, (up fun d => d.modUnit .cell 0 (fun x => { x with ceTicks := List.replicate 255 937 })),
      by decide, by decide, by decide, by decide, by decide, by decide, by decide, by decide⟩,
     ⟨{ region := 0, block := 0 }, 0, (up fun d => d), by decide, by decide, by decide⟩,
     ⟨{ region := 0, block := 0 }, 0, 1, 0, 0, 0, (up fun d => d), by decide, by decide, by decide, by decide⟩⟩

/-- Inputs that meet the hypotheses of `Obligations.FirstFailureRetriesInPlace`. -/
theorem witness_FirstFailureRetriesInPlace :
    (∃ (cell : CellRef) (c at_ : Nat) (residue : Bool) (i : Item) (s : State), s.dev.stopped = false ∧ s.dev.cellOf cell = some c ∧
      s.dev.unitIn .cell c = true ∧ s.dev.tick.items.filter (fun i => i.phase == .running && i.cls == 2 && i.out.isNone && i.units.contains c) = [i] ∧
      i.retry = false ∧ ((s.dev.kindRec i.kind).map OpRec.isAnvil).getD false = false) ∧
    (∃ (block : BlockRef) (lane : Fin 4) (g at_ : Nat) (i : Item) (s : State), s.dev.stopped = false ∧ s.dev.blockOf block = some g ∧
      s.dev.unitIn .lane (g * 4 + lane.val) = true ∧ s.dev.runningOn .lane (g * 4 + lane.val) = [i] ∧ i.retry = false) ∧
    (∃ (block : BlockRef) (g at_ : Nat) (i : Item) (s : State), s.dev.stopped = false ∧ s.dev.blockOf block = some g ∧
      s.dev.unitIn .swage g = true ∧ s.dev.runningOn .swage g = [i] ∧ i.retry = false) ∧
    (∃ (block : BlockRef) (g at_ : Nat) (i : Item) (s : State), s.dev.stopped = false ∧ s.dev.blockOf block = some g ∧
      s.dev.unitIn .screen g = true ∧ s.dev.runningOn .screen g = [i] ∧ i.retry = false) ∧
    (∃ (region unit : Fin 8) (at_ : Nat) (i : Item) (s : State), s.dev.stopped = false ∧ s.dev.unitIn .wedge (region.val * 8 + unit.val) = true ∧
      s.dev.runningOn .wedge (region.val * 8 + unit.val) = [i] ∧ i.retry = false) :=
    ⟨⟨{ region := 0, block := 0, cell := 0 }, 0, 5, true, itemOf (.sample 1 0 1) 2 [0],
      (up fun d => { d with tick := { d.tick with items := [itemOf (.sample 1 0 1) 2 [0]] } }), by decide, by decide, by decide, by decide, by decide,
      by decide⟩,
     ⟨{ region := 0, block := 0 }, 0, 0, 5, itemOf (.sample 1 0 1) 1 [0],
      (up fun d => { d with tick := { d.tick with items := [itemOf (.sample 1 0 1) 1 [0]] } }), by decide, by decide, by decide, by decide, by decide⟩,
     ⟨{ region := 0, block := 0 }, 0, 5, itemOf (.sample 1 0 1) 5 [0],
      (up fun d => { d with tick := { d.tick with items := [itemOf (.sample 1 0 1) 5 [0]] } }), by decide, by decide, by decide, by decide, by decide⟩,
     ⟨{ region := 0, block := 0 }, 0, 5, { itemOf (.sample 1 0 1) 5 [0] with kind := 1 },
      (up fun d => { d with progs := [(0, { Prog.loadingFor 0 false with ops := [opOf 0x0501] })], tick := { d.tick with items := [{ itemOf (.sample 1 0 1) 5 [0] with kind := 1 }] } }),
      by decide, by decide, by decide, by decide, by decide⟩,
     ⟨0, 0, 5, itemOf (.sample 1 0 1) 6 [0], (up fun d => { d with tick := { d.tick with items := [itemOf (.sample 1 0 1) 6 [0]] } }), by decide,
      by decide, by decide, by decide⟩⟩

/-- Inputs that meet the hypotheses of `Obligations.RegionResetsAndRehoming`. -/
theorem witness_RegionResetsAndRehoming :
    (∃ (r : Fin 8) (s : State), s.dev.stopped = false ∧ s.dev.hearth.halting = false ∧ s.dev.regionIn r.val = true ∧
      (s.dev.region r.val).resetting = false ∧ (s.dev.region r.val).lastResetDone = none) ∧
    (∃ (r : Fin 8) (s : State), s.dev.stopped = false ∧ (s.dev.region r.val).resetting = true) ∧
    (∃ (r : Fin 8) (s : State), s.dev.stopped = false ∧ s.dev.regionIn r.val = true) ∧
    (∃ (r : Fin 8) (sid q k : Nat) (st : Stream) (s : State), s.dev.stopped = false ∧ (s.dev.region r.val).fenced = true ∧
      (s.dev.region r.val).hbmLost = false ∧ s.dev.homedIn r.val = [(sid, st)] ∧ s.dev.chooseHome = some (q, k)) ∧
    (∃ (r : Fin 8) (s : State), s.dev.stopped = false ∧
      ((s.dev.region r.val).fenced = false ∨ (s.dev.region r.val).hbmLost = true ∨ s.dev.homedIn r.val = [])) :=
    ⟨⟨7, (up fun d => d), by decide, by decide, by decide, by decide, by decide⟩,
     ⟨7, (up fun d => d.modRegion 7 (fun x => { x with resetting := true })), by decide, by decide⟩,
     ⟨7, (up fun d => d), by decide, by decide⟩,
     ⟨2, 9, 0, 0, { streamOf with home := 2, state := .rehoming },
      (up fun d => { d.modRegion 2 (fun x => { x with fenced := true }) with streams := [(9, { streamOf with home := 2, state := .rehoming })] }),
      by decide, by decide, by decide, by decide, by decide⟩,
     ⟨2, (up fun d => d), by decide, by decide⟩⟩

/-- Inputs that meet the hypotheses of `Obligations.RegionFences`. -/
theorem witness_RegionFences :
    (∃ (r : Fin 8) (lost : Bool) (s : State), s.dev.stopped = false ∧ s.dev.hearth.halting = false ∧ (∀ q, q < 8 → s.dev.regionIn q = true) ∧
      s.dev.tick.items = [] ∧ s.dev.streams = [] ∧ s.dev.tenants = [] ∧ s.dev.progs = [] ∧ s.dev.vocabs = [] ∧ s.dev.screen.tables = [] ∧
      s.dev.face.extents = [] ∧ s.dev.face.granules = [] ∧ (lost = false → (s.dev.region r.val).resetting = true)) :=
    ⟨3, true, (up fun d => d), by decide, by decide, by decide, by decide, by decide, by decide, by decide, by decide, by decide, by decide,
      by decide, by decide⟩

/-- Inputs that meet the hypotheses of `Obligations.ChipFaults`. -/
theorem witness_ChipFaults :
    (∃ (core : Fin 8) (s : State), s.dev.stopped = false ∧ core.val ∈ s.dev.hearth.cores ∧
      (s.dev.hearth.cores.filter (fun c => c != core.val)) ≠ []) ∧
    (∃ (core : Fin 8) (s : State), s.dev.stopped = false ∧ s.dev.hearth.cores = [core.val]) ∧
    (∃ s : State, s.dev.stopped = false) :=
    ⟨⟨7, (up fun d => d), by decide, by decide, by decide⟩,
     ⟨7, (up fun d => { d with hearth := { d.hearth with cores := [7] } }), by decide, by decide⟩,
     ⟨(up fun d => d), by decide⟩⟩

/-- Inputs that meet the hypotheses of `Obligations.NvmeQueues`. -/
theorem witness_NvmeQueues :
    (∃ (c : NvmeRequest) (s : State), ServesAdmin s c ∧ AMap.has s.dev.nvme.cqs (queueId c) = false ∧ 1 ≤ queueId c ∧
      queueId c ≤ s.dev.nvme.numQueues ∧ 2 ≤ queueSize c ∧ queueSize c ≤ 4096 ∧ c.cdw11 / 65536 % 65536 < 65) ∧
    (∃ (c : NvmeRequest) (s : State), ServesAdmin s c ∧ AMap.has s.dev.nvme.cqs (c.cdw11 / 65536 % 65536) = true ∧
      AMap.has s.dev.nvme.sqs (queueId c) = false ∧ 1 ≤ queueId c ∧ queueId c ≤ s.dev.nvme.numQueues ∧ 2 ≤ queueSize c ∧ queueSize c ≤ 4096) ∧
    (∃ (c : NvmeRequest) (s : State), ServesAdmin s c ∧ AMap.has s.dev.nvme.cqs (c.cdw10 % 65536) = true ∧
      s.dev.nvme.sqs.all (fun p => p.2.cq != c.cdw10 % 65536) = true) ∧
    (∃ (c : NvmeRequest) (s : State), ServesAdmin s c ∧ AMap.has s.dev.nvme.sqs (c.cdw10 % 65536) = true ∧
      s.dev.nvme.cmds.all (fun x => x.sq != c.cdw10 % 65536) = true) :=
    ⟨⟨{ nvmeOf with cdw10 := 1 + 65536 * 1, cdw11 := 64 * 65536 }, (up fun d => { d with nvme := { d.nvme with ccEn := true } }), ⟨by decide,
      by decide, by decide⟩, by decide, by decide, by decide, by decide, by decide, by decide⟩,
     ⟨{ nvmeOf with cdw10 := 64 + 65536 * 4095, cdw11 := 1 * 65536 }, (up fun d => { d with nvme := { d.nvme with ccEn := true, cqs := [(1, 2)] } }),
      ⟨by decide, by decide, by decide⟩, by decide, by decide, by decide, by decide, by decide, by decide⟩,
     ⟨{ nvmeOf with cdw10 := 1 }, (up fun d => { d with nvme := { d.nvme with ccEn := true, cqs := [(1, 2)] } }), ⟨by decide, by decide, by decide⟩,
      by decide, by decide⟩,
     ⟨{ nvmeOf with cdw10 := 1 }, (up fun d => { d with nvme := { d.nvme with ccEn := true, sqs := [(1, { size := 2, cq := 1 })] } }), ⟨by decide,
      by decide, by decide⟩, by decide, by decide⟩⟩

/-- Inputs that meet the hypotheses of `Obligations.NvmeAdminCommands`. -/
theorem witness_NvmeAdminCommands :
    (∃ (c : NvmeRequest) (s : State), ServesAdmin s c ∧ c.cdw10 % 256 = 1) ∧
    (∃ (c : NvmeRequest) (s : State), ServesAdmin s c ∧ c.cdw10 % 256 = 3 ∧ c.cdw10 / 65536 % 65536 = 127 ∧ c.cdw11 % 65536 = 0 ∧ c.cdw12 = 0 ∧
      c.cdw13 = 0) ∧
    (∃ (c : NvmeRequest) (s : State), ServesAdmin s c ∧
      s.dev.nvme.cmds.all (fun x => !(x.sq == c.cdw10 % 65536 && x.cid == c.cdw10 / 65536 % 65536)) = true) ∧
    (∃ (c : NvmeRequest) (s : State), ServesAdmin s c ∧ bitOf c.cdw10 31 = false ∧ c.cdw10 % 256 = 0x0B) ∧
    (∃ (c : NvmeRequest) (s : State), ServesAdmin s c ∧ bitField c.cdw10 8 3 = 0 ∧ c.cdw10 % 256 = 0x0B) ∧
    (∃ (c : NvmeRequest) (s : State), ServesAdmin s c ∧ s.dev.nvme.events = [] ∧ s.dev.nvme.aers = []) ∧
    (∃ (c : NvmeRequest) (s : State), ServesAdmin s c ∧ (c.cdw10 % 16 = 1 ∨ c.cdw10 % 16 = 2) ∧ s.dev.nvme.test = none) ∧
    (∃ (c : NvmeRequest) (s : State), ServesAdmin s c ∧ s.dev.nvme.sanitize = none ∧ (c.cdw10 % 8 = 2 ∨ c.cdw10 % 8 = 4)) ∧
    (∃ (c : NvmeRequest) (s : State), ServesAdmin s c) :=
    ⟨⟨{ nvmeOf with cdw10 := 1 }, (up fun d => { d with nvme := { d.nvme with ccEn := true } }), ⟨by decide, by decide, by decide⟩, by decide⟩,
     ⟨{ nvmeOf with cdw10 := 3 + 127 * 65536 }, (up fun d => { d with nvme := { d.nvme with ccEn := true } }), ⟨by decide, by decide, by decide⟩,
      by decide, by decide, by decide, by decide, by decide⟩,
     ⟨{ nvmeOf with cdw10 := 1 + 7 * 65536 }, (up fun d => { d with nvme := { d.nvme with ccEn := true } }), ⟨by decide, by decide, by decide⟩,
      by decide⟩,
     ⟨{ nvmeOf with cdw10 := 0x0B, cdw11 := 0x1FF }, (up fun d => { d with nvme := { d.nvme with ccEn := true } }), ⟨by decide, by decide,
      by decide⟩, by decide, by decide⟩,
     ⟨{ nvmeOf with cdw10 := 0x0B }, (up fun d => { d with nvme := { d.nvme with ccEn := true } }), ⟨by decide, by decide, by decide⟩, by decide,
      by decide⟩,
     ⟨nvmeOf, (up fun d => { d with nvme := { d.nvme with ccEn := true } }), ⟨by decide, by decide, by decide⟩, by decide, by decide⟩,
     ⟨{ nvmeOf with cdw10 := 2 }, (up fun d => { d with nvme := { d.nvme with ccEn := true } }), ⟨by decide, by decide, by decide⟩, by decide,
      by decide⟩,
     ⟨{ nvmeOf with cdw10 := 4 }, (up fun d => { d with nvme := { d.nvme with ccEn := true } }), ⟨by decide, by decide, by decide⟩, by decide,
      by decide⟩,
     ⟨nvmeOf, (up fun d => { d with nvme := { d.nvme with ccEn := true } }), ⟨by decide, by decide, by decide⟩⟩⟩

/-- Inputs that meet the hypotheses of `Obligations.NvmeIoCommands`. -/
theorem witness_NvmeIoCommands :
    (∃ (c : NvmeRequest) (s : State), ServesIo s c ∧ c.nsid = 1 ∧ c.lba % 4 = 0 ∧ c.blocks = 4 ∧ c.lba + 4 ≤ s.dev.nsSize 1 ∧ s.dev.nvme.cmds = [] ∧
      s.dev.dirtyRoom 16384 = true ∧ AMap.get? s.dev.face.granules (c.lba / 4) = none ∧ c.data.length = 16384) ∧
    (∃ (c : NvmeRequest) (s : State), ServesIo s c ∧ c.nsid = 1 ∧ c.blocks ≤ 512 ∧ c.lba + c.blocks ≤ s.dev.nsSize 1 ∧
      (∀ g ∈ granulesOf c.lba c.blocks, AMap.get? s.dev.face.granules g = none)) ∧
    (∃ (c : NvmeRequest) (s : State), ServesIo s c ∧ c.nsid = 1) ∧
    (∃ (c : NvmeRequest) (s : State), ServesIo s c ∧ c.nsid = 1 ∧ c.lba % 4 = 0 ∧ c.blocks = 4 ∧ c.lba + 4 ≤ s.dev.nsSize 1 ∧
      bitOf c.cdw12 25 = true ∧ AMap.has s.dev.face.granules (c.lba / 4) = true) ∧
    (∃ (c : NvmeRequest) (s : State) (g : Nat), ServesIo s c ∧ c.nsid = 1 ∧ bitOf c.cdw11 2 = true ∧ c.cdw10 % 256 = 0 ∧ leAt c.data 8 8 = 4 * g ∧
      leAt c.data 4 4 = 4 ∧ 4 * g + 4 ≤ s.dev.nsSize 1) :=
    ⟨⟨{ nvmeOf with sq := 1, nsid := 1, cdw12 := 3, data := zeros 16384 },
      (up fun d => { d with face := { d.face with dies := (List.range 64).map (fun k => (k, { state := .inService, blocks := [] })) }, nvme := { d.nvme with ccEn := true, sqs := [(1, { size := 2, cq := 1 })] } }),
      ⟨by decide, by decide, by decide, by decide⟩, by decide, by decide, by decide, by decide, by decide, by decide, by decide, by decide⟩,
     ⟨{ nvmeOf with sq := 1, nsid := 1, cdw12 := 511 },
      (up fun d => { d with face := { d.face with dies := (List.range 64).map (fun k => (k, { state := .inService, blocks := [] })) }, nvme := { d.nvme with ccEn := true, sqs := [(1, { size := 2, cq := 1 })] } }),
      ⟨by decide, by decide, by decide, by decide⟩, by decide, by decide, by decide, by decide⟩,
     ⟨{ nvmeOf with sq := 1, nsid := 1 },
      (up fun d => { d with face := { d.face with dies := (List.range 64).map (fun k => (k, { state := .inService, blocks := [] })) }, nvme := { d.nvme with ccEn := true, sqs := [(1, { size := 2, cq := 1 })] } }),
      ⟨by decide, by decide, by decide, by decide⟩, by decide⟩,
     ⟨{ nvmeOf with sq := 1, nsid := 1, cdw12 := 3 + 2 ^ 25 },
      (up fun d => { d with face := { d.face with dies := (List.range 64).map (fun k => (k, { state := .inService, blocks := [] })), granules := [(0, { data := [], unreadable := false, buffered := true, flushed := false, spn := 0 })] }, nvme := { d.nvme with ccEn := true, sqs := [(1, { size := 2, cq := 1 })] } }),
      ⟨by decide, by decide, by decide, by decide⟩, by decide, by decide, by decide, by decide, by decide, by decide⟩,
     ⟨{ nvmeOf with sq := 1, nsid := 1, cdw11 := 4, data := zeros 4 ++ leBytes 4 4 ++ leBytes 8 8 },
      (up fun d => { d with face := { d.face with dies := (List.range 64).map (fun k => (k, { state := .inService, blocks := [] })) }, nvme := { d.nvme with ccEn := true, sqs := [(1, { size := 2, cq := 1 })] } }),
      2, ⟨by decide, by decide, by decide, by decide⟩, by decide, by decide, by decide, by decide, by decide, by decide⟩⟩

/-- Inputs that meet the hypotheses of `Obligations.NvmeControllerEvents`. -/
theorem witness_NvmeControllerEvents :
    (∃ s : State, s.dev.stopped = false) ∧
    (∃ s : State, s.dev.stopped = false ∧ s.dev.nvmeReady = true ∧ s.dev.nvme.apste = true ∧ s.dev.nvme.cmds = [] ∧ s.dev.nvme.test = none ∧
      apstTime (s.dev.nvme.apst.getD s.dev.bellows.storageReq.code 0) ≠ 0) ∧
    (∃ (k : SelfTest) (die : Option Nat) (s : State), s.dev.stopped = false ∧ s.dev.nvme.test = some k ∧ k.suspended = false) ∧
    (∃ s : State, s.dev.stopped = false ∧ s.dev.nvme.test = none) :=
    ⟨⟨(up fun d => d), by decide⟩,
     ⟨(up fun d => { d with nvme := { d.nvme with ccEn := true, apste := true, apst := List.replicate 32 0x108 } }), by decide, by decide, by decide,
      by decide, by decide, by decide⟩,
     ⟨{ code := 1, segment := 1, suspended := false }, none,
      (up fun d => { d with nvme := { d.nvme with test := some { code := 1, segment := 1, suspended := false } } }), by decide, by decide, by decide⟩,
     ⟨(up fun d => d), by decide, by decide⟩⟩

/-- Inputs that meet the hypotheses of `Obligations.MctpEndpoint`. -/
theorem witness_MctpEndpoint :
    (∃ (p : MctpPacket) (s : State), s.dev.stopped = false ∧ s.dev.mctpMine p = true ∧ p.pecOk = true ∧ isControl p 1 = true ∧ p.body.length = 5 ∧
      leAt p.body 3 1 % 4 ≤ 1 ∧ 8 ≤ leAt p.body 4 1 ∧ leAt p.body 4 1 ≠ 255) ∧
    (∃ (p : MctpPacket) (s : State), s.dev.stopped = false ∧ s.dev.mctpMine p = true ∧ p.pecOk = true ∧ isControl p 2 = true ∧ p.body.length = 3) ∧
    (∃ (p : MctpPacket) (s : State), s.dev.stopped = false ∧ s.dev.mctpMine p = true ∧ p.pecOk = true ∧ isControl p 4 = true ∧ p.body.length = 4 ∧
      leAt p.body 3 1 = 0x7F) ∧
    (∃ (p : MctpPacket) (s : State), s.dev.stopped = false ∧ s.dev.mctpMine p = true ∧ p.pecOk = true ∧ isControl p 5 = true ∧ p.body.length = 3) ∧
    (∃ (p : MctpPacket) (s : State), s.dev.stopped = false ∧ s.dev.mctpMine p = true ∧ p.pecOk = true ∧ isControl p 6 = true ∧ p.body.length = 4 ∧
      leAt p.body 3 1 = 0) ∧
    (∃ (p : MctpPacket) (s : State), s.dev.stopped = false ∧ s.dev.mctpMine p = true ∧ p.pecOk = false) ∧
    (∃ (a : Nat) (s : State), s.dev.stopped = false ∧ s.dev.side.mctp.dynAddr = none) ∧
    (∃ (a b : Nat) (s : State), s.dev.stopped = false ∧ s.dev.side.mctp.dynAddr = some b) ∧
    (∃ s : State, s.dev.stopped = false) :=
    ⟨⟨mctpOf ([0, 0x80, 1] ++ [0, 0xFE]), (up fun d => d), by decide, by decide, by decide, by decide, by decide, by decide, by decide, by decide⟩,
     ⟨mctpOf ([0, 0x80, 2] ++ []), (up fun d => d), by decide, by decide, by decide, by decide, by decide⟩,
     ⟨mctpOf ([0, 0x80, 4] ++ [0x7F]), (up fun d => d), by decide, by decide, by decide, by decide, by decide, by decide⟩,
     ⟨mctpOf ([0, 0x80, 5] ++ []), (up fun d => d), by decide, by decide, by decide, by decide, by decide⟩,
     ⟨mctpOf ([0, 0x80, 6] ++ [0]), (up fun d => d), by decide, by decide, by decide, by decide, by decide, by decide⟩,
     ⟨{ mctpOf [] with pecOk := false }, (up fun d => d), by decide, by decide, by decide⟩,
     ⟨0x42, (up fun d => d), by decide, by decide⟩,
     ⟨1, 0x42, (up fun d => { d with side := { d.side with mctp := { d.side.mctp with dynAddr := some 0x42 } } }), by decide, by decide⟩,
     ⟨(up fun d => d), by decide⟩⟩

/-- Inputs that meet the hypotheses of `Obligations.VendorMessages`. -/
theorem witness_VendorMessages :
    (∃ (p : MctpPacket) (s : State), s.dev.stopped = false ∧ s.dev.mctpMine p = true ∧ p.pecOk = true ∧ p.tagOwner = true ∧ p.som = true ∧
      p.eom = true ∧ p.body.length = 9 ∧ leAt p.body 0 1 = 0x7F ∧ beAt p.body 1 4 = 0xD1B7 ∧ leAt p.body 7 2 = 0 ∧ s.dev.side.mctp.assembly = none ∧
      s.dev.hearth.state = .ready ∧ s.dev.nvme.sanitize = none ∧ leAt p.body 5 2 = 0x0104 ∧ 0x0100 ≤ s.version 1025) ∧
    (∃ (p : MctpPacket) (s : State), s.dev.stopped = false ∧ s.dev.mctpMine p = true ∧ p.pecOk = true ∧ p.tagOwner = true ∧ p.som = true ∧
      p.eom = true ∧ p.body.length = 9 ∧ leAt p.body 0 1 = 0x7F ∧ beAt p.body 1 4 = 0xD1B7 ∧ leAt p.body 7 2 = 0 ∧ s.dev.side.mctp.assembly = none ∧
      s.dev.hearth.state = .ready ∧ s.dev.nvme.sanitize = none ∧ sideCmd (leAt p.body 5 2) = none) :=
    ⟨⟨mctpOf [0x7F, 0, 0, 0xD1, 0xB7, 0x04, 0x01, 0, 0], { (up fun d => d) with hdr := [(1025, 0x100)] }, by decide, by decide, by decide, by decide,
      by decide, by decide, by decide, by decide, by decide, by decide, by decide, by decide, by decide, by decide, by decide⟩,
     ⟨mctpOf [0x7F, 0, 0, 0xD1, 0xB7, 0xFF, 0xFF, 0, 0], (up fun d => d), by decide, by decide, by decide, by decide, by decide, by decide,
      by decide, by decide, by decide, by decide, by decide, by decide, by decide, by decide⟩⟩

/-- Inputs that meet the hypotheses of `Obligations.RecoveryPortCommands`. -/
theorem witness_RecoveryPortCommands :
    (∃ s : State, s.dev.stopped = false ∧ s.dev.hearth.state = .recovery ∧ s.dev.side.recov.busy = false) ∧
    (∃ s : State, s.dev.stopped = false ∧ s.dev.hearth.state = .recovery ∧ s.dev.side.recov.busy = false ∧ s.dev.recArg ≤ 1) ∧
    (∃ s : State, s.dev.stopped = false ∧ s.dev.side.recov.busy = false ∧ s.dev.recArg = 0) ∧
    (∃ (code : Nat) (s : State), s.dev.stopped = false ∧ s.dev.side.recov.busy = false ∧ ¬ (1 ≤ code % 256 ∧ code % 256 ≤ 6)) ∧
    (∃ s : State, s.dev.stopped = false) :=
    ⟨⟨(up fun d => { d with hearth := { d.hearth with state := .recovery } }), by decide, by decide, by decide⟩,
     ⟨(up fun d => { d with hearth := { d.hearth with state := .recovery }, side := { d.side with recov := { d.side.recov with args := [1, 0, 0, 0] } } }),
      by decide, by decide, by decide, by decide⟩,
     ⟨(up fun d => d), by decide, by decide, by decide⟩,
     ⟨7, (up fun d => d), by decide, by decide, by decide⟩,
     ⟨(up fun d => d), by decide⟩⟩

/-- Inputs that meet the hypotheses of `Obligations.JtagInstructions`. -/
theorem witness_JtagInstructions :
    (∃ (b : List Bool) (s : State), (s.dev.hearth.state = .boot ∨ s.dev.hearth.state = .recovery)) ∧
    (∃ (b : List Bool) (s : State), s.dev.hearth.state ≠ .boot ∧ s.dev.hearth.state ≠ .recovery) :=
    ⟨⟨[true], State.reset, by decide⟩,
     ⟨[true], (up fun d => d), by decide, by decide⟩⟩

/-- Inputs that meet the hypotheses of `Obligations.SlumberIsEnteredAndLeft`. -/
theorem witness_SlumberIsEnteredAndLeft :
    (∃ s : State, s.dev.stopped = false ∧ s.dev.powerTarget = .slumber ∧ s.dev.quiet = true ∧ s.dev.bellows.slumber = false ∧
      s.dev.bellows.inForce ≠ .slumber ∧ (s.dev.hearth.state = .ready ∨ s.dev.hearth.state = .hold)) ∧
    (∃ s : State, s.dev.stopped = false ∧ (s.dev.powerTarget ≠ .slumber ∨ s.dev.quiet = false)) ∧
    (∃ s : State, s.dev.stopped = false ∧ s.dev.bellows.slumber = true) ∧
    (∃ s : State, s.dev.stopped = false ∧ s.dev.bellows.slumber = true ∧
      (s.dev.bellows.wake = true ∨ s.dev.quiet = false ∨ s.dev.powerTarget ≠ .slumber)) ∧
    (∃ s : State, s.dev.stopped = false ∧ s.dev.bellows.exiting = true) :=
    ⟨⟨(up fun d => { d with bellows := { d.bellows with adminReq := .slumber, storageReq := .slumber } }), by decide, by decide, by decide,
      by decide, by decide, by decide⟩,
     ⟨(up fun d => d), by decide, by decide⟩,
     ⟨(up fun d => { d with bellows := { d.bellows with slumber := true } }), by decide, by decide⟩,
     ⟨(up fun d => { d with bellows := { d.bellows with slumber := true, wake := true } }), by decide, by decide, by decide⟩,
     ⟨(up fun d => { d with bellows := { d.bellows with exiting := true } }), by decide, by decide⟩⟩

/-- Inputs that meet the hypotheses of `Obligations.DroopEpisodes`. -/
theorem witness_DroopEpisodes :
    (∃ (b : BlockRef) (g : Nat) (s : State), s.dev.stopped = false ∧ s.dev.blockOf b = some g ∧ s.dev.blockIn g = true ∧
      (s.dev.block g).drooped = false ∧ s.dev.bellows.stretches ≠ 256) ∧
    (∃ (b : BlockRef) (g : Nat) (s : State), s.dev.stopped = false ∧ s.dev.blockOf b = some g ∧ s.dev.blockIn g = true ∧
      (s.dev.block g).drooped = false ∧ s.dev.bellows.stretches = 256) ∧
    (∃ (b : BlockRef) (g : Nat) (s : State), s.dev.stopped = false ∧ s.dev.blockOf b = some g ∧ (s.dev.block g).drooped = true) ∧
    (∃ (s : State) (c t : Nat), s.dev.stopped = false ∧ s.dev.bellows.droop = some (c, t) ∧ t ≤ s.dev.tick.count) ∧
    (∃ (u : Nat) (s : State), s.dev.stopped = false) :=
    ⟨⟨{ region := 0, block := 0 }, 0, (up fun d => d), by decide, by decide, by decide, by decide, by decide⟩,
     ⟨{ region := 0, block := 0 }, 0, (up fun d => { d with bellows := { d.bellows with stretches := 256 } }), by decide, by decide, by decide,
      by decide, by decide⟩,
     ⟨{ region := 0, block := 0 }, 0, (up fun d => d.modBlock 0 (fun x => { x with drooped := true })), by decide, by decide, by decide⟩,
     ⟨(up fun d => { d with bellows := { d.bellows with droop := some (1, 1000) } }), 1, 1000, by decide, by decide, by decide⟩,
     ⟨0, (up fun d => d), by decide⟩⟩

/-- Inputs that meet the hypotheses of `Obligations.HoldupTests`. -/
theorem witness_HoldupTests :
    (∃ s : State, s.dev.stopped = false ∧ s.dev.testCanStart = true) ∧
    (∃ s : State, s.dev.stopped = false ∧ s.dev.bellows.test = none ∧ s.dev.bellows.bankMv < 4000) ∧
    (∃ (dt v2 v1 k : Nat) (s : State), s.dev.stopped = false ∧ s.dev.bellows.test = some { ticket := none, v1 := v1, tick := k } ∧ v2 < v1 ∧
      dt ≤ 1000000) ∧
    (∃ (v1 k : Nat) (s : State), s.dev.stopped = false ∧ s.dev.bellows.test = some { ticket := none, v1 := v1, tick := k }) :=
    ⟨⟨(up fun d => { d with bellows := { d.bellows with bankMv := 5000, vFull := 5000 } }), by decide, by decide⟩,
     ⟨(up fun d => { d with bellows := { d.bellows with bankMv := 3999 } }), by decide, by decide, by decide⟩,
     ⟨1000000, 39, 40, 900, (up fun d => { d with bellows := { d.bellows with test := some { ticket := none, v1 := 40, tick := 900 } } }), by decide,
      by decide, by decide, by decide⟩,
     ⟨40, 900, (up fun d => { d with bellows := { d.bellows with test := some { ticket := none, v1 := 40, tick := 900 } } }), by decide, by decide⟩⟩

/-- Inputs that meet the hypotheses of `Obligations.GainsFollowMeasurement`. -/
theorem witness_GainsFollowMeasurement :
  (∃ (reads : List (Option (Nat × Nat))) (s : State) (r : Nat) (x : Rail) (mv ma : Nat), s.dev.stopped = false ∧ s.dev.bellows.rails[r]? = some x ∧
      reads[r]? = some (some (mv, ma))) ∧
  (∃ (reads : List (Option (Nat × Nat))) (s : State) (r : Nat) (x : Rail), s.dev.stopped = false ∧ s.dev.bellows.rails[r]? = some x ∧ reads[r]? = some none) ∧
  (∃ (s : State) (r : Nat) (x : Rail), s.dev.stopped = false ∧ s.dev.bellows.rails.length = 20 ∧ s.dev.bellows.rails[r]? = some x ∧
    (x.window.take 10).foldl (fun a e => a + e.2) (0 : Rat) ≠ 0)
  := ⟨⟨[some (12000, 5000)], up fun d => d, 0, Rail.init, 12000, 5000, by decide, by decide, by decide⟩,
      ⟨[none], up fun d => d, 0, Rail.init, by decide, by decide, by decide⟩,
      ⟨up fun d => { d with bellows := { d.bellows with rails := List.replicate 20 { Rail.init with window := [(1, 1)] } } }, 19,
        { Rail.init with window := [(1, 1)] }, by decide, by decide, by decide, by norm_num⟩⟩

/-- Inputs that meet the hypotheses of `Obligations.StopsOfTheClocks`. -/
theorem witness_StopsOfTheClocks :
    (∃ (die sensor : Nat) (s : State), s.dev.boot.held = 0 ∧ s.dev.bellows.tripped = false) ∧
    (∃ (rail : Nat) (s : State), s.dev.boot.held ≠ 1 ∧ s.dev.boot.held ≠ 3) ∧
    (∃ s : State, s.dev.face.pfailLow = false ∧ s.dev.stopped = false ∧ s.dev.bellows.test = none ∧ s.dev.hearth.state ≠ .boot) ∧
    (∃ s : State, s.dev.face.pfailLow = false ∧ s.dev.stopped = false ∧ s.dev.bellows.test = none ∧ s.dev.hearth.state = .boot) ∧
    (∃ (f : BringupFound) (s : State), s.dev.face.flushing = true ∧ s.dev.face.pfailLow = true ∧ s.dev.endWrites.face.pfailLow = true) ∧
    (∃ (i : Instr) (s : State), s.dev.stopped = true ∧ (i = .slumberEntry ∨ i = .lpoClkLoss ∨ i = .gainUpdate)) :=
    ⟨⟨8, 1, (up fun d => d), by decide, by decide⟩,
     ⟨3, (up fun d => d), by decide, by decide⟩,
     ⟨(up fun d => d), by decide, by decide, by decide, by decide⟩,
     ⟨State.reset, by decide, by decide, by decide, by decide⟩,
     ⟨foundNone, (up fun d => { d with face := { d.face with pfailLow := true, flushing := true } }), by decide, by decide, by decide⟩,
     ⟨.gainUpdate, (up fun d => { d with boot := { d.boot with held := 1 } }), by decide, by decide⟩⟩

/-- Inputs that meet the hypotheses of `Obligations.ResetsBringTheDeviceUp`. -/
theorem witness_ResetsBringTheDeviceUp :
    (∃ (f : BringupFound) (s : State), s.dev.boot.forced = true ∧ s.dev.hearth.state ≠ .recovery) ∧
    (∃ (f : BringupFound) (s : State), s.dev.boot.held ≠ 3 ∧ s.dev.face.pfailLow = false) ∧
    (∃ (f : BringupFound) (s : State), s.dev.stopped = false) ∧
    (∃ (f : BringupFound) (s : State), s.dev.stopped = false ∧ s.dev.side.recov.busy = false ∧ s.dev.recArg = forceKey) ∧
    (∃ (f : BringupFound) (s : State), s.dev.stopped = false ∧ s.dev.side.recov.busy = false ∧ s.dev.hearth.state = .recovery) ∧
    (∃ (failed : List (Nat × Nat)) (e : Bool) (s : State), s.dev.stopped = false ∧ s.dev.nvme.sanitize = some e) :=
    ⟨⟨foundNone, (up fun d => { d with boot := { d.boot with forced := true } }), by decide, by decide⟩,
     ⟨foundNone, (up fun d => d), by decide, by decide⟩,
     ⟨foundNone, (up fun d => d), by decide⟩,
     ⟨foundNone, (up fun d => { d with side := { d.side with recov := { d.side.recov with args := [0x52454356, 0, 0, 0] } } }), by decide, by decide,
      by decide⟩,
     ⟨foundNone, (up fun d => { d with hearth := { d.hearth with state := .recovery } }), by decide, by decide, by decide⟩,
     ⟨[], true, (up fun d => { d with nvme := { d.nvme with sanitize := some true } }), by decide, by decide⟩⟩

/-- Inputs that meet the hypotheses of `Obligations.BufferAllocation`. -/
theorem witness_BufferAllocation :
    (∃ (region : Fin 8) (len tenant cls i : Nat) (l : Pool) (s : State), s.dev.stopped = false ∧ 0 < len ∧ len ≤ 16777216 ∧
      s.dev.regionIn region.val = true ∧ s.dev.poolTake region.val (poolFor len) = some (i, l)) ∧
    (∃ (region : Fin 8) (len tenant cls : Nat) (s : State), s.dev.stopped = false ∧ 0 < len ∧ len ≤ 16777216 ∧
      s.dev.allocBuf region.val len tenant cls = none) :=
    ⟨⟨0, 16777216, 0, 1, 0, { fresh := 1, freed := [] }, (up fun d => d), by decide, by decide, by decide, by decide, by decide⟩,
     ⟨0, 16777216, 0, 1, (up fun d => { d with tongs := { d.tongs with poolMiB := [0, 0, 0, 0] } }), by decide, by decide, by decide, by decide⟩⟩

/-- Inputs that meet the hypotheses of `Obligations.BufferReferences`. -/
theorem witness_BufferReferences :
    (∃ (h cls tenant : Nat) (b : BufRec) (s : State), s.dev.stopped = false ∧ s.dev.handleOk h = true ∧ AMap.get? s.dev.tongs.bufs h = some b ∧
      b.freed = false ∧ b.ownerTenant = tenant ∧ b.refcount ≠ 65535) ∧
    (∃ (h cls tenant : Nat) (b : BufRec) (s : State), s.dev.stopped = false ∧ s.dev.handleOk h = true ∧ AMap.get? s.dev.tongs.bufs h = some b ∧
      b.freed = false ∧ 1 < b.refcount) ∧
    (∃ (h cls tenant : Nat) (b : BufRec) (s : State), s.dev.stopped = false ∧ s.dev.handleOk h = true ∧ AMap.get? s.dev.tongs.bufs h = some b ∧
      b.freed = false ∧ b.refcount = 1 ∧ s.dev.tongs.waiting = []) ∧
    (∃ (h cls tenant : Nat) (b : BufRec) (s : State), s.dev.stopped = false ∧ s.dev.handleOk h = true ∧ AMap.get? s.dev.tongs.bufs h = some b ∧
      b.freed = true) :=
    ⟨⟨0, 1, 0, { allocTick := 0, refcount := 65534, freed := false, ownerClass := 1, ownerTenant := 0, length := 100 },
      (up fun d => { d with tongs := { d.tongs with bufs := [(0, { allocTick := 0, refcount := 65534, freed := false, ownerClass := 1, ownerTenant := 0, length := 100 })] } }),
      by decide, by decide, by decide, by decide, by decide, by decide⟩,
     ⟨0, 1, 0, { allocTick := 0, refcount := 2, freed := false, ownerClass := 1, ownerTenant := 0, length := 100 },
      (up fun d => { d with tongs := { d.tongs with bufs := [(0, { allocTick := 0, refcount := 2, freed := false, ownerClass := 1, ownerTenant := 0, length := 100 })] } }),
      by decide, by decide, by decide, by decide, by decide⟩,
     ⟨0, 1, 0, { allocTick := 0, refcount := 1, freed := false, ownerClass := 1, ownerTenant := 0, length := 100 },
      (up fun d => { d with tongs := { d.tongs with bufs := [(0, { allocTick := 0, refcount := 1, freed := false, ownerClass := 1, ownerTenant := 0, length := 100 })] } }),
      by decide, by decide, by decide, by decide, by decide, by decide⟩,
     ⟨0, 1, 0, { allocTick := 0, refcount := 0, freed := true, ownerClass := 1, ownerTenant := 0, length := 100 },
      (up fun d => { d with tongs := { d.tongs with bufs := [(0, { allocTick := 0, refcount := 0, freed := true, ownerClass := 1, ownerTenant := 0, length := 100 })] } }),
      by decide, by decide, by decide, by decide⟩⟩

/-- Inputs that meet the hypotheses of `Obligations.DirectoryTransactions`. -/
theorem witness_DirectoryTransactions :
    (∃ (region : Fin 8) (slot : Nat) (block : Fin 16) (s : State), s.dev.stopped = false ∧ s.dev.dirUsable region.val block.val = true ∧
      slot < contextSlots ∧ s.dev.line region.val slot = .uncached) ∧
    (∃ (region : Fin 8) (slot : Nat) (block : Fin 16) (s : State), s.dev.stopped = false ∧ s.dev.dirUsable region.val block.val = true ∧
      slot < contextSlots ∧ ∃ o m, s.dev.line region.val slot = .owned o m ∧ o ≠ block.val) ∧
    (∃ (region : Fin 8) (slot : Nat) (block : Fin 16) (m : Bool) (s : State), s.dev.stopped = false ∧
      s.dev.line region.val slot = .owned block.val m ∧ m = false) ∧
    (∃ (region : Fin 8) (slot : Nat) (block : Fin 16) (m : Bool) (s : State), s.dev.stopped = false ∧
      s.dev.line region.val slot = .owned block.val m ∧ m = true) ∧
    (∃ (region : Fin 8) (slot : Nat) (block : Fin 16) (m : Bool) (s : State), s.dev.stopped = false ∧
      s.dev.line region.val slot = .owned block.val m ∧ ∃ other : Fin 16, other ≠ block) ∧
    (∃ (region : Fin 8) (slot : Nat) (s : State), s.dev.stopped = false ∧ s.dev.regionIn region.val = true ∧
      (s.dev.region region.val).resetting = false) ∧
    (∃ (region : Fin 8) (slot mask sid : Nat) (st : Stream) (data : List Byte) (s : State), s.dev.stopped = false ∧
      s.dev.regionIn region.val = true ∧ (s.dev.region region.val).resetting = false ∧ s.dev.streamAt region.val slot = some (sid, st)) :=
    ⟨⟨7, 163839, 15, (up fun d => d), by decide, by decide, by decide, by decide⟩,
     ⟨7, 163839, 15, (up fun d => { d with tongs := { d.tongs with lines := [(lineKey 7 163839, { state := .owned 14 false, stack := [] })] } }),
      by decide, by decide, by decide, 14, false, by decide, by decide⟩,
     ⟨7, 163839, 15, false,
      (up fun d => { d with tongs := { d.tongs with lines := [(lineKey 7 163839, { state := .owned 15 false, stack := [] })] } }), by decide,
      by decide, by decide⟩,
     ⟨7, 163839, 15, true,
      (up fun d => { d with tongs := { d.tongs with lines := [(lineKey 7 163839, { state := .owned 15 true, stack := [] })] } }), by decide,
      by decide, by decide⟩,
     ⟨7, 163839, 15, true,
      (up fun d => { d with tongs := { d.tongs with lines := [(lineKey 7 163839, { state := .owned 15 true, stack := [] })] } }), by decide,
      by decide, 14, by decide⟩,
     ⟨7, 163839, (up fun d => d), by decide, by decide, by decide⟩,
     ⟨0, 0, 1, 9, streamOf, [], (up fun d => { d with streams := [(9, streamOf)] }), by decide, by decide, by decide, by decide⟩⟩

/-- Inputs that meet the hypotheses of `Obligations.CompressorStreams`. -/
theorem witness_CompressorStreams :
    (∃ (ctx log cls tenant : Nat) (data : List Byte) (s : State), s.dev.stopped = false ∧ ctx < 512 ∧ AMap.get? s.dev.tongs.cmp ctx = none ∧
      12 ≤ log ∧ log ≤ 20 ∧ data.length < 2 ^ log) ∧
    (∃ (ctx : Nat) (c : CmpCtx) (s : State), s.dev.stopped = false ∧ AMap.get? s.dev.tongs.cmp ctx = some c ∧ c.held ≠ []) ∧
    (∃ (ctx : Nat) (c : CmpCtx) (s : State), s.dev.stopped = false ∧ AMap.get? s.dev.tongs.cmp ctx = some c) :=
    ⟨⟨511, 20, 1, 0, [], (up fun d => d), by decide, by decide, by decide, by decide, by decide, by decide⟩,
     ⟨0, { log := 12, cls := 1, tenant := 0, held := [1], out := [] },
      (up fun d => { d with tongs := { d.tongs with cmp := [(0, { log := 12, cls := 1, tenant := 0, held := [1], out := [] })] } }), by decide,
      by decide, by decide⟩,
     ⟨0, { log := 12, cls := 1, tenant := 0, held := [], out := [] },
      (up fun d => { d with tongs := { d.tongs with cmp := [(0, { log := 12, cls := 1, tenant := 0, held := [], out := [] })] } }), by decide,
      by decide⟩⟩

/-- Inputs that meet the hypotheses of `Obligations.MoveElements`. -/
theorem witness_MoveElements :
    (∃ (b : BlockRef) (m : MoveRec) (tenant : Nat) (mem : List Byte) (s : State), s.dev.stopped = false ∧ moveCase m ≠ 4) ∧
    (∃ (b : BlockRef) (m : MoveRec) (tenant : Nat) (mem : List Byte) (s : State), s.dev.stopped = false ∧ moveCase m = 4 ∧ moveBytes m ≤ 4194304) ∧
    (∃ (e src dst n : Nat) (mem : List Byte), src + e * n ≤ mem.length ∧ dst + e * n ≤ mem.length) :=
    ⟨⟨{ region := 0, block := 0 }, { elem := 1, counts := [2], src := 0, srcPitch := [1], dst := 8, dstPitch := [1] }, 0, zeros 16, (up fun d => d),
      by decide, by decide⟩,
     ⟨{ region := 0, block := 0 }, { elem := 1, counts := [3], src := 0, srcPitch := [1], dst := 1, dstPitch := [2] }, 0, zeros 16, (up fun d => d),
      by decide, by decide, by decide⟩,
     ⟨4, 0, 4, 1, zeros 8, by decide, by decide⟩⟩

/-- Inputs that meet the hypotheses of `Obligations.BilletsArePublishedAndDelivered`. -/
theorem witness_BilletsArePublishedAndDelivered :
    (∃ (t key batch order : Nat) (r : Reservoir) (rest : List (Nat × Nat)) (s : State), s.dev.stopped = false ∧ s.dev.res? (resKey t key) = some r ∧
      r.state = .active ∧ r.fences = (batch, order) :: rest) ∧
    (∃ (t key : Nat) (r : Reservoir) (p : Publication) (rest : List Publication) (s : State), s.dev.stopped = false ∧
      s.dev.res? (resKey t key) = some r ∧ r.tails = p :: rest ∧ r.fences = [] ∧ (∀ w ∈ r.writes, w.posted = none)) ∧
    (∃ (t key o : Nat) (r : Reservoir) (w : Write) (s : State), s.dev.stopped = false ∧ s.dev.res? (resKey t key) = some r ∧ r.tails = [] ∧
      r.fences = [] ∧ r.writes = [w] ∧ w.posted = some o) :=
    ⟨⟨0, 3, 1, 4, { reservoirOf with fences := [(1, 4)] }, [],
      (up fun d => { d with haul := { d.haul with reservoirs := [(3, { reservoirOf with fences := [(1, 4)] })] } }), by decide, by decide, by decide,
      by decide⟩,
     ⟨0, 3, { reservoirOf with tails := [{ batch := 1, tail := 64, order := 4 }] }, { batch := 1, tail := 64, order := 4 }, [],
      (up fun d => { d with haul := { d.haul with reservoirs := [(3, { reservoirOf with tails := [{ batch := 1, tail := 64, order := 4 }] })] } }),
      by decide, by decide, by decide, by decide, by decide⟩,
     ⟨0, 3, 2, { reservoirOf with writes := [{ batch := 1, addr := 0, data := [], posted := some 2, counted := false }] },
      { batch := 1, addr := 0, data := [], posted := some 2, counted := false },
      (up fun d => { d with haul := { d.haul with reservoirs := [(3, { reservoirOf with writes := [{ batch := 1, addr := 0, data := [], posted := some 2, counted := false }] })] } }),
      by decide, by decide, by decide, by decide, by decide, by decide⟩⟩

/-- Inputs that meet the hypotheses of `Obligations.QueuePairsAndPortsFail`. -/
theorem witness_QueuePairsAndPortsFail :
    (∃ (t key reason : Nat) (r : Reservoir) (s : State), s.dev.stopped = false ∧ s.dev.res? (resKey t key) = some r ∧ r.state = .active) ∧
    (∃ (p reason : Nat) (x : Peer) (s : State), s.dev.stopped = false ∧ s.dev.peer? p = some x ∧ x.up = true) ∧
    (∃ (t key : Nat) (r : Reservoir) (s : State), s.dev.stopped = false ∧ s.dev.res? (resKey t key) = some r ∧ r.tails ≠ [] ∧ r.retries < 7) ∧
    (∃ (t key : Nat) (r : Reservoir) (s : State), s.dev.stopped = false ∧ s.dev.res? (resKey t key) = some r ∧ r.tails ≠ [] ∧ 7 ≤ r.retries) ∧
    (∃ (p : Nat) (s : State) (key : Nat) (r : Reservoir), s.dev.stopped = false ∧ s.dev.portUp p = true ∧ s.dev.res? key = some r ∧ r.port = p ∧
      r.state = .active) ∧
    (∃ (t key : Nat) (r : Reservoir) (s : State), s.dev.stopped = false ∧ s.dev.res? (resKey t key) = some r ∧ r.state = .detaching ∧
      (∀ w ∈ r.writes, w.posted = none) ∧ r.fences = [] ∧ r.tails = []) :=
    ⟨⟨0, 3, 1, reservoirOf, (up fun d => { d with haul := { d.haul with reservoirs := [(3, reservoirOf)] } }), by decide, by decide, by decide⟩,
     ⟨5, 1, peerOf, (up fun d => { d with haul := { d.haul with peers := [(5, peerOf)] } }), by decide, by decide, by decide⟩,
     ⟨0, 3, { reservoirOf with tails := [{ batch := 1, tail := 64, order := 4 }], retries := 6 },
      (up fun d => { d with haul := { d.haul with reservoirs := [(3, { reservoirOf with tails := [{ batch := 1, tail := 64, order := 4 }], retries := 6 })] } }),
      by decide, by decide, by decide, by decide⟩,
     ⟨0, 3, { reservoirOf with tails := [{ batch := 1, tail := 64, order := 4 }], retries := 7 },
      (up fun d => { d with haul := { d.haul with reservoirs := [(3, { reservoirOf with tails := [{ batch := 1, tail := 64, order := 4 }], retries := 7 })] } }),
      by decide, by decide, by decide, by decide⟩,
     ⟨0, (up fun d => { d with haul := { d.haul with reservoirs := [(3, reservoirOf)] } }), 3, reservoirOf, by decide, by decide, by decide,
      by decide, by decide⟩,
     ⟨0, 3, { reservoirOf with state := .detaching },
      (up fun d => { d with haul := { d.haul with reservoirs := [(3, { reservoirOf with state := .detaching })] } }), by decide, by decide, by decide,
      by decide, by decide, by decide⟩⟩

/-- Inputs that meet the hypotheses of `Obligations.RatesAndGauges`. -/
theorem witness_RatesAndGauges :
    (∃ (t key ns : Nat) (r : Reservoir) (s : State), s.dev.stopped = false ∧ s.dev.res? (resKey t key) = some r ∧
      (r.lastDecrease = none ∨ 50000 ≤ ns)) ∧
    (∃ (t key ns : Nat) (r : Reservoir) (s : State), s.dev.stopped = false ∧ s.dev.res? (resKey t key) = some r ∧ r.lastDecrease ≠ none ∧
      ns < 50000) ∧
    (∃ (t key ns : Nat) (r : Reservoir) (s : State), s.dev.stopped = false ∧ s.dev.res? (resKey t key) = some r ∧ r.cnpInPeriod = false) ∧
    (∃ (t key ns : Nat) (r : Reservoir) (s : State), s.dev.stopped = false ∧ s.dev.res? (resKey t key) = some r ∧ r.cnpInPeriod = true) ∧
    (∃ (t key ns : Nat) (r : Reservoir) (s : State), s.dev.stopped = false ∧ s.dev.res? (resKey t key) = some r ∧ r.gaugeRead = false ∧
      ∃ data : List Byte, data.length = 8) ∧
    (∃ (t key ns : Nat) (r : Reservoir) (s : State), s.dev.stopped = false ∧ s.dev.res? (resKey t key) = some r ∧ r.gaugeRead = true ∧ ∃ v : Nat,
      v < 2 ^ 64) :=
    ⟨⟨0, 3, 0, reservoirOf, (up fun d => { d with haul := { d.haul with reservoirs := [(3, reservoirOf)] } }), by decide, by decide, by decide⟩,
     ⟨0, 3, 49999, { reservoirOf with lastDecrease := some 1 },
      (up fun d => { d with haul := { d.haul with reservoirs := [(3, { reservoirOf with lastDecrease := some 1 })] } }), by decide, by decide,
      by decide, by decide⟩,
     ⟨0, 3, 0, reservoirOf, (up fun d => { d with haul := { d.haul with reservoirs := [(3, reservoirOf)] } }), by decide, by decide, by decide⟩,
     ⟨0, 3, 0, { reservoirOf with cnpInPeriod := true },
      (up fun d => { d with haul := { d.haul with reservoirs := [(3, { reservoirOf with cnpInPeriod := true })] } }), by decide, by decide, by decide⟩,
     ⟨0, 3, 0, reservoirOf, (up fun d => { d with haul := { d.haul with reservoirs := [(3, reservoirOf)] } }), by decide, by decide, by decide,
      zeros 8, by decide⟩,
     ⟨0, 3, 0, { reservoirOf with gaugeRead := true },
      (up fun d => { d with haul := { d.haul with reservoirs := [(3, { reservoirOf with gaugeRead := true })] } }), by decide, by decide, by decide,
      2 ^ 64 - 1, by decide⟩⟩

/-- Inputs that meet the hypotheses of `Obligations.FramesAreTakenOrDropped`. -/
theorem witness_FramesAreTakenOrDropped :
    (∃ (port ns : Nat) (frame : List Byte) (x : Drop) (s : State), s.dev.stopped = false ∧ s.dev.portUp port = true ∧ frame.length ≤ 9216 ∧
      parseFrame (s.dev.parseCtx port) frame = .dropped x) ∧
    (∃ (port ns sid start stop capture : Nat) (frame : List Byte) (st : Stream) (g : Ingest) (p : Prog) (s : State), s.dev.stopped = false ∧
      s.dev.portUp port = true ∧ frame.length ≤ 9216 ∧ parseFrame (s.dev.parseCtx port) frame = .ingest sid start stop capture ∧
      s.dev.stream? sid = some st ∧ st.ingest = some g ∧ s.dev.progOfStream st = some p ∧ s.dev.boundaryPtp = none ∧
      (AMap.get? s.dev.tenants st.tenant).bind Tenant.policer = none ∧ st.undrawn < st.depth) ∧
    (∃ (port off : Nat) (frame : List Byte) (s : State), s.dev.stopped = false ∧ s.dev.portUp port = true ∧
      parseFrame (s.dev.parseCtx port) frame = .arp off ∧ off + 28 ≤ frame.length ∧ bytesAt frame off 8 = [0, 1, 8, 0, 6, 4, 0, 1] ∧
      (s.dev.localGids port).contains (mappedGid (bytesAt frame (off + 24) 4)) = true) ∧
    (∃ (port ip off stop : Nat) (frame : List Byte) (s : State), s.dev.stopped = false ∧ s.dev.portUp port = true ∧
      parseFrame (s.dev.parseCtx port) frame = .solicit ip off stop ∧ 24 ≤ stop - off ∧
      fold16 (sum16 (bytesAt frame (ip + 8) 32) + 58 + (stop - off) + sum16 (bytesAt frame off (stop - off))) = 65535 ∧
      bytesAt frame (ip + 7) 1 = [0xFF] ∧ bytesAt frame (off + 1) 1 = [0] ∧ (s.dev.localGids port).contains (bytesAt frame (off + 8) 16) = true) :=
    ⟨⟨3, 0, zeros 17, .length, (up fun d => d), by decide, by decide, by decide, by decide⟩,
     ⟨0, 0, 1, 74, 78, 0, liveFrame, liveStream,
      { key := { udpPort := 6000, vniMatch := false, portMask := 1, vni := 0 }, matching := true, nextSeq := 0, closing := [] },
      Prog.loadingFor 0 false, (up fun d => { d with streams := [(1, liveStream)], progs := [(0, Prog.loadingFor 0 false)] }), by decide, by decide,
      by decide, by decide, by decide, by decide, by decide, by decide, by decide, by decide⟩,
     ⟨0, 14, arpFrame,
      (up fun d => { d with haul := { d.haul with reservoirs := [(3, { reservoirOf with localGid := mappedGid [192, 0, 2, 1] })] } }), by decide,
      by decide, by decide, by decide, by decide, by decide⟩,
     ⟨0, 14, 54, 78, solicitFrame,
      (up fun d => { d with haul := { d.haul with reservoirs := [(3, { reservoirOf with localGid := List.replicate 16 1 })] } }), by decide,
      by decide, by decide, by decide, by decide, by decide, by decide, by decide⟩⟩

/-- Inputs that meet the hypotheses of `Obligations.PeersAreServed`. -/
theorem witness_PeersAreServed :
    (∃ (peer : Nat) (b : List Byte) (m : PeerMsg) (s : State), s.dev.stopped = false ∧ (s.dev.peer? peer).isSome = true ∧ parsePeerMsg b = some m ∧
      m.type_ = 1 ∧ ∃ t, AMap.get? s.dev.face.datasets m.dataset = some t ∧ t.sealed_ = true) ∧
    (∃ (peer : Nat) (b : List Byte) (m : PeerMsg) (s : State), s.dev.stopped = false ∧ (s.dev.peer? peer).isSome = true ∧ parsePeerMsg b = some m ∧
      m.type_ = 3 ∧ AMap.get? s.dev.face.datasets m.dataset = none) ∧
    (∃ (peer : Nat) (b : List Byte) (m : PeerMsg) (s : State), s.dev.stopped = false ∧ (s.dev.peer? peer).isSome = true ∧ parsePeerMsg b = some m ∧
      m.type_ = 3 ∧ ∃ t, AMap.get? s.dev.face.datasets m.dataset = some t ∧ t.manifest ≠ m.manifest) ∧
    (∃ (peer : Nat) (b : List Byte) (m : PeerMsg) (s : State), s.dev.stopped = false ∧ (s.dev.peer? peer).isSome = true ∧ parsePeerMsg b = some m ∧
      m.type_ = 3 ∧ ∃ t, AMap.get? s.dev.face.datasets m.dataset = some t ∧ t.sealed_ = true ∧ t.manifest = m.manifest ∧ m.index < t.count ∧
      s.dev.haul.served.length < 4096) ∧
    (∃ (peer : Nat) (b : List Byte) (m : PeerMsg) (s : State), s.dev.stopped = false ∧ (s.dev.peer? peer).isSome = true ∧ parsePeerMsg b = some m ∧
      m.type_ = 6) ∧
    (∃ (peer tag : Nat) (v : Served) (s : State), s.dev.stopped = false ∧ s.dev.served? peer tag = some v ∧ v.ready = true ∧ v.bufs = []) ∧
    (∃ (peer link : Nat) (v : Served) (s : State), s.dev.stopped = false ∧
      s.dev.haul.served.find? (fun x => x.peer == peer && x.ready && x.bufs.contains link) = some v ∧ v.bufs.head? = some link) :=
    ⟨⟨5, (({ PeerMsg.simple 1 2 9 with manifest := zeros 32 } : PeerMsg)).bytes, ({ PeerMsg.simple 1 2 9 with manifest := zeros 32 } : PeerMsg),
      (up fun d => { d with haul := { d.haul with peers := [(5, peerOf)] }, face := { d.face with datasets := [(2, { datasetOf with sealed_ := true, count := 3, manifest := zeros 32 })] } }),
      by decide, by decide, by decide, by decide, { datasetOf with sealed_ := true, count := 3, manifest := zeros 32 }, by decide, by decide⟩,
     ⟨5, (({ PeerMsg.simple 3 2 9 with manifest := zeros 32 } : PeerMsg)).bytes, ({ PeerMsg.simple 3 2 9 with manifest := zeros 32 } : PeerMsg),
      (up fun d => { d with haul := { d.haul with peers := [(5, peerOf)] } }), by decide, by decide, by decide, by decide, by decide⟩,
     ⟨5, (({ PeerMsg.simple 3 2 9 with manifest := zeros 32 } : PeerMsg)).bytes, ({ PeerMsg.simple 3 2 9 with manifest := zeros 32 } : PeerMsg),
      (up fun d => { d with haul := { d.haul with peers := [(5, peerOf)] }, face := { d.face with datasets := [(2, { datasetOf with sealed_ := true, manifest := [1] })] } }),
      by decide, by decide, by decide, by decide, { datasetOf with sealed_ := true, manifest := [1] }, by decide, by decide⟩,
     ⟨5, (({ PeerMsg.simple 3 2 9 with manifest := zeros 32, index := 2 } : PeerMsg)).bytes,
      ({ PeerMsg.simple 3 2 9 with manifest := zeros 32, index := 2 } : PeerMsg),
      (up fun d => { d with haul := { d.haul with peers := [(5, peerOf)] }, face := { d.face with datasets := [(2, { datasetOf with sealed_ := true, count := 3, manifest := zeros 32 })] } }),
      by decide, by decide, by decide, by decide, { datasetOf with sealed_ := true, count := 3, manifest := zeros 32 }, by decide, by decide,
      by decide, by decide, by decide⟩,
     ⟨5, (({ PeerMsg.simple 6 2 9 with manifest := zeros 32 } : PeerMsg)).bytes, ({ PeerMsg.simple 6 2 9 with manifest := zeros 32 } : PeerMsg),
      (up fun d => { d with haul := { d.haul with peers := [(5, peerOf)] } }), by decide, by decide, by decide, by decide⟩,
     ⟨5, 9, servedOf [], (up fun d => { d with haul := { d.haul with peers := [(5, peerOf)], served := [servedOf []] } }), by decide, by decide,
      by decide, by decide⟩,
     ⟨5, 0x100, servedOf [0x100], (up fun d => { d with haul := { d.haul with peers := [(5, peerOf)], served := [servedOf [0x100]] } }), by decide,
      by decide, by decide⟩⟩

/-- Inputs that meet the hypotheses of `Obligations.PeersAreAsked`. -/
theorem witness_PeersAreAsked :
    (∃ (peer : Nat) (b : List Byte) (m : PeerMsg) (q : PeerReq) (s : State), s.dev.stopped = false ∧ parsePeerMsg b = some m ∧
      s.dev.req? peer m.tag = some q ∧ m.type_ = 4 ∧ q.waiting = false ∧ q.links = [] ∧ ∃ a, m.links = [a] ∧ chainLinks m.length = [m.length]) ∧
    (∃ (peer : Nat) (b : List Byte) (m : PeerMsg) (q : PeerReq) (s : State), s.dev.stopped = false ∧ parsePeerMsg b = some m ∧
      s.dev.req? peer m.tag = some q ∧ m.type_ = 5 ∧ m.reason = 4) ∧
    (∃ (peer tag : Nat) (q : PeerReq) (x : Peer) (s : State), s.dev.stopped = false ∧ s.dev.req? peer tag = some q ∧ s.dev.peer? peer = some x ∧
      q.waiting = false ∧ q.links = [] ∧ x.timeouts = 2 ∧ x.up = true) ∧
    (∃ (peer tag : Nat) (q : PeerReq) (s : State), s.dev.stopped = false ∧ s.dev.req? peer tag = some q ∧ q.waiting = true ∧ 0 < q.sentTick ∧
      q.sentTick ≤ s.dev.tick.count) ∧
    (∃ (peer tag : Nat) (data : List Byte) (q : PeerReq) (st : Stream) (s : State), s.dev.stopped = false ∧ s.dev.req? peer tag = some q ∧
      q.links ≠ [] ∧ data.length = q.length ∧ q.hedge = false ∧ s.dev.stream? q.stream = some st ∧ st.replayOf = none) ∧
    (∃ (peer : Nat) (x : Peer) (s : State), s.dev.stopped = false ∧ s.dev.peer? peer = some x ∧ x.up = false ∧ x.downTick + 2500 ≤ s.dev.tick.count) ∧
    (∃ (peer : Nat) (b : List Byte) (m : PeerMsg) (x : Peer) (k : Nat) (t : Dataset) (s : State), s.dev.stopped = false ∧ parsePeerMsg b = some m ∧
      m.type_ = 2 ∧ s.dev.peer? peer = some x ∧ x.up = false ∧ AMap.get? s.dev.face.datasets k = some t ∧ t.sealed_ = true ∧ t.manifest = m.manifest ∧
      t.placement.any (fun r => r.peer == peer && r.dataset == m.dataset) = true) :=
    ⟨⟨5, (({ PeerMsg.simple 4 2 9 with manifest := zeros 32, length := 100, links := [0x1000] } : PeerMsg)).bytes,
      ({ PeerMsg.simple 4 2 9 with manifest := zeros 32, length := 100, links := [0x1000] } : PeerMsg), askedOf,
      (up fun d => { d with haul := { d.haul with reqs := [askedOf], peers := [(5, peerOf)] } }), by decide, by decide, by decide, by decide,
      by decide, by decide, 0x1000, by decide, by decide⟩,
     ⟨5, (({ PeerMsg.simple 5 2 9 with manifest := zeros 32, reason := 4 } : PeerMsg)).bytes,
      ({ PeerMsg.simple 5 2 9 with manifest := zeros 32, reason := 4 } : PeerMsg), askedOf,
      (up fun d => { d with haul := { d.haul with reqs := [askedOf], peers := [(5, peerOf)] } }), by decide, by decide, by decide, by decide,
      by decide⟩,
     ⟨5, 9, askedOf, { peerOf with timeouts := 2 },
      (up fun d => { d with haul := { d.haul with reqs := [askedOf], peers := [(5, { peerOf with timeouts := 2 })] } }), by decide, by decide,
      by decide, by decide, by decide, by decide, by decide⟩,
     ⟨5, 9, { askedOf with waiting := true, sentTick := 1000 },
      (up fun d => { d with haul := { d.haul with reqs := [{ askedOf with waiting := true, sentTick := 1000 }], peers := [(5, peerOf)] } }),
      by decide, by decide, by decide, by decide, by decide⟩,
     ⟨5, 9, [7], { askedOf with links := [0x1000], length := 1 }, streamOf,
      (up fun d => { d with haul := { d.haul with reqs := [{ askedOf with links := [0x1000], length := 1 }], peers := [(5, peerOf)] }, streams := [(1, streamOf)] }),
      by decide, by decide, by decide, by decide, by decide, by decide, by decide⟩,
     ⟨5, { peerOf with up := false },
      (up fun d => { d with haul := { d.haul with peers := [(5, { peerOf with up := false })] }, tick := { d.tick with count := 2500 } }), by decide,
      by decide, by decide, by decide⟩,
     ⟨5, (({ PeerMsg.simple 2 2 9 with manifest := zeros 32 } : PeerMsg)).bytes, ({ PeerMsg.simple 2 2 9 with manifest := zeros 32 } : PeerMsg),
      { peerOf with up := false }, 2,
      { datasetOf with sealed_ := true, manifest := zeros 32, placement := [{ peer := 5, dataset := 2, usable := false }] },
      (up fun d => { d with haul := { d.haul with peers := [(5, { peerOf with up := false })] }, face := { d.face with datasets := [(2, { datasetOf with sealed_ := true, manifest := zeros 32, placement := [{ peer := 5, dataset := 2, usable := false }] })] } }),
      by decide, by decide, by decide, by decide, by decide, by decide, by decide, by decide, by decide⟩⟩

/-- Inputs that meet the hypotheses of `Obligations.GroupMembersAlign`. -/
theorem witness_GroupMembersAlign :
    (∃ (b : List Byte) (s : State), s.dev.stopped = false ∧ s.dev.onBus = true ∧ parseTickFrame b = none) ∧
    (∃ (b : List Byte) (s : State), s.dev.stopped = false ∧ s.dev.onBus = false) ∧
    (∃ (b : List Byte) (t p f : Nat) (s : State), s.dev.stopped = false ∧ s.dev.onBus = true ∧ s.dev.isFollower = true ∧
      s.dev.group.awaiting = false ∧ s.dev.group.aligned = true ∧ parseTickFrame b = some (t, p, f) ∧ f % 2 = 0 ∧ t = s.dev.tick.count) ∧
    (∃ (b : List Byte) (t p f : Nat) (s : State), s.dev.stopped = false ∧ s.dev.onBus = true ∧ s.dev.isFollower = true ∧
      s.dev.group.awaiting = false ∧ s.dev.group.aligned = true ∧ parseTickFrame b = some (t, p, f) ∧ f % 2 = 0 ∧ t ≠ s.dev.tick.count) ∧
    (∃ t p f : Nat, t < 2 ^ 64 ∧ 100 ≤ p ∧ p ≤ 1600 ∧ f < 32) ∧
    (∃ s : State, s.dev.stopped = false ∧ s.dev.isFollower = true ∧ s.dev.group.member ≠ none ∧ s.dev.group.aligned = true) ∧
    (∃ (o : Int) (b : Nat) (s : State), s.dev.stopped = false ∧ s.dev.ptpMember = true ∧ o.natAbs ≤ 45 ∧ s.dev.group.syncGood < 15) ∧
    (∃ (o : Int) (b : Nat) (s : State), s.dev.stopped = false ∧ s.dev.ptpMember = true ∧ o.natAbs ≤ 45 ∧ s.dev.group.syncGood = 15) ∧
    (∃ (o : Int) (b : Nat) (s : State), s.dev.stopped = false ∧ s.dev.ptpMember = true ∧ 45 < o.natAbs ∧ o.natAbs ≤ 500) ∧
    (∃ (o : Int) (b : Nat) (s : State), s.dev.stopped = false ∧ s.dev.ptpMember = true ∧ 500 < o.natAbs ∧ 7 ≤ s.dev.group.syncBad ∧
      s.dev.group.ptpLocked = true) ∧
    (∃ s : State, s.dev.stopped = false ∧ s.dev.ptpMember = true ∧ s.dev.group.ptpLocked = true) ∧
    (∃ (o : Int) (b : Nat) (s : State), s.dev.stopped = false ∧ s.dev.ptpMember = false) :=
    ⟨⟨zeros 12, (up fun d => { d with group := { d.group with member := some (memberOf 2) } }), by decide, by decide, by decide⟩,
     ⟨zeros 12, (up fun d => d), by decide, by decide⟩,
     ⟨tickFrameBytes 1000 400 0, 1000, 400, 0, (up fun d => { d with group := { d.group with member := some (memberOf 2), aligned := true } }),
      by decide, by decide, by decide, by decide, by decide, by decide, by decide, by decide⟩,
     ⟨tickFrameBytes 1001 400 0, 1001, 400, 0, (up fun d => { d with group := { d.group with member := some (memberOf 2), aligned := true } }),
      by decide, by decide, by decide, by decide, by decide, by decide, by decide, by decide⟩,
     ⟨2 ^ 64 - 1, 1600, 31, by decide, by decide, by decide, by decide⟩,
     ⟨(up fun d => { d with group := { d.group with member := some (memberOf 2), aligned := true } }), by decide, by decide, by decide, by decide⟩,
     ⟨-45, 0, (up fun d => { d with group := { d.group with member := some (memberOf 0), syncGood := 14 } }), by decide, by decide, by decide,
      by decide⟩,
     ⟨45, 0, (up fun d => { d with group := { d.group with member := some (memberOf 0), syncGood := 15 } }), by decide, by decide, by decide,
      by decide⟩,
     ⟨46, 0, (up fun d => { d with group := { d.group with member := some (memberOf 0) } }), by decide, by decide, by decide, by decide⟩,
     ⟨501, 0, (up fun d => { d with group := { d.group with member := some (memberOf 0), syncBad := 7, ptpLocked := true } }), by decide, by decide,
      by decide, by decide, by decide⟩,
     ⟨(up fun d => { d with group := { d.group with member := some (memberOf 0), ptpLocked := true } }), by decide, by decide, by decide⟩,
     ⟨0, 0, (up fun d => d), by decide, by decide⟩⟩

/-- Inputs that meet the hypotheses of `Obligations.BoundariesCount`. -/
theorem witness_BoundariesCount :
    (∃ (f : BoundaryFound) (s : State), s.dev.stopped = false ∧ s.dev.makesBoundary = true) ∧
    (∃ (f : BoundaryFound) (s : State), s.dev.stopped = false ∧ (s.dev.tick.running = false ∨ s.dev.group.awaiting = true)) ∧
    (∃ (f : BoundaryFound) (s : State), s.dev.stopped = false ∧ s.dev.makesBoundary = true ∧ s.dev.streams = [] ∧ s.dev.haul.reservoirs = [] ∧
      s.dev.haul.reqs = [] ∧ s.dev.tick.items = []) ∧
    (∃ (f : BoundaryFound) (e : TickEpoch) (s : State), s.dev.stopped = false ∧ s.dev.group.epoch = some e ∧ s.dev.tick.running = true ∧
      s.dev.barrierWaits = false ∧ 0 < e.tickAt) :=
    ⟨⟨boundaryNone, (up fun d => d), by decide, by decide⟩,
     ⟨boundaryNone, State.reset, by decide, by decide⟩,
     ⟨boundaryNone, (up fun d => d), by decide, by decide, by decide, by decide, by decide, by decide⟩,
     ⟨boundaryNone, { atNs := 0, period := 400, tickAt := 1 },
      (up fun d => { d with group := { d.group with epoch := some { atNs := 0, period := 400, tickAt := 1 } } }), by decide, by decide, by decide,
      by decide, by decide⟩⟩

/-- Inputs that meet the hypotheses of `Obligations.PlansAreFrozenAndReleased`. -/
theorem witness_PlansAreFrozenAndReleased :
    (∃ s : State, s.dev.stopped = false ∧ s.dev.tick.running = true ∧ s.dev.tick.plan = none) ∧
    (∃ (p : Plan) (s : State), s.dev.stopped = false ∧ s.dev.tick.plan = some p ∧ s.dev.tick.count < p.tick) ∧
    (∃ (cell : CellRef) (c : Nat) (p : Plan) (s : State), s.dev.stopped = false ∧ s.dev.cellOf cell = some c ∧ s.dev.tick.plan = some p ∧
      p.launch.contains c = true ∧ s.dev.tick.precharge.contains c = false) ∧
    (∃ (cell : CellRef) (c : Nat) (s : State), s.dev.stopped = false ∧ s.dev.cellOf cell = some c ∧ s.dev.tick.launch.contains c = true) ∧
    (∃ (cell : CellRef) (c : Nat) (s : State), s.dev.stopped = false ∧ s.dev.cellOf cell = some c ∧ s.dev.tick.launch.contains c = false) :=
    ⟨⟨(up fun d => d), by decide, by decide, by decide⟩,
     ⟨{ tick := 1001, items := [], launch := [0] },
      (up fun d => { d with tick := { d.tick with plan := some { tick := 1001, items := [], launch := [0] } } }), by decide, by decide, by decide⟩,
     ⟨{ region := 0, block := 0, cell := 0 }, 0, { tick := 1001, items := [], launch := [0] },
      (up fun d => { d with tick := { d.tick with plan := some { tick := 1001, items := [], launch := [0] } } }), by decide, by decide, by decide,
      by decide, by decide⟩,
     ⟨{ region := 0, block := 0, cell := 0 }, 0, (up fun d => { d with tick := { d.tick with launch := [0] } }), by decide, by decide, by decide⟩,
     ⟨{ region := 0, block := 0, cell := 0 }, 0, (up fun d => d), by decide, by decide, by decide⟩⟩

/-- Inputs that meet the hypotheses of `Obligations.WorkItemsComplete`. -/
theorem witness_WorkItemsComplete :
    (∃ (id at_ : Nat) (i : Item) (s : State), s.dev.stopped = false ∧ s.dev.item? id = some i ∧ (i.phase ≠ .running ∨ at_ < i.startAt)) ∧
    (∃ (id at_ key seq : Nat) (i : Item) (s : State), s.dev.stopped = false ∧ s.dev.item? id = some i ∧ i.phase = .running ∧ i.startAt ≤ at_ ∧
      i.cls = 4 ∧ i.job = .emit key seq ∧ s.dev.emitPosted key seq = true) ∧
    (∃ (id at_ cmd : Nat) (i : Item) (c : NvmeCmd) (s : State), s.dev.stopped = false ∧ s.dev.item? id = some i ∧ i.phase = .running ∧
      i.startAt ≤ at_ ∧ i.cls = 0 ∧ s.dev.itemUnit i = .die ∧ i.job = .storage cmd ∧ s.dev.nvme.cmds.find? (fun c => c.id == cmd) = some c) ∧
    (∃ (id at_ sid pos k : Nat) (i : Item) (s : State), s.dev.stopped = false ∧ s.dev.item? id = some i ∧ i.phase = .running ∧ i.startAt ≤ at_ ∧
      i.cls = 1 ∧ i.out = none ∧ i.job = .sample sid pos (k + 1)) :=
    ⟨⟨7, 0, { itemOf (.emit 3 1) 4 [0] with startAt := 1 },
      (up fun d => { d with tick := { d.tick with items := [{ itemOf (.emit 3 1) 4 [0] with startAt := 1 }] } }), by decide, by decide, by decide⟩,
     ⟨7, 0, 3, 1, itemOf (.emit 3 1) 4 [0], (up fun d => { d with tick := { d.tick with items := [itemOf (.emit 3 1) 4 [0]] } }), by decide,
      by decide, by decide, by decide, by decide, by decide, by decide⟩,
     ⟨7, 0, 4, itemOf (.storage 4) 0 [0], { id := 4, sq := 1, cid := 0, kind := 0, nsid := 1, lba := 0, blocks := 1, owes := [], data := [] },
      (up fun d => { d with tick := { d.tick with items := [itemOf (.storage 4) 0 [0]] }, nvme := { d.nvme with cmds := [{ id := 4, sq := 1, cid := 0, kind := 0, nsid := 1, lba := 0, blocks := 1, owes := [], data := [] }] } }),
      by decide, by decide, by decide, by decide, by decide, by decide, by decide, by decide⟩,
     ⟨7, 0, 1, 0, 0, itemOf (.sample 1 0 1) 1 [0], (up fun d => { d with tick := { d.tick with items := [itemOf (.sample 1 0 1) 1 [0]] } }),
      by decide, by decide, by decide, by decide, by decide, by decide, by decide⟩⟩

/-- Inputs that meet the hypotheses of `Obligations.TimedEffects`. -/
theorem witness_TimedEffects :
    (∃ (p at_ : Nat) (s : State), s.dev.stopped = false ∧ s.dev.tick.change = some (p, at_) ∧ s.dev.barrierWaits = false ∧ at_ ≤ s.dev.tick.count) ∧
    (∃ (p at_ : Nat) (s : State), s.dev.stopped = false ∧ s.dev.tick.change = some (p, at_) ∧ s.dev.barrierWaits = false ∧ s.dev.tick.count < at_) ∧
    (∃ (t : Nat) (x : Tenant) (g : GateList) (s : State), s.dev.stopped = false ∧ AMap.get? s.dev.tenants t = some x ∧ x.gatesPending = some g ∧
      g.start ≤ s.dev.tick.count) ∧
    (∃ (t : Nat) (x : Tenant) (g : GateList) (s : State), s.dev.stopped = false ∧ AMap.get? s.dev.tenants t = some x ∧ x.gatesPending = some g ∧
      s.dev.tick.count < g.start) ∧
    (∃ (u : Nat) (s : State), s.dev.stopped = false ∧
      (s.dev.unit (UnitClass.ofCode (u / 65536)) (u % 65536)).service = .demoted ∧
      (s.dev.unit (UnitClass.ofCode (u / 65536)) (u % 65536)).lastProbe + 64 ≤ s.dev.tick.count) ∧
    (∃ (u : Nat) (s : State),
      s.dev.stopped = false ∧ (s.dev.unit (UnitClass.ofCode (u / 65536)) (u % 65536)).service ≠ .demoted) ∧
    (∃ (sid pos : Nat) (st : Stream) (x : Deferred) (s : State), s.dev.stopped = false ∧ s.dev.stream? sid = some st ∧
      st.deferred.find? (fun y => y.pos == pos) = some x ∧ s.dev.param ParamId.deferLimit st.tenant * (x.stalls + 1) ≤ s.dev.tick.count - x.tick) ∧
    (∃ (sid pos : Nat) (st : Stream) (x : Deferred) (s : State), s.dev.stopped = false ∧ s.dev.stream? sid = some st ∧
      st.deferred.find? (fun y => y.pos == pos) = some x ∧ s.dev.tick.count - x.tick < s.dev.param ParamId.deferLimit st.tenant * (x.stalls + 1)) ∧
    (∃ s : State, s.dev.stopped = false ∧ (s.dev.tick.count % 1024 = 0 ∨ s.dev.face.recompute = true)) ∧
    (∃ s : State, s.dev.stopped = false ∧ s.dev.tick.count % 1024 ≠ 0 ∧ s.dev.face.recompute = false) ∧
    (∃ (id sid pos : Nat) (i : Item) (e : Dev) (s : State), s.dev.stopped = false ∧ s.dev.item? id = some i ∧ i.job = .sample sid pos 0 ∧
      i.phase = .running ∧ i.out = none ∧ i.discard = false ∧ ((s.dev.stream? sid).bind s.dev.progOfStream).any Prog.peerOk = true ∧
      i.due ≤ s.dev.tick.count + 1 ∧ s.dev.haul.reqs.any (fun q => q.stream == sid && q.pos == pos) = false ∧
      32 * (s.dev.face.hedgesThisTick + 1) ≤ s.dev.face.readsThisTick ∧ s.dev.askPeer sid pos true = some e) ∧
    (∃ (id sid pos : Nat) (i : Item) (e : Dev) (s : State), s.dev.stopped = false ∧ s.dev.item? id = some i ∧ i.job = .sample sid pos 0 ∧
      i.phase = .running ∧ i.out = none ∧ i.discard = false ∧ ((s.dev.stream? sid).bind s.dev.progOfStream).any Prog.peerOk = true ∧
      i.due ≤ s.dev.tick.count + 1 ∧ s.dev.haul.reqs.any (fun q => q.stream == sid && q.pos == pos) = false ∧
      s.dev.face.readsThisTick < 32 * (s.dev.face.hedgesThisTick + 1)) :=
    ⟨⟨800, 1000, (up fun d => { d with tick := { d.tick with change := some (800, 1000) } }), by decide, by decide, by decide, by decide⟩,
     ⟨800, 1001, (up fun d => { d with tick := { d.tick with change := some (800, 1001) } }), by decide, by decide, by decide, by decide⟩,
     ⟨1, { Tenant.created none 0 0 with gatesPending := some { start := 1000, cycle := false, entries := [] } },
      { start := 1000, cycle := false, entries := [] },
      (up fun d => { d with tenants := [(1, { Tenant.created none 0 0 with gatesPending := some { start := 1000, cycle := false, entries := [] } })] }),
      by decide, by decide, by decide, by decide⟩,
     ⟨1, { Tenant.created none 0 0 with gatesPending := some { start := 1001, cycle := false, entries := [] } },
      { start := 1001, cycle := false, entries := [] },
      (up fun d => { d with tenants := [(1, { Tenant.created none 0 0 with gatesPending := some { start := 1001, cycle := false, entries := [] } })] }),
      by decide, by decide, by decide, by decide⟩,
     ⟨0, (up fun d => d.modUnit .cell 0 (fun x => { x with service := .demoted, lastProbe := 936 })), by decide, by decide, by decide⟩, ⟨0,
      up fun d => d, by decide, by decide⟩,
     ⟨1, 5, { streamOf with deferred := [{ pos := 5, epoch := 0, tick := 0, stalls := 0, draw := 0 }] },
      { pos := 5, epoch := 0, tick := 0, stalls := 0, draw := 0 },
      (up fun d => { d with streams := [(1, { streamOf with deferred := [{ pos := 5, epoch := 0, tick := 0, stalls := 0, draw := 0 }] })], tick := { d.tick with count := 2500 } }),
      by decide, by decide, by decide, by decide⟩,
     ⟨1, 5, { streamOf with deferred := [{ pos := 5, epoch := 0, tick := 1000, stalls := 0, draw := 0 }] },
      { pos := 5, epoch := 0, tick := 1000, stalls := 0, draw := 0 },
      (up fun d => { d with streams := [(1, { streamOf with deferred := [{ pos := 5, epoch := 0, tick := 1000, stalls := 0, draw := 0 }] })] }),
      by decide, by decide, by decide, by decide⟩,
     ⟨(up fun d => { d with tick := { d.tick with count := 1024 } }), by decide, by decide⟩,
     ⟨(up fun d => d), by decide, by decide, by decide⟩,
     ⟨7, 1, 0, itemOf (.sample 1 0 0) 0 [0],
      ((up fun d => { d with streams := [(1, { streamOf with dataset := 2 })], progs := [(0, { Prog.loadingFor 0 false with ops := [{ opOf 0x0101 with params := [1] }] })], tick := { d.tick with items := [itemOf (.sample 1 0 0) 0 [0]] }, haul := { d.haul with peers := [(5, peerOf)] }, face := { d.face with readsThisTick := 32, datasets := [(2, { datasetOf with sealed_ := true, placement := [{ peer := 5, dataset := 2, usable := true }] })] } }).dev.askPeer 1 0 true).get (by decide),
      (up fun d => { d with streams := [(1, { streamOf with dataset := 2 })], progs := [(0, { Prog.loadingFor 0 false with ops := [{ opOf 0x0101 with params := [1] }] })], tick := { d.tick with items := [itemOf (.sample 1 0 0) 0 [0]] }, haul := { d.haul with peers := [(5, peerOf)] }, face := { d.face with readsThisTick := 32, datasets := [(2, { datasetOf with sealed_ := true, placement := [{ peer := 5, dataset := 2, usable := true }] })] } }),
      by decide, by decide, by decide, by decide, by decide, by decide, by decide, by decide, by decide, by decide, by decide⟩,
     ⟨7, 1, 0, itemOf (.sample 1 0 0) 0 [0], Dev.init,
      (up fun d => { d with streams := [(1, { streamOf with dataset := 2 })], progs := [(0, { Prog.loadingFor 0 false with ops := [{ opOf 0x0101 with params := [1] }] })], tick := { d.tick with items := [itemOf (.sample 1 0 0) 0 [0]] }, haul := { d.haul with peers := [(5, peerOf)] }, face := { d.face with readsThisTick := 31, datasets := [(2, { datasetOf with sealed_ := true, placement := [{ peer := 5, dataset := 2, usable := true }] })] } }),
      by decide, by decide, by decide, by decide, by decide, by decide, by decide, by decide, by decide, by decide⟩⟩

/-- Inputs that meet the hypotheses of `Obligations.MediaFailures`. -/
theorem witness_MediaFailures :
    (∃ (ds off n e k : Nat) (t : Dataset) (x : Extent) (s : State), s.dev.stopped = false ∧ ds ≠ 0xFFFF ∧
      AMap.get? s.dev.face.datasets ds = some t ∧ s.dev.extentAt t off = some (e, x, k) ∧ x.unreadable.contains k = false ∧
      (s.dev.pagePlace x k).isSome = true ∧ 1 ≤ n ∧ n ≤ 3) ∧
    (∃ (id m : Nat) (b : Bench) (s : State), s.dev.stopped = false ∧ AMap.get? s.dev.face.benches id = some b ∧ b.state = .opened ∧
      m < b.members.length ∧ m < b.endPos) ∧
    (∃ (id : Nat) (b : Bench) (s : State), s.dev.stopped = false ∧ AMap.get? s.dev.face.benches id = some b ∧ b.state = .closed) ∧
    (∃ (id : Nat) (b : Bench) (s : State), s.dev.stopped = false ∧ AMap.get? s.dev.face.benches id = some b ∧ b.state ≠ .closed) ∧
    (∃ (die b : Nat) (x : Die) (s : State), s.dev.stopped = false ∧ AMap.get? s.dev.face.dies die = some x ∧ s.dev.blockState x b = .stale ∧
      x.state ≠ .failed ∧ x.state ≠ .absent ∧ (s.dev.takeSpare die).isSome = true) ∧
    (∃ (n : Nat) (s : State), s.dev.stopped = false ∧ s.dev.dieState n ≠ .absent ∧ s.dev.dieState n ≠ .failed ∧ s.dev.tick.items = [] ∧
      (∀ p ∈ s.dev.face.benches, ∀ m ∈ p.2.members, m.1 ≠ n)) ∧
    (∃ (n : Nat) (s : State), s.dev.stopped = false ∧ (s.dev.dieState n = .absent ∨ s.dev.dieState n = .failed)) ∧
    (∃ (c : Nat) (s : State), s.dev.stopped = false) :=
    ⟨⟨2, 0, 3, 1, 0, { datasetOf with extents := [1] }, { extentOf with loc := .native 0 none 0, length := 16384 },
      (up fun d => { d with face := { d.face with datasets := [(2, { datasetOf with extents := [1] })], extents := [(1, { extentOf with loc := .native 0 none 0, length := 16384 })], benches := [(0, { benchOf with state := .closed })] } }),
      by decide, by decide, by decide, by decide, by decide, by decide, by decide, by decide⟩,
     ⟨0, 11, { benchOf with state := .opened }, (up fun d => { d with face := { d.face with benches := [(0, { benchOf with state := .opened })] } }),
      by decide, by decide, by decide, by decide, by decide⟩,
     ⟨0, { benchOf with state := .closed }, (up fun d => { d with face := { d.face with benches := [(0, { benchOf with state := .closed })] } }),
      by decide, by decide, by decide⟩,
     ⟨0, { benchOf with state := .opened }, (up fun d => { d with face := { d.face with benches := [(0, { benchOf with state := .opened })] } }),
      by decide, by decide, by decide⟩,
     ⟨0, 0, { state := .inService, blocks := [(0, .stale)] },
      (up fun d => { d with face := { d.face with blocksPerPlane := 16, dies := [(0, { state := .inService, blocks := [(0, .stale)] })] } }),
      by decide, by decide, by decide, by decide, by decide, by decide⟩,
     ⟨0, (up fun d => { d with face := { d.face with dies := [(0, { state := .inService, blocks := [(0, .stale)] })] } }), by decide, by decide,
      by decide, by decide, by decide⟩,
     ⟨0, (up fun d => d), by decide, by decide⟩,
     ⟨127, (up fun d => d), by decide⟩⟩

/-- Inputs that meet the hypotheses of `Obligations.MediaProgress`. -/
theorem witness_MediaProgress :
    (∃ s : State, s.dev.stopped = false) ∧
    (∃ (n : Nat) (s : State), s.dev.stopped = false ∧ s.dev.bellows.slumber = false) ∧
    (∃ (n : Nat) (s : State), s.dev.stopped = false ∧ s.dev.bellows.slumber = true) ∧
    (∃ (n e : Nat) (t : Dataset) (x : Extent) (s : State), s.dev.stopped = false ∧ AMap.get? s.dev.face.datasets n = some t ∧
      t.openExtent = some e ∧ AMap.get? s.dev.face.extents e = some x ∧ x.dirty ≠ 0) ∧
    (∃ (e : Nat) (x : Extent) (d' : Dev) (s : State), s.dev.stopped = false ∧ e < 2 ^ 32 ∧ AMap.get? s.dev.face.extents e = some x ∧
      x.state ≠ .discarded ∧
      x.programmed = true ∧ s.dev.foldNext x = true ∧ (s.dev.losePages ((List.range (pagesOf x.length)).map (fun k => (e,
      k)))).settleExtent e x true = some d') ∧
    (∃ (k g : Nat) (w : Sweep) (s : State), s.dev.stopped = false ∧ s.dev.screen.sweeps.find? (fun y => y.table == k && y.gen == g) = some w) :=
    ⟨⟨(up fun d => d), by decide⟩,
     ⟨1, (up fun d => d), by decide, by decide⟩,
     ⟨1, (up fun d => { d with bellows := { d.bellows with slumber := true } }), by decide, by decide⟩,
     ⟨2, 1, { datasetOf with extents := [1], openExtent := some 1 }, { extentOf with dirty := 1 },
      (up fun d => { d with face := { d.face with datasets := [(2, { datasetOf with extents := [1], openExtent := some 1 })], extents := [(1, { extentOf with dirty := 1 })] } }),
      by decide, by decide, by decide, by decide, by decide⟩,
     ⟨1, foldExtent, (settleFold foldState.dev).get (by decide), foldState, by decide, by decide, by decide, by decide, by decide, by decide,
      (Option.some_get _).symm⟩,
     ⟨0, 4, { table := 0, gen := 4, stream := 1, epoch := 0 },
      (up fun d => { d with screen := { d.screen with sweeps := [{ table := 0, gen := 4, stream := 1, epoch := 0 }] } }), by decide, by decide⟩⟩

/-- Inputs that meet the hypotheses of `Obligations.LoadsAndDatasetsFinish`. -/
theorem witness_LoadsAndDatasetsFinish :
    (∃ (w : Window) (n slot f : Nat) (p q : Prog) (s : State), s.dev.stopped = false ∧ s.dev.progOf w.num n = some (slot, p) ∧ p.state = .loading ∧
      AMap.get? (s.dev.validateThrough p.loadSeq).progs slot = some q ∧ q.verdict = some (Status.success, f)) ∧
    (∃ (w : Window) (n slot f : Nat) (p q : Prog) (s : State), s.dev.stopped = false ∧ s.dev.progOf w.num n = some (slot, p) ∧ p.state = .loading ∧
      AMap.get? (s.dev.validateThrough p.loadSeq).progs slot = some q ∧ ∃ st : Status, q.verdict = some (st, f) ∧ st ≠ Status.success) ∧
    (∃ (w : Window) (n k : Nat) (x : ScrTable) (b : Build) (t : Ticket) (s : State), s.dev.stopped = false ∧ s.dev.buildOf w.num n = some (k, x,
      b) ∧ s.dev.ticketOf w.num n 0x0304 = some t ∧ b.built = false ∧ b.delete = true) ∧
    (∃ (k n : Nat) (x : ScrTable) (s : State), s.dev.stopped = false ∧ AMap.get? s.dev.screen.tables k = some x ∧
      x.retired.any (fun g => g.num == n) = true ∧ s.dev.isPinned k n = false) ∧
    (∃ (k n : Nat) (s : State), s.dev.stopped = false ∧ s.dev.isPinned k n = true) ∧
    (∃ (w : Window) (n e : Nat) (x : Extent) (s : State), s.dev.stopped = false ∧ s.dev.face.extents.find? (fun p => p.2.append == some (w.num,
      n)) = some (e, x) ∧ AMap.get? s.dev.face.extents e = some x ∧ (x.buffered || x.programmed) = true ∧ x.durable = false) ∧
    (∃ (w : Window) (n k dir cnt : Nat) (a : Nat × Nat) (t : Dataset) (s : State), s.dev.stopped = false ∧ s.dev.sealOf w.num n = some (k, t) ∧
      t.sealing = some (a.1, a.2, dir, cnt) ∧ AMap.get? s.dev.face.datasets k = some t ∧
      (s.dev.modDataset k (fun t => { t with sealing := none })).badDirectory t dir cnt = none) :=
    ⟨⟨.admin, 1, 3, 0, { Prog.loadingFor 0 false with ticket := some (1024, 1), verdict := some (Status.success, 0) },
      { Prog.loadingFor 0 false with ticket := some (1024, 1), verdict := some (Status.success, 0) },
      (up fun d => { d with progs := [(3, { Prog.loadingFor 0 false with ticket := some (1024, 1), verdict := some (Status.success, 0) })] }),
      by decide, by decide, by decide, by decide, by decide⟩,
     ⟨.admin, 1, 3, 0, { Prog.loadingFor 0 false with ticket := some (1024, 1), verdict := some (Status.programLimit, 0) },
      { Prog.loadingFor 0 false with ticket := some (1024, 1), verdict := some (Status.programLimit, 0) },
      (up fun d => { d with progs := [(3, { Prog.loadingFor 0 false with ticket := some (1024, 1), verdict := some (Status.programLimit, 0) })] }),
      by decide, by decide, by decide, by decide, Status.programLimit, by decide, by decide⟩,
     ⟨.admin, 1, 2,
      { kind := 0, current := none, build := some { gen := { num := 4, capacity := 1, dfltAction := 0, bandLog := 0, maxHamming := 0, rules := [], exact := [], near := [], bands := [], fresh := 0, freed := [] }, ticket := (1024, 1), built := false, delete := true, updates := [] }, retired := [], updates := [], fullPosted := false },
      { gen := { num := 4, capacity := 1, dfltAction := 0, bandLog := 0, maxHamming := 0, rules := [], exact := [], near := [], bands := [], fresh := 0, freed := [] }, ticket := (1024, 1), built := false, delete := true, updates := [] },
      ticketOf 1 0x0304,
      (up fun d => ({ d with screen := { d.screen with tables := [(2, { kind := 0, current := none, build := some { gen := { num := 4, capacity := 1, dfltAction := 0, bandLog := 0, maxHamming := 0, rules := [], exact := [], near := [], bands := [], fresh := 0, freed := [] }, ticket := (1024, 1), built := false, delete := true, updates := [] }, retired := [], updates := [], fullPosted := false })] } } : Dev).setWin 1024 { Win.init with tickets := [ticketOf 1 0x0304] }),
      by decide, by decide, by decide, by decide, by decide⟩,
     ⟨2, 4,
      { kind := 0, current := none, build := none, retired := [{ num := 4, capacity := 1, dfltAction := 0, bandLog := 0, maxHamming := 0, rules := [], exact := [], near := [], bands := [], fresh := 0, freed := [] }], updates := [], fullPosted := false },
      (up fun d => { d with screen := { d.screen with tables := [(2, { kind := 0, current := none, build := none, retired := [{ num := 4, capacity := 1, dfltAction := 0, bandLog := 0, maxHamming := 0, rules := [], exact := [], near := [], bands := [], fresh := 0, freed := [] }], updates := [], fullPosted := false })] } }),
      by decide, by decide, by decide, by decide⟩,
     ⟨2, 4, (up fun d => { d with streams := [(1, { streamOf with pins := [(2, 4)] })] }), by decide, by decide⟩,
     ⟨.admin, 1, 1, { extentOf with append := some (1024, 1), durable := false },
      (up fun d => { d with face := { d.face with extents := [(1, { extentOf with append := some (1024, 1), durable := false })] } }), by decide,
      by decide, by decide, by decide, by decide⟩,
     ⟨.admin, 1, 2, 32, 1, (1024, 1), { datasetOf with extents := [1], length := 48, sealing := some (1024, 1, 32, 1) },
      (up fun d => { d with face := { d.face with datasets := [(2, { datasetOf with extents := [1], length := 48, sealing := some (1024, 1, 32, 1) })], extents := [(1, { extentOf with length := 48, data := zeros 32 ++ (leBytes 8 0 ++ leBytes 4 32 ++ zeros 4) })] } }),
      by decide, by decide, by decide, by decide, by decide⟩⟩

/-- Inputs that meet the hypotheses of `Obligations.StreamsReplaysAndTenantsEnd`. -/
theorem witness_StreamsReplaysAndTenantsEnd :
    (∃ (sid : Nat) (a : Nat × Nat × Nat) (st : Stream) (s : State), s.dev.stopped = false ∧ s.dev.stream? sid = some st ∧ st.deleting = some a ∧
      s.dev.workRuns sid = false ∧ s.dev.group.replays.any (fun r => r.stream == sid) = false) ∧
    (∃ (sid w n t : Nat) (rest : List (Nat × Nat × Nat)) (st : Stream) (s : State), s.dev.stopped = false ∧ s.dev.closings sid = (w, n, t) :: rest ∧
      s.dev.stream? sid = some st ∧ s.dev.tick.count < t + 16) ∧
    (∃ (sid w n t : Nat) (rest : List (Nat × Nat × Nat)) (st : Stream) (s : State), s.dev.stopped = false ∧ s.dev.closings sid = (w, n, t) :: rest ∧
      s.dev.stream? sid = some st ∧ t + 16 ≤ s.dev.tick.count ∧ (∀ p ∈ st.samples, p.2.state ≠ .flight ∧ p.2.state ≠ .resident) ∧
      (∀ i ∈ s.dev.tick.items, i.ofStream sid = false)) ∧
    (∃ (sid w n t : Nat) (rest : List (Nat × Nat × Nat)) (st : Stream) (s : State), s.dev.stopped = false ∧ s.dev.closings sid = (w, n, t) :: rest ∧
      s.dev.stream? sid = some st ∧ ∃ e : Dev, (s.dev.assemble sid).epochComplete sid = e ∧ (∀ y, e.stream? sid = some y → y.state = .idle ∧
      y.cmds = [] ∧ y.log = none) ∧ (e.stream? sid).isSome = true ∧ e.workRuns sid = false) ∧
    (∃ (w : Window) (x : Tenant) (s : State), s.dev.stopped = false ∧ w.num ≠ adminWin ∧ AMap.get? s.dev.tenants w.num = some x ∧
      x.state = .enabled) ∧
    (∃ (vf : Nat) (x : Tenant) (s : State), s.dev.stopped = false ∧ AMap.get? s.dev.tenants vf = some x ∧ x.state = .enabled) ∧
    (∃ (t b : Nat) (x : Tenant) (y : Drain) (s : State), s.dev.stopped = false ∧ AMap.get? s.dev.tenants t = some x ∧ x.drain = some y ∧
      y.b0 = some b ∧ y.removing = false ∧ (s.dev.drainAudit? t).isSome = false ∧ s.dev.tick.count < b) ∧
    (∃ (t b : Nat) (x : Tenant) (y : Drain) (s : State), s.dev.stopped = false ∧ AMap.get? s.dev.tenants t = some x ∧ x.drain = some y ∧
      y.b0 = some b ∧ y.removing = false ∧ (s.dev.drainAudit? t).isSome = false ∧ (s.dev.tick.count = b ∨ s.dev.tick.count = b + 1)) ∧
    (∃ (t b : Nat) (x : Tenant) (y : Drain) (s : State), s.dev.stopped = false ∧ AMap.get? s.dev.tenants t = some x ∧ x.drain = some y ∧
      y.b0 = some b ∧ y.removing = false ∧ (s.dev.drainAudit? t).isSome = false ∧ s.dev.tick.count = b + 2) ∧
    (∃ (t b : Nat) (x : Tenant) (y : Drain) (s : State), s.dev.stopped = false ∧ AMap.get? s.dev.tenants t = some x ∧ x.drain = some y ∧
      y.b0 = some b ∧ y.removing = false ∧ (s.dev.drainAudit? t).isSome = false ∧ s.dev.tick.count = b + 3) ∧
    (∃ (t b : Nat) (x : Tenant) (y : Drain) (s : State), s.dev.stopped = false ∧ AMap.get? s.dev.tenants t = some x ∧ x.drain = some y ∧
      y.b0 = some b ∧ y.removing = false ∧ (s.dev.drainAudit? t).isSome = false ∧ b + 4 ≤ s.dev.tick.count) ∧
    (∃ (t : Nat) (x : Tenant) (y : Drain) (s : State), s.dev.stopped = false ∧ AMap.get? s.dev.tenants t = some x ∧ x.drain = some y ∧
      y.removing = true ∧ s.dev.datasetsBusy t = false) ∧
    (∃ (t : Nat) (x : Tenant) (y : Drain) (s : State), s.dev.stopped = false ∧ AMap.get? s.dev.tenants t = some x ∧ x.drain = some y ∧
      y.removing = false) ∧
    (∃ (sid : Nat) (r : Replay) (l : Log) (st : Stream) (s : State), s.dev.stopped = false ∧
      s.dev.group.replays.find? (fun r => r.stream == sid) = some r ∧ AMap.get? s.dev.group.logs r.log = some l ∧ r.aborted = true ∧
      s.dev.workRuns sid = false ∧ s.dev.stream? sid = some st ∧ st.deleting = none) ∧
    (∃ (sid : Nat) (r : Replay) (l : Log) (s : State), s.dev.stopped = false ∧ s.dev.group.replays.find? (fun r => r.stream == sid) = some r ∧
      AMap.get? s.dev.group.logs r.log = some l ∧ r.verdict l (s.dev.stream? sid) = none) :=
    ⟨⟨1, (1024, 1, 0), { streamOf with deleting := some (1024, 1, 0) },
      (up fun d => { d with streams := [(1, { streamOf with deleting := some (1024, 1, 0) })] }), by decide, by decide, by decide, by decide,
      by decide⟩,
     ⟨1, 1024, 1, 985, [],
      { streamOf with ingest := some { key := { udpPort := 1, vniMatch := false, portMask := 1, vni := 0 }, matching := false, nextSeq := 0, closing := [(1024, 1, 985)] } },
      (up fun d => { d with streams := [(1, { streamOf with ingest := some { key := { udpPort := 1, vniMatch := false, portMask := 1, vni := 0 }, matching := false, nextSeq := 0, closing := [(1024, 1, 985)] } })] }),
      by decide, by decide, by decide, by decide⟩,
     ⟨1, 1024, 1, 984, [],
      { streamOf with ingest := some { key := { udpPort := 1, vniMatch := false, portMask := 1, vni := 0 }, matching := false, nextSeq := 0, closing := [(1024, 1, 984)] } },
      (up fun d => { d with streams := [(1, { streamOf with ingest := some { key := { udpPort := 1, vniMatch := false, portMask := 1, vni := 0 }, matching := false, nextSeq := 0, closing := [(1024, 1, 984)] } })] }),
      by decide, by decide, by decide, by decide, by decide, by decide⟩,
     ⟨1, 1024, 1, 0, [],
      { streamOf with ingest := some { key := { udpPort := 1, vniMatch := false, portMask := 1, vni := 0 }, matching := false, nextSeq := 0, closing := [(1024, 1, 0)] } },
      (up fun d => { d with streams := [(1, { streamOf with ingest := some { key := { udpPort := 1, vniMatch := false, portMask := 1, vni := 0 }, matching := false, nextSeq := 0, closing := [(1024, 1, 0)] } })] }),
      by decide, by decide, by decide,
      (((up fun d => { d with streams := [(1, { streamOf with ingest := some { key := { udpPort := 1, vniMatch := false, portMask := 1, vni := 0 }, matching := false, nextSeq := 0, closing := [(1024, 1, 0)] } })] }).dev.assemble 1).epochComplete 1),
      by decide, by decide, by decide, by decide⟩,
     ⟨.tenant 1, Tenant.created none 0 0, (up fun d => { d with tenants := [(1, Tenant.created none 0 0)] }), by decide, by decide, by decide,
      by decide⟩,
     ⟨1, Tenant.created none 0 0, (up fun d => { d with tenants := [(1, Tenant.created none 0 0)] }), by decide, by decide, by decide⟩,
     ⟨1, 1001,
      { Tenant.created none 0 0 with state := .draining, drain := some { trigger := 0, tickets := [], b0 := some 1001, reservoirs := 0, total := none, removing := false } },
      { trigger := 0, tickets := [], b0 := some 1001, reservoirs := 0, total := none, removing := false },
      (up fun d => { d with tenants := [(1, { Tenant.created none 0 0 with state := .draining, drain := some { trigger := 0, tickets := [], b0 := some 1001, reservoirs := 0, total := none, removing := false } })] }),
      by decide, by decide, by decide, by decide, by decide, by decide, by decide⟩,
     ⟨1, 1000,
      { Tenant.created none 0 0 with state := .draining, drain := some { trigger := 0, tickets := [], b0 := some 1000, reservoirs := 0, total := none, removing := false } },
      { trigger := 0, tickets := [], b0 := some 1000, reservoirs := 0, total := none, removing := false },
      (up fun d => { d with tenants := [(1, { Tenant.created none 0 0 with state := .draining, drain := some { trigger := 0, tickets := [], b0 := some 1000, reservoirs := 0, total := none, removing := false } })] }),
      by decide, by decide, by decide, by decide, by decide, by decide, by decide⟩,
     ⟨1, 998,
      { Tenant.created none 0 0 with state := .draining, drain := some { trigger := 0, tickets := [], b0 := some 998, reservoirs := 0, total := none, removing := false } },
      { trigger := 0, tickets := [], b0 := some 998, reservoirs := 0, total := none, removing := false },
      (up fun d => { d with tenants := [(1, { Tenant.created none 0 0 with state := .draining, drain := some { trigger := 0, tickets := [], b0 := some 998, reservoirs := 0, total := none, removing := false } })] }),
      by decide, by decide, by decide, by decide, by decide, by decide, by decide⟩,
     ⟨1, 997,
      { Tenant.created none 0 0 with state := .draining, drain := some { trigger := 0, tickets := [], b0 := some 997, reservoirs := 0, total := none, removing := false } },
      { trigger := 0, tickets := [], b0 := some 997, reservoirs := 0, total := none, removing := false },
      (up fun d => { d with tenants := [(1, { Tenant.created none 0 0 with state := .draining, drain := some { trigger := 0, tickets := [], b0 := some 997, reservoirs := 0, total := none, removing := false } })] }),
      by decide, by decide, by decide, by decide, by decide, by decide, by decide⟩,
     ⟨1, 996,
      { Tenant.created none 0 0 with state := .draining, drain := some { trigger := 0, tickets := [], b0 := some 996, reservoirs := 0, total := none, removing := false } },
      { trigger := 0, tickets := [], b0 := some 996, reservoirs := 0, total := none, removing := false },
      (up fun d => { d with tenants := [(1, { Tenant.created none 0 0 with state := .draining, drain := some { trigger := 0, tickets := [], b0 := some 996, reservoirs := 0, total := none, removing := false } })] }),
      by decide, by decide, by decide, by decide, by decide, by decide, by decide⟩,
     ⟨1,
      { Tenant.created none 0 0 with state := .draining, drain := some { trigger := 0, tickets := [], b0 := some 0, reservoirs := 0, total := none, removing := true } },
      { trigger := 0, tickets := [], b0 := some 0, reservoirs := 0, total := none, removing := true },
      (up fun d => { d with tenants := [(1, { Tenant.created none 0 0 with state := .draining, drain := some { trigger := 0, tickets := [], b0 := some 0, reservoirs := 0, total := none, removing := true } })] }),
      by decide, by decide, by decide, by decide, by decide⟩,
     ⟨1,
      { Tenant.created none 0 0 with state := .draining, drain := some { trigger := 0, tickets := [], b0 := some 0, reservoirs := 0, total := none, removing := false } },
      { trigger := 0, tickets := [], b0 := some 0, reservoirs := 0, total := none, removing := false },
      (up fun d => { d with tenants := [(1, { Tenant.created none 0 0 with state := .draining, drain := some { trigger := 0, tickets := [], b0 := some 0, reservoirs := 0, total := none, removing := false } })] }),
      by decide, by decide, by decide, by decide⟩,
     ⟨1, { log := 2, stream := 1, startTick := 0, matched := 0, diverged := none, missing := false, aborted := true, done := false }, logOf,
      streamOf,
      (up fun d => { d with streams := [(1, streamOf)], group := { d.group with logs := [(2, logOf)], replays := [{ log := 2, stream := 1, startTick := 0, matched := 0, diverged := none, missing := false, aborted := true, done := false }] } }),
      by decide, by decide, by decide, by decide, by decide, by decide, by decide⟩,
     ⟨1, { log := 2, stream := 1, startTick := 0, matched := 0, diverged := none, missing := false, aborted := false, done := false }, logOf,
      (up fun d => { d with streams := [(1, streamOf)], group := { d.group with logs := [(2, logOf)], replays := [{ log := 2, stream := 1, startTick := 0, matched := 0, diverged := none, missing := false, aborted := false, done := false }] } }),
      by decide, by decide, by decide, by decide⟩⟩

/-- Inputs that meet the hypotheses of `Obligations.ConfigurationIsWritten`. -/
theorem witness_ConfigurationIsWritten :
    (∃ (w : Window) (n : Nat) (t : Ticket) (s : State), s.dev.stopped = false ∧ s.dev.ticketOf w.num n 0x0902 = some t ∧
      cfgImageOk t.data = true ∧
      s.dev.configReady w.num n true = false ∧ s.dev.hearth.cfgInUse = none) ∧
    (∃ (w : Window) (n : Nat) (t : Ticket) (s : State), s.dev.stopped = false ∧ s.dev.ticketOf w.num n 0x0902 = some t ∧
      s.dev.configReady w.num n true = true) ∧
    (∃ (w : Window) (n : Nat) (t : Ticket) (s : State), s.dev.stopped = false ∧ s.dev.ticketOf w.num n 0x0902 = some t ∧ cfgImageOk t.data = false) ∧
    (∃ (slot : Nat) (commit : Bool) (s : State), s.dev.stopped = false ∧ s.dev.boot.activation = some (slot, commit)) ∧
    (∃ (fn : Nat) (s : State), s.dev.stopped = false) ∧
    (∃ (vf : Nat) (s : State), s.dev.stopped = false) :=
    ⟨⟨.admin, 1, writeOf imageOf, readyOf, by decide, by decide, imageOf_ok, readyOf_stays, by decide⟩,
     ⟨.admin, 1, writeOf imageOf, holdOf, by decide, by decide, holdOf_ready⟩,
     ⟨.admin, 1, writeOf [], (up fun d => d.setWin 1024 { Win.init with tickets := [writeOf []] }), by decide, by decide, by decide⟩,
     ⟨1, true, (up fun d => { d with boot := { d.boot with activation := some (1, true) } }), by decide, by decide⟩,
     ⟨1024, (up fun d => d), by decide⟩,
     ⟨1023, (up fun d => d), by decide⟩⟩

def progOf : Prog :=
  { state := .loaded, tenant := 0, requireExact := false, ticket := none, format := 0x0100, ops := [], consts := [], models := [], placement := [],
    digest := zeros 32, tag := 0, minPeriod := 0, bounding := false, exactCapable := true, pages := 0, loadTick := 0, binary := [], loadSeq := 0,
    verdict := none }

/-- A loaded program of tenant 0 in slot 3, with an event ring and version 1.0 negotiated in the administrative window. -/
def progSlotState : State :=
  { up (fun d => { d with tenants := [(0, Tenant.created none 0 0)], progs := [(3, progOf)] }.setWin 1024 { Win.init with ring := some 4096 }) with
    hdr := [(1024, 0x100)] }

/-- Inputs for the clause of `Obligations.AcceptedDoorbellCompletes` about a command that takes a ticket. -/
theorem witness_AcceptedDoorbellCompletes_ticketed :
    ∃ (i : Instr) (c : Cmd) (w : Window) (r : Request) (s : State), doorbellOf i = some (c, w, r) ∧ s.dev.stopped = false ∧
      (s.dev.win w.num).state ≠ .busy ∧ s.dev.hearth.state ≠ .boot ∧ s.dev.hearth.state ≠ .recovery ∧
      c.refusal (s.dev.taken c w r) { w := w.num, v := s.version w.num, r := r } = none ∧ c.ticketed = true :=
  ⟨.programUnload .admin (reqOf 8 (leBytes 2 3 ++ zeros 6)), cmdProgramUnload, .admin, reqOf 8 (leBytes 2 3 ++ zeros 6), progSlotState, rfl,
    by decide, by decide, by decide, by decide, by decide, by decide⟩

/-! Terms that the checks of WellFormed refuse, one for each check, beside one that they take. -/

theorem smoke_request_takes : (reqOf 16 (zeros 16)).wf = true := by decide
theorem smoke_request_tag : { reqOf 16 (zeros 16) with tag := 65536 }.wf = false := by decide
theorem smoke_request_len : (reqOf 65536 []).wf = false := by decide
theorem smoke_request_sgl_count : { reqOf 16 (zeros 16) with sglCount := 1 }.wf = false := by decide
theorem smoke_request_sgl_addr : { reqOf 16 (zeros 16) with sglAddr := 2 ^ 64 }.wf = false := by decide
theorem smoke_sgl_entry : (SglEntry.wf { addr := 0, len := 2 ^ 32, rsv := 0 }) = false := by decide
theorem smoke_ticket : (Instr.programLoadDone .admin (2 ^ 32)).wf = false := by decide
theorem smoke_tenant : (Instr.gateListTakesEffect 1024).wf = false := by decide
theorem smoke_tenant_or_device : (Instr.drop 0 0 1025).wf = false := by decide
theorem smoke_class : (Instr.drop 0 256 1024).wf = false := by decide
theorem smoke_handle : (Instr.drop (2 ^ 64) 0 1024).wf = false := by decide
theorem smoke_reservoir : (Instr.rdmaAck 0 256).wf = false := by decide
theorem smoke_stream : (Instr.replayEnd (2 ^ 20)).wf = false := by decide
theorem smoke_port : (Instr.portLinkLoss 4).wf = false := by decide
theorem smoke_peer : (Instr.peerProbe 256).wf = false := by decide
theorem smoke_die : (Instr.dieFailed 1024).wf = false := by decide
theorem smoke_channel : (Instr.channelRetrainFail 64).wf = false := by decide
theorem smoke_member : (Instr.programFail 0 16).wf = false := by decide
theorem smoke_dataset : (Instr.openExtentClose 65536).wf = false := by decide
theorem smoke_i3c : (Instr.setdasa 128).wf = false := by decide
theorem smoke_slot : (Instr.hubRead 0 163840).wf = false := by decide
theorem smoke_line : (Instr.hubWrite 0 0 1 []).wf = false := by decide
theorem smoke_mask : (Instr.hubWrite 0 0 (2 ^ 256) (zeros 256)).wf = false := by decide
theorem smoke_context : (Instr.compressorEnd 512).wf = false := by decide
theorem smoke_access_width : (Instr.registerWrite .bar0 0 24 0).wf = false := by decide
theorem smoke_access_value : (Instr.registerWrite .bar0 0 8 256).wf = false := by decide
theorem smoke_register_value : (Instr.evtHeadWrite .admin (2 ^ 64)).wf = false := by decide
theorem smoke_frame : (Instr.arpRequest 0 (zeros 9217)).wf = false := by decide +kernel
theorem smoke_tick_frame : (Instr.tickBusFrame (zeros 11)).wf = false := by decide
theorem smoke_message : (Instr.readReq 0 (zeros 63)).wf = false := by decide
theorem smoke_audit : (Instr.tongsAuditDone (.drain 1024)).wf = false := by decide
theorem smoke_qp_reservoir : (Instr.congestionIncrease (.reservoir 1024 0)).wf = false := by decide
theorem smoke_qp_peer : (Instr.congestionIncrease (.peer 256)).wf = false := by decide
theorem smoke_temperatures : (Instr.tickBoundary boundaryNone).wf = false := by decide
theorem smoke_bringup_channels : (Instr.powerOn { foundNone with channels := [64] }).wf = false := by decide
theorem smoke_bringup_dies : (Instr.powerOn { foundNone with dies := [1024] }).wf = false := by decide
theorem smoke_bringup_strap : (Instr.powerOn { foundNone with tickPos := 16 }).wf = false := by decide
theorem smoke_pmbus : (Instr.pmbusRead []).wf = false := by decide
theorem smoke_rail : (Instr.railFault 20).wf = false := by decide
theorem smoke_sensor : (Instr.quenchTrip 0 256).wf = false := by decide
theorem smoke_hub_die : (Instr.quenchTrip 9 0).wf = false := by decide
theorem smoke_nvme : (Instr.nvmeFlush { nvmeOf with cid := 65536 }).wf = false := by decide
theorem smoke_mctp_seq : (Instr.getEndpointId { mctpOf [] with seq := 4 }).wf = false := by decide
theorem smoke_mctp_body : (Instr.getEndpointId (mctpOf (zeros 65))).wf = false := by decide
theorem smoke_move : (MoveRec.wf { elem := 0, counts := [1], src := 0, srcPitch := [], dst := 0, dstPitch := [4] }) = false := by decide
theorem smoke_unit : (Instr.limpProbe (8 * 65536)).wf = false := by decide
theorem smoke_vf : (Instr.sriovVfEnable 1024).wf = false := by decide
theorem smoke_function : (Instr.busMasterEnableChange 1025 true).wf = false := by decide
theorem smoke_opcode : (Instr.opcodeUnknown .admin 65536 (reqOf 0 [])).wf = false := by decide
theorem smoke_recovery_code : (Instr.badCode 256).wf = false := by decide

/-! Worked examples of the manual, with the numbers that the manual gives. -/

/-- File 05, worked example: HELLO of a client that speaks 1.0 to 1.0 answers 1.0. -/
theorem test_hello_negotiates :
    (match exec (.hello .admin (reqOf 16 (leBytes 2 0x100 ++ leBytes 2 0x100 ++ zeros 12))) (up fun d => d) with
      | .next t => AMap.get? t.hdr 1024
      | _ => none) = some 0x100 := by decide

/-- File 04, Hearth mailbox, the clamped parameters: 70,000 asked of a parameter up to 65,535, and 1,000 asked of one with steps of 16 from 512. -/
theorem test_set_param_clamps : clampParam 70000 0 65535 1 = 65535 ∧ clampParam 1000 512 16384 16 = 992 := by decide

/-- File 05, the cost of the decode of a 352 × 300 image: 88,000 ns. File 07, the cost of a container of 40,160 bytes: 5,021 ns. -/
theorem test_predicted_costs : predictNs 54613 (105600, 1000) = 88000 ∧ predictNs 8389 (40160, 1024) = 5021 := by decide +kernel

def codesOf : List Nat :=
  [0x21, 0x37, 0xF0, 0x58, 0x4A, 0xC6, 0x19, 0x2E, 0x33, 0x7B, 0x0D, 0x65, 0xA2, 0x14, 0x8F, 0x36].flatMap (fun b => [b % 16, b / 16])

/-- File 10, the block and its dot product: 0xBF60_0000. -/
theorem test_mx_dot_product :
    mxReadout 0 [{ sa := 0x7D, sb := 0x80,
                   elems := (codesOf.zip (List.replicate 4 [2, 4, 1, 0xA, 3, 0, 5, 9]).flatten).map (fun p => (mxElem 0 p.1, mxElem 0 p.2)) }] =
      0xBF600000 := by decide +kernel

/-- A block of FP4 whose first element has code `c` on both sides and whose other elements are zero. -/
def loneBlock (scale c : Nat) : MxBlock :=
  { sa := scale, sb := scale, elems := (mxElem 0 c, mxElem 0 c) :: List.replicate 31 (mxElem 0 0, mxElem 0 0) }

/-- File 10, why the order no longer matters: 0x4B80_0002 whatever the place of the great block. -/
theorem test_mx_order :
    mxReadout 0 [loneBlock 0x89 6, loneBlock 0x7F 2, loneBlock 0x7F 2, loneBlock 0x7F 2] = 0x4B800002 ∧
      mxReadout 0 [loneBlock 0x7F 2, loneBlock 0x7F 2, loneBlock 0x7F 2, loneBlock 0x89 6] = 0x4B800002 := by decide +kernel

/-- File 12, the capacity applied to a request of 50,000,000 entries. -/
theorem test_table_capacity : clampParam 50000000 65536 2147483648 65536 = 50003968 := by decide +kernel

/-- File 15, a batch across the end of the ring: 3,145,728 bytes are left before a billet of 4,194,304. -/
theorem test_ring_wrap : ringLeft 268435456 1070596096 = 3145728 ∧ wrapSkip 268435456 1070596096 4194304 = 3145728 := by decide +kernel

/-- File 08, the header of a stored block container: its magic comes first. -/
theorem test_brc_magic : (bcbHeader 16).take 3 = [0x42, 0x43, 0x42] := by decide +kernel

/-- R82: a device without a tenant is HALTED at once; one that a tenant is drained from is not yet. -/
theorem test_lockstep_halts :
    (match exec .lockstepMismatch (up fun d => d) with | .next t => t.dev.hearth.state | _ => .ready) = .halted ∧
    (match exec .lockstepMismatch (up fun d => { d with tenants := [(0, Tenant.created none 0 0)] }) with
      | .next t => (t.dev.hearth.state, t.dev.hearth.halting) | _ => (.boot, false)) = (.ready, true) := by decide +kernel

end Sys2Proof.Tests
end

section
/-!
PROOFS. Doorbells that are discarded: what `exec` answers to one whose request is not accepted, and what is left of one that finds its window BUSY.
-/
namespace Sys2Proof.Proofs

open Sys2Proof.Machine Sys2Proof.Laws

/-- Of two writes to the same key the second alone stands. -/
@[simp] theorem amap_set_set_same {α : Type} (m : AMap α) (k : Nat) (v v' : α) : AMap.set (AMap.set m k v) k v' = AMap.set m k v' := by
  induction m with
  | nil => simp [AMap.set]
  | cons p rest ih =>
    obtain ⟨j, x⟩ := p
    by_cases hlt : k < j
    · simp [AMap.set, hlt]
    · by_cases heq : j = k
      · simp [AMap.set, heq]
      · simp [AMap.set, hlt, heq, ih]

@[simp] theorem setWin_setWin_same (d : Dev) (w : Nat) (x x' : Win) : (d.setWin w x).setWin w x' = d.setWin w x' := by
  simp [Dev.setWin]

/-- Two changes of one window are their composition. -/
theorem modWin_modWin_same (d : Dev) (w : Nat) (f g : Win → Win) : (d.modWin w f).modWin w g = d.modWin w (fun x => g (f x)) := by
  rw [Dev.modWin, win_modWin_same]
  exact setWin_setWin_same d w _ _

/-- R138: what the host writes into the request area of a BUSY window is discarded. -/
theorem writeRequest_busy (d : Dev) (w opcode : Nat) (r : Request) (hb : (d.win w).state = .busy) :
    d.writeRequest w opcode r = d.modWin w id := by
  simp [Dev.writeRequest, Dev.modWin, hb]

theorem doorbell_busy (c : Cmd) (d : Dev) (w v : Nat) (r : Request) (h : d.stopped = false) (hb : (d.win w).state = .busy) :
    c.doorbell d w v r = d.modWin w (fun y => { y with ignored := true }) := by
  rw [doorbell_discarded c d w v r h (Or.inl hb), writeRequest_busy d w c.opcode r hb, modWin_modWin_same]
  rfl

theorem helloHdr_not_accepted (hdr : AMap Nat) (d : Dev) (w : Nat) (r : Request) (ha : cmdHello.accepts d w (AMap.getD hdr w 0) r = false) :
    helloHdr hdr d w r = hdr := if_neg (Bool.eq_false_iff.1 ha)

theorem enableHdr_not_accepted (hdr : AMap Nat) (d : Dev) (w : Nat) (r : Request)
    (ha : cmdFunctionEnable.accepts d w (AMap.getD hdr w 0) r = false) : enableHdr hdr d w r = hdr := if_neg (Bool.eq_false_iff.1 ha)

/-- Only an accepted request negotiates a version or ends one (R141, R157, R539), so a doorbell whose request is not accepted acts on the device alone. -/
theorem exec_doorbell_not_accepted (i : Instr) (c : Cmd) (w : Window) (r : Request) (s : State) (hi : doorbellOf i = some (c, w, r))
    (ha : c.accepts s.dev w.num (s.version w.num) r = false) : exec i s = s.onDoorbell c w r := by
  cases i
  case hello =>
    cases hi
    rw [exec_hello, helloHdr_not_accepted s.hdr s.dev w.num r ha]
    rfl
  case functionEnable =>
    cases hi
    rw [exec_functionEnable, enableHdr_not_accepted s.hdr s.dev w.num r ha]
    rfl
  case topologyAck =>
    cases hi
    rw [exec_topologyAck, if_neg (Bool.eq_false_iff.1 ha)]
    rfl
  all_goals cases hi
  all_goals rfl

/-- Settles O6: the doorbell is not accepted, so nothing but the device can change, and of the device only DOORBELL_IGNORED of the window. -/
theorem busyDoorbellIgnored : Obligations.BusyDoorbellIgnored := by
  unfold Obligations.BusyDoorbellIgnored
  intro i c w r s hi hrun hb
  have hexec : exec i s = s.onDoorbell c w r :=
    exec_doorbell_not_accepted i c w r s hi (accepts_discarded c s.dev w.num (s.version w.num) r (Or.inl hb))
  have hdev : c.doorbell s.dev w.num (s.version w.num) r = s.dev.modWin w.num (fun y => { y with ignored := true }) :=
    doorbell_busy c s.dev w.num (s.version w.num) r hrun hb
  refine ⟨{ s with dev := s.dev.modWin w.num (fun y => { y with ignored := true }) }, ?_, rfl, rfl, rfl, rfl⟩
  rw [hexec, ← hdev]
  rfl

end Sys2Proof.Proofs
end

section
namespace Sys2Proof.Proofs

open Sys2Proof.Machine Sys2Proof.Laws

/-- What a command may do to the negotiated versions: leave them, forget all of them or those of the windows or that of one window, or note one that
the device speaks under the number of a window or of the sideband (R141, R143, R156, R157, R662). -/
inductive HdrStep (hdr : AMap Nat) : AMap Nat → Prop
  | kept : HdrStep hdr hdr
  | reset : HdrStep hdr []
  | windows : HdrStep hdr (windowsReset hdr)
  | forgotten (k : Nat) : HdrStep hdr (AMap.del hdr k)
  | negotiated (k v : Nat) (hk : k ≤ 1025) (hv : v ∈ hcpVersions) : HdrStep hdr (AMap.set hdr k v)

theorem Window.num_le (w : Window) : w.num ≤ 1024 := by
  cases w with
  | admin => exact Nat.le_refl 1024
  | tenant t => exact Nat.le_of_lt t.isLt

/-- R156: what HELLO chooses is one of the versions that the device speaks. -/
theorem chooseVersion_spoken (lo hi v : Nat) (h : chooseVersion lo hi = some v) : v ∈ hcpVersions := by
  have hv : v ∈ hcpSpoken := List.mem_of_find?_eq_some h
  have hsub : ∀ u ∈ hcpSpoken, u ∈ hcpVersions := by decide
  exact hsub v hv

theorem HdrStep.ite {hdr a b : AMap Nat} (p : Prop) [Decidable p] (ha : HdrStep hdr a) (hb : HdrStep hdr b) : HdrStep hdr (if p then a else b) := by
  split
  · exact ha
  · exact hb

theorem hdrStep_hello (hdr : AMap Nat) (d : Dev) (w : Window) (r : Request) : HdrStep hdr (helloHdr hdr d w.num r) := by
  refine HdrStep.ite _ ?_ .kept
  split
  · rename_i v hv
    exact .negotiated _ v (Nat.le_succ_of_le (Window.num_le w)) (chooseVersion_spoken _ _ v hv)
  · exact .kept

theorem sideVersion_spoken (d : Dev) (b : List Byte) (v : Nat) (h : d.sideVersion b = some v) : v ∈ hcpVersions := by
  unfold Dev.sideVersion at h
  split at h
  · exact absurd h (by simp)
  · exact chooseVersion_spoken _ _ v h

theorem hdrStep_vendor (hdr : AMap Nat) (d : Dev) (p : MctpPacket) : HdrStep hdr (vendorHdr hdr d p) := by
  refine HdrStep.ite _ .kept ?_
  split
  · split
    · rename_i v hv
      exact .negotiated sideKey v (Nat.le_refl 1025) (sideVersion_spoken _ _ v hv)
    · exact .kept
  · exact .kept

/-- An outcome that goes on, leaves the queue alone, and does one of the allowed things to the negotiated versions. -/
def Answers (s : State) (o : Out) : Prop := ∃ t, o = .next t ∧ t.pending = s.pending ∧ HdrStep s.hdr t.hdr

theorem answers_onDev (s : State) (f : Dev → Dev) : Answers s (s.onDev f) := ⟨_, rfl, rfl, .kept⟩

theorem answers_same (s : State) : Answers s (.next s) := ⟨_, rfl, rfl, .kept⟩

theorem answers_reset (s : State) (d : Dev) : Answers s (.next { s with hdr := [], dev := d }) := ⟨_, rfl, rfl, .reset⟩

theorem Answers.ite {s : State} {a b : Out} (p : Prop) [Decidable p] (ha : Answers s a) (hb : Answers s b) : Answers s (if p then a else b) := by
  split
  · exact ha
  · exact hb

theorem answers_onReset (s : State) (p : Dev → Bool) (f : Dev → Dev) : Answers s (s.onReset p f) :=
  .ite _ (answers_reset s _) (answers_same s)

/-- What any command answers: most act on the device alone; negotiation, the commands that end one, and the resets touch the versions as well. -/
theorem exec_answers (i : Instr) (s : State) : Answers s (exec i s) := by
  cases i
  case hello w r => exact ⟨_, rfl, rfl, hdrStep_hello s.hdr s.dev w r⟩
  case functionEnable w r => exact ⟨_, rfl, rfl, .ite _ (.forgotten _) .kept⟩
  case configWriteDone w n ok => exact ⟨_, rfl, rfl, .ite _ .windows .kept⟩
  case topologyAck w r => exact ⟨_, rfl, rfl, .ite _ .windows .kept⟩
  case vendorDefinedMessage p => exact ⟨_, rfl, rfl, hdrStep_vendor s.hdr s.dev p⟩
  case opcodeUnknown w op r => exact .ite _ (answers_same s) (answers_onDev s _)
  case powerOn f => exact exec_powerOn f s ▸ answers_onReset s _ _
  case resetLAssert f => exact exec_resetLAssert f s ▸ answers_onReset s _ _
  case perstL f => exact exec_perstL f s ▸ answers_onReset s _ _
  case holdupFlushDone f => exact .ite _ (answers_same s) (.ite _ ⟨_, rfl, rfl, .kept⟩ (answers_reset s _))
  case loadFw image ok f => exact .ite _ (answers_reset s _) (answers_onDev s _)
  case reset f => exact .ite _ (answers_reset s _) (answers_onDev s _)
  case forceRecovery f => exact .ite _ (answers_reset s _) (answers_onDev s _)
  all_goals exact ⟨_, rfl, rfl, .kept⟩

/-- Every one of those steps keeps the versions well formed. -/
theorem hdrStep_keeps (s t : State) (hok : HdrOk s) (h : HdrStep s.hdr t.hdr) : HdrOk t := by
  obtain ⟨hsorted, hall⟩ := hok
  unfold HdrOk
  generalize t.hdr = hdr' at h
  cases h with
  | kept => exact ⟨hsorted, hall⟩
  | reset => exact ⟨List.Pairwise.nil, fun p hp => absurd hp List.not_mem_nil⟩
  | windows => exact ⟨amap_keep_sorted _ _ hsorted, fun p hp => hall p (List.mem_filter.1 hp).1⟩
  | forgotten k => exact ⟨amap_del_sorted _ _ hsorted, fun p hp => hall p (List.mem_filter.1 hp).1⟩
  | negotiated k v hk hv =>
    refine ⟨amap_set_sorted _ _ _ hsorted, fun p hp => ?_⟩
    rcases amap_set_mem _ _ _ _ hp with rfl | hp
    · exact ⟨hk, hv⟩
    · exact hall p hp

/-- Settles O3: a step is the command at the front of the queue, and every command keeps the versions. -/
theorem negotiatedVersionsAreSpoken : Obligations.NegotiatedVersionsAreSpoken := by
  unfold Obligations.NegotiatedVersionsAreSpoken
  intro s t hok hstep
  unfold step at hstep
  split at hstep
  · cases hstep
    exact hok
  · rename_i c rest _
    obtain ⟨u, hu, -, hhdr⟩ := exec_answers c { s with pending := rest }
    rw [hu] at hstep
    cases hstep
    exact hdrStep_keeps s t hok hhdr

/-- Settles O1: both clauses are the two branches of `step`. -/
theorem stepTakesTheFrontCommand : Obligations.StepTakesTheFrontCommand := by
  unfold Obligations.StepTakesTheFrontCommand
  refine ⟨fun c rest s hp => ?_, fun s hp => ?_⟩
  · unfold step
    rw [hp]
  · unfold step
    rw [hp]

/-- Settles O2. -/
theorem everyCommandCompletes : Obligations.EveryCommandCompletes := by
  unfold Obligations.EveryCommandCompletes
  intro c s
  obtain ⟨t, ht, hp, -⟩ := exec_answers c s
  exact ⟨t, ht, hp⟩

end Sys2Proof.Proofs
end

section
namespace Sys2Proof.Proofs

open Sys2Proof.Machine Sys2Proof.Laws

/-! What is left of a command while the device is stopped: one lemma for each shape that a meaning has. -/

theorem exec_doorbell_stopped (i : Instr) (c : Cmd) (w : Window) (r : Request) (s : State) (hi : doorbellOf i = some (c, w, r))
    (h : s.dev.stopped = true) : exec i s = .next s := by
  rw [exec_doorbell_not_accepted i c w r s hi (accepts_stopped c s.dev w.num (s.version w.num) r h)]
  exact onDoorbell_stopped s c w r h

theorem next_running_stopped (s : State) (e : Dev) (h : s.dev.stopped = true) :
    (.next { s with dev := if s.dev.stopped then s.dev else e } : Out) = .next s := by
  rw [if_pos h]

theorem next_onRec_stopped (s : State) (always : Bool) (f : Dev → Dev) (h : s.dev.stopped = true) :
    (.next { s with dev := s.dev.onRec always f } : Out) = .next s := by
  rw [Dev.onRec, if_pos h]

theorem next_onNvme_stopped (s : State) (c : NvmeRequest) (io : Bool) (f : Dev → Dev) (h : s.dev.stopped = true) :
    (.next { s with dev := s.dev.onNvme c io f } : Out) = .next s := by
  simp [Dev.onNvme, h]

theorem recServes_stopped (d : Dev) (always : Bool) (h : d.stopped = true) : d.recServes always = false := by
  simp [Dev.recServes, h]

theorem recLoads_stopped (d : Dev) (image : List Byte) (ok : Bool) (h : d.stopped = true) : d.recLoads image ok = false := by
  simp [Dev.recLoads, recServes_stopped d false h]

theorem configReady_stopped (d : Dev) (w n : Nat) (ok : Bool) (h : d.stopped = true) : d.configReady w n ok = false := by
  unfold Dev.configReady
  split
  · rfl
  · simp [h]

/-- Settles O5: a doorbell is not taken up, an event of the hardware finds no clock, and the two ports and PF0 serve nothing. -/
theorem stoppedDeviceDoesNothing : Obligations.StoppedDeviceDoesNothing := by
  unfold Obligations.StoppedDeviceDoesNothing
  intro c s h hacts
  cases c
  case configWriteDone w n ok =>
    rw [exec_configWriteDone, configReady_stopped _ _ _ _ h]
    exact next_running_stopped s _ h
  case vendorDefinedMessage p =>
    have hv : vendorHdr s.hdr s.dev p = s.hdr := if_pos (by simp [h])
    rw [exec_vendorDefinedMessage, hv]
    exact next_running_stopped s _ h
  case opcodeUnknown w op r =>
    rw [exec_opcodeUnknown, onDoorbell_stopped _ _ _ _ h]
    exact ite_self _
  case perstL f => exact if_neg (by simp [h])
  case loadFw image ok f =>
    rw [exec_loadFw, recLoads_stopped _ _ _ h]
    exact next_onRec_stopped s _ _ h
  case reset f =>
    rw [exec_reset, recServes_stopped _ _ h]
    exact next_onRec_stopped s _ _ h
  case forceRecovery f =>
    rw [exec_forceRecovery, recServes_stopped _ _ h]
    exact next_onRec_stopped s _ _ h
  case badCode code =>
    rw [exec_badCode]
    exact onDev_eq s _ (by simp [Dev.onRec, h])
  case readLog | factoryDefaults | sanitize => exact next_onRec_stopped s _ _ h
  case nvmeCreateIoSq | nvmeCreateIoCq | nvmeDeleteIoSq | nvmeDeleteIoCq | getLogPage | identify | abort | setFeatures | getFeatures
      | asynchronousEventRequest | deviceSelfTest | nvmeSanitize | nvmeFlush | nvmeWrite | nvmeRead | writeZeroes | datasetManagement
      | nvmeInvalidOpcode => exact next_onNvme_stopped s _ _ _ h
  case powerOn | resetLAssert | pfailLFall | pfailLRise | holdupFlushDone | railFault | quenchTrip | standbyPowerLoss | bypass | idcode
      | samplePreload | extest => exact absurd hacts (by simp [actsWhenStopped])
  case hello w r => exact exec_doorbell_stopped _ cmdHello w r s rfl h
  case functionEnable w r => exact exec_doorbell_stopped _ cmdFunctionEnable w r s rfl h
  case topologyAck w r => exact exec_doorbell_stopped _ cmdTopologyAck w r s rfl h
  all_goals exact next_running_stopped s _ h

end Sys2Proof.Proofs
end

section
namespace Sys2Proof.Proofs

open Sys2Proof.Machine Sys2Proof.Laws

/-! ### Counters -/

@[simp] theorem counter_count_same (d : Dev) (id idx n : Nat) (h : 0 < n) :
    (d.count id idx n).counter id idx = min counterMax (d.counter id idx + n) := by
  rw [Dev.count, if_neg (Nat.ne_of_gt h)]
  exact amap_getD_set_same _ _ _ _

theorem counter_of_counters {d e : Dev} (h : e.hearth.counters = d.hearth.counters) (id idx : Nat) : e.counter id idx = d.counter id idx := by
  rw [Dev.counter, Dev.counter, h]

/-! ### A doorbell that is taken up -/

/-- `d'` differs from `d` at most in its mailbox windows, its outputs, and whether it is woken from Slumber. -/
theorem wakeUp_frame (d : Dev) : d.wakeUp = { d with bellows := d.wakeUp.bellows } := by
  unfold Dev.wakeUp
  split <;> rfl

section wakeUp
variable (d : Dev)
@[simp] theorem wakeUp_hearth : d.wakeUp.hearth = d.hearth := by rw [wakeUp_frame]
@[simp] theorem wakeUp_tenants : d.wakeUp.tenants = d.tenants := by rw [wakeUp_frame]
@[simp] theorem wakeUp_tick : d.wakeUp.tick = d.tick := by rw [wakeUp_frame]
@[simp] theorem wakeUp_boot : d.wakeUp.boot = d.boot := by rw [wakeUp_frame]
@[simp] theorem wakeUp_nvme : d.wakeUp.nvme = d.nvme := by rw [wakeUp_frame]
@[simp] theorem win_wakeUp (w : Nat) : d.wakeUp.win w = d.win w := by rw [wakeUp_frame]; rfl
end wakeUp

section taken
variable (d : Dev) (c : Cmd) (w : Window) (r : Request)

@[simp] theorem taken_tick : (d.taken c w r).tick = d.tick := by simp [Dev.taken, Dev.latch, Dev.writeRequest]
@[simp] theorem taken_nvme : (d.taken c w r).nvme = d.nvme := by simp [Dev.taken, Dev.latch, Dev.writeRequest]
@[simp] theorem taken_boot : (d.taken c w r).boot = d.boot := by simp [Dev.taken, Dev.latch, Dev.writeRequest]
@[simp] theorem taken_tenants : (d.taken c w r).tenants = d.tenants := by simp [Dev.taken, Dev.latch, Dev.writeRequest]
@[simp] theorem taken_state : (d.taken c w r).hearth.state = d.hearth.state := by simp [Dev.taken, Dev.latch]
@[simp] theorem taken_fwVersion : (d.taken c w r).hearth.fwVersion = d.hearth.fwVersion := by
  simp [Dev.taken, Dev.latch, Dev.writeRequest, Dev.modWin, Dev.setWin]
@[simp] theorem taken_counters : (d.taken c w r).hearth.counters = d.hearth.counters := by
  simp [Dev.taken, Dev.latch, Dev.writeRequest, Dev.modWin, Dev.setWin]

/-- The tickets of the window stand while its doorbell is taken up. -/
@[simp] theorem tickets_taken : ((d.taken c w r).win w.num).tickets = (d.win w.num).tickets := by
  simp only [Dev.taken, Dev.latch, Dev.writeRequest, win_wakeUp, win_modWin_same]
  split <;> rfl

@[simp] theorem nextTicket_taken : ((d.taken c w r).win w.num).nextTicket = (d.win w.num).nextTicket := by
  simp only [Dev.taken, Dev.latch, Dev.writeRequest, win_wakeUp, win_modWin_same]
  split <;> rfl

@[simp] theorem windowEnabled_taken (v : Nat) : (d.taken c w r).windowEnabled v = d.windowEnabled v := by
  simp [Dev.windowEnabled, Dev.tenantEnabled]

end taken

theorem doorbell_taken (c : Cmd) (d : Dev) (w : Window) (v : Nat) (r : Request) (h : d.stopped = false) (hb : (d.win w.num).state ≠ .busy)
    (h1 : d.hearth.state ≠ .boot) (h2 : d.hearth.state ≠ .recovery) :
    c.doorbell d w.num v r = c.serve (d.taken c w r) { w := w.num, v := v, r := r } := doorbell_served c d w v r h hb h1 h2

/-- Every doorbell acts on the device as its command does; the queue stands. -/
theorem exec_doorbell_dev (i : Instr) (c : Cmd) (w : Window) (r : Request) (s : State) (hi : doorbellOf i = some (c, w, r)) :
    ∃ t, exec i s = .next t ∧ t.pending = s.pending ∧ t.dev = c.doorbell s.dev w.num (s.version w.num) r := by
  cases i
  all_goals cases hi
  all_goals exact ⟨_, rfl, rfl, rfl⟩

theorem serve_accepted (c : Cmd) (d : Dev) (x : Ctx) (h : c.refusal d x = none) : c.serve d x = c.accept d x := by
  rw [Cmd.serve, h]

theorem serve_refused (c : Cmd) (d : Dev) (x : Ctx) (st : Status) (h : c.refusal d x = some st) : c.serve d x = d.refuse x.w st := by
  rw [Cmd.serve, h]

/-- What the window's response is after an answer: DONE with DONE_PENDING set (R139). -/
theorem win_respond_same (d : Dev) (w s t : Nat) (bs : List Byte) :
    (d.respond w s t bs).win w = { d.win w with resp := respBytes s t d.tick.count bs, state := .done, donePending := true } := by
  rw [win_respond, if_pos rfl]

/-- Settles O7: the doorbell is not accepted, and what a discarded one leaves is known. -/
theorem bootDoorbellIgnored : Obligations.BootDoorbellIgnored := by
  unfold Obligations.BootDoorbellIgnored
  intro i c w r s hi hrun hstate
  refine ⟨{ s with dev := c.doorbell s.dev w.num (s.version w.num) r }, ?_, rfl, rfl, doorbell_discarded c s.dev w.num _ r hrun (Or.inr hstate)⟩
  rw [exec_doorbell_not_accepted i c w r s hi (accepts_discarded c s.dev w.num (s.version w.num) r (Or.inr hstate))]
  rfl

/-- Settles O8: the two branches of `Cmd.accept`, with and without a ticket. -/
theorem acceptedDoorbellCompletes : Obligations.AcceptedDoorbellCompletes := by
  unfold Obligations.AcceptedDoorbellCompletes
  intro i c w r s hi hrun hbusy hboot hrec hacc
  obtain ⟨t, ht, hpending, hdev⟩ := exec_doorbell_dev i c w r s hi
  rw [doorbell_taken c s.dev w _ r hrun hbusy hboot hrec, serve_accepted _ _ _ hacc, Cmd.accept] at hdev
  cases hc : c.ticketed with
  | true =>
    rw [hc] at hdev
    refine ⟨t, _, ht, hpending, ?_, ?_, fun _ => ⟨rfl, ?_, ?_⟩, nofun⟩
    · rw [hdev]
      exact congrArg Win.state (win_respond_same _ _ _ _ _)
    · rw [hdev]
      exact congrArg Win.donePending (win_respond_same _ _ _ _ _)
    · rw [hdev, ← nextTicket_taken s.dev c w r]
      rfl
    · rw [hdev, ← nextTicket_taken s.dev c w r]
      exact congrArg Win.resp (win_respond_same _ _ _ _ _)
  | false =>
    rw [hc] at hdev
    refine ⟨t, _, ht, hpending, ?_, ?_, nofun, fun _ => ⟨rfl, hdev, ?_⟩⟩
    · rw [hdev]
      exact congrArg Win.state (win_respond_same _ _ _ _ _)
    · rw [hdev]
      exact congrArg Win.donePending (win_respond_same _ _ _ _ _)
    · rw [hdev]
      exact congrArg Win.resp (win_respond_same _ _ _ _ _)

/-! ### Refusals -/

@[simp] theorem needs_true (s : Status) : needs true s = none := rfl
@[simp] theorem needs_false (s : Status) : needs false s = some s := rfl
@[simp] theorem firstFail_nil : firstFail [] = none := rfl
@[simp] theorem firstFail_none (l : List (Option Status)) : firstFail (none :: l) = firstFail l := rfl
@[simp] theorem firstFail_some (s : Status) (l : List (Option Status)) : firstFail (some s :: l) = some s := rfl

/-- What a refused doorbell leaves: the response of its window and COMMANDS_REFUSED (R146). -/
theorem win_refuse (d : Dev) (w : Nat) (st : Status) :
    (d.refuse w st).win w = { d.win w with resp := respBytes st 0 d.tick.count [], state := .done, donePending := true } := by
  rw [Dev.refuse, win_respond_same, win_count, (postsOnly_count _ _ _ _).tick]

theorem counters_donePending (d : Dev) (w : Nat) : (d.donePending w).hearth.counters = d.hearth.counters := by
  unfold Dev.donePending
  dsimp only
  split <;> rfl

theorem counters_respond (d : Dev) (w s t : Nat) (bs : List Byte) : (d.respond w s t bs).hearth.counters = d.hearth.counters :=
  counters_donePending _ _

theorem counter_refuse (d : Dev) (w : Nat) (st : Status) :
    (d.refuse w st).counter Counter.commandsRefused w = min counterMax (d.counter Counter.commandsRefused w + 1) := by
  rw [Dev.refuse, counter_of_counters (counters_respond _ _ _ _ _), counter_count_same _ _ _ _ Nat.one_pos]

/-- R159: an opcode that no row gives is refused at step 3 in an enabled window that has negotiated. -/
theorem refusal_unknown (opcode : Nat) (d : Dev) (x : Ctx) (hen : d.windowEnabled x.w = true) (h0 : x.v ≠ 0) (hop : opcode ≠ 1) (hv : x.v < 2 ^ 16) :
    (cmdUnknown opcode).refusal d x = some Status.opcodeUnknown := by
  have hsince : ¬ 65536 ≤ x.v := Nat.not_le.2 hv
  simp [Cmd.refusal, cmdUnknown, hen, bne_iff_ne.2 h0, beq_eq_false_iff_ne.2 hop, hsince]

/-- A version of a well-formed table is 0 or one of those that the device speaks. -/
theorem version_spoken (s : State) (w : Nat) (h : HdrOk s) (h0 : s.version w ≠ 0) : s.version w ∈ hcpVersions := by
  obtain ⟨-, hall⟩ := h
  unfold State.version at h0 ⊢
  generalize s.hdr = m at hall h0 ⊢
  induction m with
  | nil => exact absurd rfl h0
  | cons p rest ih =>
    by_cases hp : p.1 = w
    · have e : AMap.getD (p :: rest) w 0 = p.2 := by simp [AMap.getD, AMap.get?, hp]
      rw [e]
      exact (hall p List.mem_cons_self).2
    · have e : AMap.getD (p :: rest) w 0 = AMap.getD rest w 0 := by simp [AMap.getD, AMap.get?, hp]
      rw [e] at h0 ⊢
      exact ih (fun q hq => hall q (List.mem_cons_of_mem _ hq)) h0

/-- Settles O10: step 3 is the first check that fails. -/
theorem unknownOpcodeRefused : Obligations.UnknownOpcodeRefused := by
  unfold Obligations.UnknownOpcodeRefused
  intro w opcode r s hrun hbusy hboot hrec hen hok h0 hdef
  have hlt : ∀ v ∈ hcpVersions, v < 2 ^ 16 := by decide
  have hop : opcode ≠ 1 := by
    rintro rfl
    simp [opcodeDefined, opcodeClasses] at hdef
  have hdev : (cmdUnknown opcode).doorbell s.dev w.num (s.version w.num) r =
      (s.dev.taken (cmdUnknown opcode) w r).refuse w.num Status.opcodeUnknown := by
    rw [doorbell_taken _ _ _ _ _ hrun hbusy hboot hrec]
    refine serve_refused _ _ _ _ (refusal_unknown opcode _ _ ?_ h0 hop (hlt _ (version_spoken s w.num hok h0)))
    rw [windowEnabled_taken]
    exact hen
  refine ⟨{ s with dev := (s.dev.taken (cmdUnknown opcode) w r).refuse w.num Status.opcodeUnknown }, ?_, rfl, rfl, ?_, ?_, ?_⟩
  · rw [exec_opcodeUnknown, hdef, ← hdev]
    rfl
  · exact congrArg Win.state (win_refuse _ _ _)
  · rw [win_refuse, taken_tick]
  · rw [counter_refuse, counter_of_counters (taken_counters _ _ _ _)]

/-! ### HELLO -/

theorem hcpSpoken_sorted : List.Pairwise (fun a b => b < a) hcpSpoken := by decide

theorem mem_hcpSpoken_iff (v : Nat) : v ∈ hcpSpoken ↔ v ∈ hcpVersions := by
  simp only [hcpSpoken, hcpVersions, List.mem_cons, List.not_mem_nil, or_false]
  omega

/-- The first element of a falling list that passes a test is the greatest that does. -/
theorem find_falling (l : List Nat) (p : Nat → Bool) (v : Nat) (hl : List.Pairwise (fun a b => b < a) l) (hv : v ∈ l) (hp : p v = true)
    (hmax : ∀ u ∈ l, p u = true → u ≤ v) : l.find? p = some v := by
  induction l with
  | nil => exact absurd hv List.not_mem_nil
  | cons a rest ih =>
    obtain ⟨hhead, hrest⟩ := List.pairwise_cons.1 hl
    cases hpa : p a with
    | true =>
      have hav : a ≤ v := hmax a List.mem_cons_self hpa
      have hva : v = a := by
        rcases List.mem_cons.1 hv with h | h
        · exact h
        · exact absurd (hhead v h) (Nat.not_lt.2 hav)
      rw [List.find?_cons_of_pos hpa, hva]
    | false =>
      rw [List.find?_cons_of_neg (by simp [hpa])]
      refine ih hrest ?_ (fun u hu => hmax u (List.mem_cons_of_mem _ hu))
      rcases List.mem_cons.1 hv with h | h
      · rw [h, hpa] at hp
        exact absurd hp Bool.false_ne_true
      · exact h

/-- R157: HELLO chooses the highest version that both sides speak. -/
theorem chooseVersion_highest (lo hi v : Nat) (hv : v ∈ hcpVersions) (hlo : lo ≤ v) (hhi : v ≤ hi)
    (hmax : ∀ u ∈ hcpVersions, lo ≤ u → u ≤ hi → u ≤ v) : chooseVersion lo hi = some v := by
  refine find_falling _ _ _ hcpSpoken_sorted ((mem_hcpSpoken_iff v).2 hv) (by simp [hlo, hhi]) (fun u hu hp => ?_)
  obtain ⟨h1, h2⟩ := (Bool.and_eq_true _ _).mp hp
  exact hmax u ((mem_hcpSpoken_iff u).1 hu) (of_decide_eq_true h1) (of_decide_eq_true h2)

theorem chooseVersion_none (lo hi : Nat) (h : ∀ u ∈ hcpVersions, ¬ (lo ≤ u ∧ u ≤ hi)) : chooseVersion lo hi = none := by
  refine List.find?_eq_none.2 (fun u hu hp => ?_)
  obtain ⟨h1, h2⟩ := (Bool.and_eq_true _ _).mp hp
  exact h u ((mem_hcpSpoken_iff u).1 hu) ⟨of_decide_eq_true h1, of_decide_eq_true h2⟩

/-- What the checks of a HELLO without a scatter list read of its request (Table 04-16). -/
def HelloRequestOk (r : Request) : Prop :=
  r.len = 16 ∧ r.sglCount = 0 ∧ r.hdrRsv = 0 ∧ r.sglAddr = 0 ∧ allZero (bytesAt r.payload 8 8) = true ∧ leAt r.payload 0 2 ≤ leAt r.payload 2 2

/-- No check refuses such a HELLO in READY in an enabled window without tickets. -/
theorem refusal_hello (d : Dev) (w v : Nat) (r : Request) (hr : HelloRequestOk r) (hen : d.windowEnabled w = true) (hready : d.hearth.state = .ready)
    (hsan : d.nvme.sanitize = none) (hticket : (d.win w).tickets = []) : cmdHello.refusal d { w := w, v := v, r := r } = none := by
  obtain ⟨hlen, hcount, hhdr, haddr, hzero, hle⟩ := hr
  have hstate : d.stateRefusal w 1 = none := by simp [Dev.stateRefusal, hsan, hready]
  have hsgl : d.sglOk { w := w, v := v, r := r } = true := by simp [Dev.sglOk, hcount, haddr]
  simp [Cmd.refusal, cmdHello, hen, hstate, hsgl, hlen, hcount, hhdr, hticket, Ctx.rsv, Ctx.raw, Ctx.get, hzero, hle]

/-- What the statements ask of a device that takes up a HELLO. -/
def HelloReady (d : Dev) (w : Nat) : Prop :=
  d.windowEnabled w = true ∧ d.hearth.state = .ready ∧ d.nvme.sanitize = none ∧ (d.win w).tickets = []

theorem helloReady_taken (d : Dev) (w : Window) (r : Request) (h : HelloReady d w.num) : HelloReady (d.taken cmdHello w r) w.num := by
  unfold HelloReady
  rw [windowEnabled_taken, taken_state, taken_nvme, tickets_taken]
  exact h

theorem helloReady_of_wakeUp (d : Dev) (w : Nat) (h : HelloReady d.wakeUp w) : HelloReady d w := by
  simpa [HelloReady, Dev.windowEnabled, Dev.tenantEnabled] using h

/-- A HELLO that no check refuses: the versions after it, and the device. -/
theorem exec_hello_accepted (w : Window) (r : Request) (s : State) (hrun : s.dev.stopped = false) (hbusy : (s.dev.win w.num).state ≠ .busy)
    (hr : HelloRequestOk r) (hd : HelloReady s.dev w.num) :
    exec (.hello w r) s = .next { s with
      hdr := (chooseVersion (leAt r.payload 0 2) (leAt r.payload 2 2)).elim s.hdr (AMap.set s.hdr w.num)
      dev := cmdHello.accept (s.dev.taken cmdHello w r) { w := w.num, v := s.version w.num, r := r } } := by
  have htaken : HelloReady (s.dev.taken cmdHello w r) w.num := helloReady_taken _ _ _ hd
  have hboot : s.dev.hearth.state ≠ .boot := by simp [hd.2.1]
  have hrec : s.dev.hearth.state ≠ .recovery := by simp [hd.2.1]
  have hnone : ∀ d, HelloReady d w.num → cmdHello.refusal d { w := w.num, v := s.version w.num, r := r } = none :=
    fun d ⟨hen, hready, hsan, hticket⟩ => refusal_hello d _ _ r hr hen hready hsan hticket
  have hdisc : (s.dev.writeRequest w.num cmdHello.opcode r).doorbellDiscarded w.num = false := by
    rw [← Bool.not_eq_true, discarded_iff]
    simp [hbusy, hboot, hrec]
  have hacc : cmdHello.accepts s.dev w.num (AMap.getD s.hdr w.num 0) r = true := by
    have h := hnone _ (helloReady_of_wakeUp _ _ htaken)
    simp only [Cmd.accepts, hrun, hdisc]
    exact Option.isNone_iff_eq_none.2 h
  rw [exec_hello, helloHdr, if_pos hacc, doorbell_taken _ _ _ _ _ hrun hbusy hboot hrec, serve_accepted _ _ _ (hnone _ htaken)]
  cases chooseVersion (leAt r.payload 0 2) (leAt r.payload 2 2) <;> rfl

/-- The device with the HOST_TAG of a HELLO noted in the Hearth log. -/
def helloNoted (d : Dev) (x : Ctx) : Dev := { d with hearth := { d.hearth with log := (d.tick.count, x.get 4 4) :: d.hearth.log } }

theorem helloPayload_of_fields {d e : Dev} (hfw : e.hearth.fwVersion = d.hearth.fwVersion) (hstate : e.hearth.state = d.hearth.state)
    (hboot : e.boot = d.boot) (htick : e.tick = d.tick) (w v : Nat) : e.helloPayload w v = d.helloPayload w v := by
  unfold Dev.helloPayload Dev.B
  rw [hfw, hstate, hboot, htick]

/-- The payload of a HELLO's answer reads nothing that taking up its doorbell or noting its HOST_TAG changes. -/
theorem helloPayload_noted (d : Dev) (c : Cmd) (w : Window) (r : Request) (x : Ctx) (k v : Nat) :
    (helloNoted (d.taken c w r) x).helloPayload k v = d.helloPayload k v := by
  have hnoted : (helloNoted (d.taken c w r) x).helloPayload k v = (d.taken c w r).helloPayload k v := helloPayload_of_fields rfl rfl rfl rfl k v
  rw [hnoted]
  exact helloPayload_of_fields (taken_fwVersion d c w r) (taken_state d c w r) (taken_boot d c w r) (taken_tick d c w r) k v

theorem run_hello_some (d : Dev) (x : Ctx) (n v : Nat) (h : chooseVersion (x.get 0 2) (x.get 2 2) = some v) :
    cmdHello.run d x n = { dev := helloNoted d x, payload := (helloNoted d x).helloPayload x.w v } := by
  simp only [cmdHello, h]
  rfl

theorem run_hello_none (d : Dev) (x : Ctx) (n : Nat) (h : chooseVersion (x.get 0 2) (x.get 2 2) = none) :
    cmdHello.run d x n = { dev := helloNoted d x, status := Status.versionUnsupported, payload := (helloNoted d x).helloPayload x.w 0 } := by
  simp only [cmdHello, h]
  rfl

/-- The response of a command that completes at once (R139). -/
theorem resp_accept (c : Cmd) (d : Dev) (x : Ctx) (h : c.ticketed = false) :
    ((c.accept d x).win x.w).resp = respBytes (c.run d x 0).status 0 (c.run d x 0).dev.tick.count (c.run d x 0).payload := by
  rw [Cmd.accept, h]
  exact congrArg Win.resp (win_respond_same _ _ _ _ _)

/-- Settles O11: the two outcomes of `chooseVersion`. -/
theorem helloNegotiatesTheHighestVersion : Obligations.HelloNegotiatesTheHighestVersion := by
  unfold Obligations.HelloNegotiatesTheHighestVersion
  intro w r s hrun hbusy hready hsan hen hticket hlen hcount hhdr haddr hzero hle
  have hexec := exec_hello_accepted w r s hrun hbusy ⟨hlen, hcount, hhdr, haddr, hzero, hle⟩ ⟨hen, hready, hsan, hticket⟩
  have hresp := resp_accept cmdHello (s.dev.taken cmdHello w r) { w := w.num, v := s.version w.num, r := r } rfl
  refine ⟨fun v hv hlo hhi hmax => ?_, fun hnone => ?_⟩
  · have hv := chooseVersion_highest _ _ v hv hlo hhi hmax
    rw [run_hello_some _ { w := w.num, v := s.version w.num, r := r } 0 v hv, helloPayload_noted] at hresp
    rw [hv] at hexec
    refine ⟨_, hexec, rfl, rfl, amap_getD_set_same _ _ _ _, fun j hj => amap_getD_set_other _ _ _ _ _ hj, hresp.trans ?_⟩
    exact congrArg (fun t : Tick => respBytes Status.success 0 t.count (s.dev.helloPayload w.num v)) (taken_tick s.dev cmdHello w r)
  · have hv := chooseVersion_none _ _ hnone
    rw [run_hello_none _ { w := w.num, v := s.version w.num, r := r } 0 hv, helloPayload_noted] at hresp
    rw [hv] at hexec
    refine ⟨_, hexec, rfl, rfl, hresp.trans ?_⟩
    exact congrArg (fun t : Tick => respBytes Status.versionUnsupported 0 t.count (s.dev.helloPayload w.num 0)) (taken_tick s.dev cmdHello w r)

end Sys2Proof.Proofs
end

section
/-!
PROOFS. Counters, events and tickets.
-/
namespace Sys2Proof.Proofs

open Sys2Proof.Machine Sys2Proof.Laws

/-! ### Counters -/

theorem objKey_injective (id idx id' idx' : Nat) (h : idx < 2 ^ 32) (h' : idx' < 2 ^ 32) : objKey id' idx' = objKey id idx ↔ (id', idx') = (id, idx) := by
  simp only [objKey, Prod.mk.injEq]
  omega

theorem counter_count_other (d : Dev) (id idx n id' idx' : Nat) (h : objKey id' idx' ≠ objKey id idx) :
    (d.count id idx n).counter id' idx' = d.counter id' idx' := by
  unfold Dev.count
  split
  · rfl
  · exact amap_getD_set_other _ _ _ _ _ h

theorem count_frame (d : Dev) (id idx n : Nat) :
    d.count id idx n = { d with hearth := { d.hearth with counters := (d.count id idx n).hearth.counters } } := by
  unfold Dev.count
  split <;> rfl

/-- Settles O15: a count is one write of the table of counters, and no count of 0. -/
theorem countersSaturate : Obligations.CountersSaturate := by
  unfold Obligations.CountersSaturate
  intro d id i n _ hi
  refine ⟨fun hle => ?_, fun id' i' hi' hne => ?_, count_frame d id i n⟩
  · rcases Nat.eq_zero_or_pos n with rfl | hn
    · exact (Nat.min_eq_right hle).symm
    · exact counter_count_same d id i n hn
  · exact counter_count_other d id i n id' i' (fun e => hne ((objKey_injective id i id' i' hi hi').1 e))

/-! ### Events -/

theorem counters_eventPending (d : Dev) (w : Nat) : (d.eventPending w).hearth.counters = d.hearth.counters := by
  unfold Dev.eventPending
  dsimp only
  split <;> rfl

theorem counters_writeEntry (d : Dev) (w base : Nat) (e : Event) : (d.writeEntry w base e).hearth.counters = d.hearth.counters :=
  counters_eventPending _ _

/-- Posting what is staged counts nothing: only an event that finds no place is counted (R154). -/
theorem counters_postStaged (w : Nat) : ∀ (n : Nat) (d : Dev), (Dev.postStaged n w d).hearth.counters = d.hearth.counters := by
  intro n
  induction n with
  | zero => exact fun d => rfl
  | succ n ih =>
    intro d
    unfold Dev.postStaged
    dsimp only
    split
    · rfl
    · split
      · rfl
      · split
        · rw [ih, counters_writeEntry]
          rfl
        · split
          · rfl
          · rw [ih, counters_writeEntry]
            rfl

theorem counters_flushStaged (d : Dev) (w : Nat) : (d.flushStaged w).hearth.counters = d.hearth.counters := counters_postStaged w _ d

theorem counters_post (d : Dev) (w : Nat) (e : Event) (k : Nat) (hk : k ≠ objKey Counter.eventsDropped w) :
    AMap.getD (d.post w e).hearth.counters k 0 = AMap.getD d.hearth.counters k 0 := by
  unfold Dev.post
  dsimp only
  split
  · rw [Dev.count, if_neg Nat.one_ne_zero]
    exact amap_getD_set_other _ _ _ _ _ hk
  · rw [counters_flushStaged]
    rfl

theorem counter_post (d : Dev) (w : Nat) (e : Event) (id idx : Nat) (hk : objKey id idx ≠ objKey Counter.eventsDropped w) :
    (d.post w e).counter id idx = d.counter id idx := counters_post d w e _ hk

/-- Settles O13: what posting leaves alone, the tickets, and the counters. -/
theorem eventsChangeOnlyWindows : Obligations.EventsChangeOnlyWindows := by
  unfold Obligations.EventsChangeOnlyWindows
  exact fun d w e => ⟨postsOnly_post d w e, fun j => tickets_post d w j e, fun k hk => counters_post d w e k hk⟩

/-! ### Tickets -/

theorem completeTicket_none (d : Dev) (w n status len : Nat) (h : d.ticket? w n = none) : d.completeTicket w n status len = d := by
  rw [Dev.completeTicket, h]

/-- The tickets that another number names stand while those of one number are dropped. -/
theorem find_filter_num (l : List Ticket) (n m : Nat) (h : m ≠ n) :
    (l.filter (fun u => u.num != n)).find? (fun u => u.num == m) = l.find? (fun u => u.num == m) := by
  rw [List.find?_filter]
  congr 1
  funext u
  by_cases hu : u.num = m
  · simp [hu, h]
  · simp [hu]

theorem ticket_completeTicket_other (d : Dev) (w n status len j m : Nat) (h : j ≠ w ∨ m ≠ n) :
    (d.completeTicket w n status len).ticket? j m = d.ticket? j m := by
  unfold Dev.ticket?
  rw [tickets_completeTicket]
  split
  · rename_i hcond
    obtain ⟨rfl, -⟩ := hcond
    exact find_filter_num _ n m (h.resolve_left (fun hj => hj rfl))
  · rfl

/-- Settles O14: the ticket's own number is gone from its window, and every other pair of window and number stands. -/
theorem ticketsCompleteOnce : Obligations.TicketsCompleteOnce := by
  unfold Obligations.TicketsCompleteOnce
  exact fun d w n status len =>
    ⟨ticket_completeTicket d w n status len, fun m hm => ticket_completeTicket_other d w n status len w m (Or.inr hm),
      fun j m hj => ticket_completeTicket_other d w n status len j m (Or.inl hj), completeTicket_none d w n status len,
      postsOnly_completeTicket d w n status len⟩

end Sys2Proof.Proofs
end

section
/-!
PROOFS. Parameters and trouble words.
-/
namespace Sys2Proof.Proofs

open Sys2Proof.Machine Sys2Proof.Laws

/-! ### The clamp (R164) -/

/-- No value of the form minimum + k × step lies strictly between two neighbours of that form. -/
theorem grid_gap (lo step u k : Nat) (hu : lo ≤ u) (hgrid : (u - lo) % step = 0) : u ≤ lo + k * step ∨ lo + k * step + step ≤ u := by
  obtain ⟨j, hj⟩ := Nat.dvd_of_mod_eq_zero hgrid
  rcases Nat.lt_or_ge k j with h | h
  · right
    have hle : (k + 1) * step ≤ step * j := by
      rw [Nat.mul_comm step j]
      exact Nat.mul_le_mul_right step h
    rw [Nat.succ_mul] at hle
    omega
  · left
    have hle : step * j ≤ k * step := by
      rw [Nat.mul_comm step j]
      exact Nat.mul_le_mul_right step h
    omega

theorem clampParam_below (v lo hi step : Nat) (h : v ≤ lo) : clampParam v lo hi step = lo := if_pos h

theorem clampParam_above (v lo hi step : Nat) (h : ¬ v ≤ lo) (h' : hi ≤ v) : clampParam v lo hi step = hi := by
  rw [clampParam, if_neg h, if_pos h']

/-- Within the range the clamp takes the neighbour of the grid below or above the value, as its distance from the one below tells. -/
theorem clampParam_between (v lo hi step : Nat) (h : ¬ v ≤ lo) (h' : ¬ hi ≤ v) (hstep : 0 < step) (hgrid : (hi - lo) % step = 0) :
    ∃ k r, v = lo + k * step + r ∧ r < step ∧ lo + k * step + step ≤ hi ∧
      clampParam v lo hi step = if 2 * r ≤ step then lo + k * step else lo + k * step + step := by
  have hv : v = lo + (v - lo) / step * step + (v - lo) % step := by
    have := Nat.div_add_mod' (v - lo) step
    omega
  have hr : (v - lo) % step < step := Nat.mod_lt _ hstep
  have hhi : lo + (v - lo) / step * step + step ≤ hi := by
    rcases grid_gap lo step hi ((v - lo) / step) (by omega) hgrid with hle | hle
    · omega
    · exact hle
  refine ⟨(v - lo) / step, (v - lo) % step, hv, hr, hhi, ?_⟩
  rw [clampParam, if_neg h, if_neg h']
  dsimp only
  rw [Nat.min_eq_right hhi]

theorem grid_next (lo step k : Nat) : (lo + k * step + step - lo) % step = 0 := by
  have e : lo + k * step + step - lo = (k + 1) * step := by
    rw [Nat.succ_mul]
    omega
  rw [e]
  exact Nat.mul_mod_left _ _

/-- Settles O18: below, above and within the range; within it no grid value is nearer than the two neighbours. -/
theorem clampTakesTheNearestLegalValue : Obligations.ClampTakesTheNearestLegalValue := by
  unfold Obligations.ClampTakesTheNearestLegalValue
  intro v lo hi step hle hstep hgrid
  by_cases hlo : v ≤ lo
  · rw [clampParam_below v lo hi step hlo]
    refine ⟨Nat.le_refl lo, hle, by simp, fun u hu _ _ => ⟨by omega, fun _ => hu⟩⟩
  · by_cases hhi : hi ≤ v
    · rw [clampParam_above v lo hi step hlo hhi]
      exact ⟨hle, Nat.le_refl hi, hgrid, fun u _ hu _ => ⟨by omega, by omega⟩⟩
    · obtain ⟨k, r, hv, hr, hnext, hclamp⟩ := clampParam_between v lo hi step hlo hhi hstep hgrid
      have hbelow : (lo + k * step - lo) % step = 0 := by
        rw [Nat.add_sub_cancel_left]
        exact Nat.mul_mod_left _ _
      have hnear := grid_next lo step k
      rw [hclamp]
      split
      · refine ⟨by omega, by omega, hbelow, fun u hu _ hg => ?_⟩
        rcases grid_gap lo step u k hu hg with h | h <;> exact ⟨by omega, by omega⟩
      · refine ⟨by omega, hnext, hnear, fun u hu _ hg => ?_⟩
        rcases grid_gap lo step u k hu hg with h | h <;> exact ⟨by omega, by omega⟩

/-! ### Trouble words (R84 to R87) -/

/-- What `trouble` notes: nothing, or the bits that read 0 before. -/
theorem fresh_trouble (d : Dev) (w : TroubleWord) (i m : Nat) :
    (d.trouble w i m).units.fresh = d.units.fresh ∨
      (d.trouble w i m).units.fresh = d.units.fresh ++ [(w, i, (d.sticky w i ||| m) ^^^ d.sticky w i)] := by
  unfold Dev.trouble
  dsimp only
  split
  · exact Or.inl rfl
  · right
    have hfresh : ∀ x, (d.setSticky w i x).units.fresh = d.units.fresh := by
      intro x
      cases w <;> rfl
    rw [hfresh]

/-- Settles O19: the word that is set, its neighbours, the other words, and what is noted. -/
theorem troubleBitsStick : Obligations.TroubleBitsStick := by
  unfold Obligations.TroubleBitsStick
  intro d w i m hm
  have hm64 : m < 2 ^ 64 := Nat.lt_trans hm (by decide)
  refine ⟨fun b => ?_, fun j hj hw => sticky_trouble_index d w i j m hw hj, fun w' j hw => sticky_trouble_other d w w' i j m hw, ?_,
    trouble_frame d w i m⟩
  · rw [sticky_trouble d w i m hm64 (fun _ => hm), Nat.testBit_or]
  · refine (fresh_trouble d w i m).imp_right (fun h => ⟨_, h, fun b => ?_⟩)
    rw [Nat.testBit_xor, Nat.testBit_or]
    cases (d.sticky w i).testBit b <;> cases m.testBit b <;> rfl

theorem clearBits_dev (d : Dev) (w : TroubleWord) (i m : Nat) :
    (d.clearBits w i m).1 =
      if d.sticky w i &&& (m &&& stickyMask w) = 0 then d else d.setSticky w i (d.sticky w i ^^^ (d.sticky w i &&& (m &&& stickyMask w))) := rfl

/-- The word at an index after some of its bits are cleared. -/
theorem sticky_clearBits (d : Dev) (w : TroubleWord) (i m : Nat) :
    (d.clearBits w i m).1.sticky w i = d.sticky w i ^^^ (d.sticky w i &&& (m &&& stickyMask w)) := by
  rw [clearBits_dev]
  split
  · rename_i h
    rw [h, Nat.xor_zero]
  · refine sticky_setSticky d w i _ (fun hw => ?_) ?_
    · exact Nat.xor_lt_two_pow (sticky_lt d w i hw) (Nat.lt_of_le_of_lt Nat.and_le_left (sticky_lt d w i hw))
    · exact Nat.xor_lt_two_pow (sticky_lt64 d w i) (Nat.lt_of_le_of_lt Nat.and_le_left (sticky_lt64 d w i))

/-- Settles O20: the bits that stand, those that are answered, and the frame. -/
theorem clearingBitsChangesOnlyTheRecord : Obligations.ClearingBitsChangesOnlyTheRecord := by
  unfold Obligations.ClearingBitsChangesOnlyTheRecord
  intro d w i m
  refine ⟨fun b => ?_, fun b => ?_, fun w' j hw => ?_, ?_⟩
  · rw [sticky_clearBits, Nat.testBit_xor, Nat.testBit_and, Nat.testBit_and]
    cases (d.sticky w i).testBit b <;> simp
  · exact (Nat.testBit_and _ _ _).trans (congrArg _ (Nat.testBit_and _ _ _))
  · rw [clearBits_dev]
    split
    · rfl
    · exact sticky_setSticky_other d w w' i j _ hw
  · rw [clearBits_dev]
    split
    · rfl
    · exact setSticky_frame d w i _

end Sys2Proof.Proofs
end

section
/-!
PROOFS. Events of the hardware on a running device; retries in place, region resets and re-homing.
-/
namespace Sys2Proof.Proofs

open Sys2Proof.Machine Sys2Proof.Laws

/-! ### What an event of the hardware answers on a running device -/

theorem exec_running {i : Instr} {s : State} {g : Dev → Dev} (hexec : exec i s = s.onRunning g) (h : s.dev.stopped = false) :
    exec i s = .next { s with dev := g s.dev } := by
  rw [hexec, onRunning_live s g h]

/-- An event completes with `f` when its meaning does to this device what `f` does. -/
theorem completes_running {i : Instr} {s : State} {f g : Dev → Dev} (hexec : exec i s = s.onRunning g) (h : s.dev.stopped = false)
    (heq : g s.dev = f s.dev) : Completes i s f := by
  rw [Completes, exec_running hexec h, heq]

/-- An event that leaves this device alone changes nothing. -/
theorem same_running {i : Instr} {s : State} {g : Dev → Dev} (hexec : exec i s = s.onRunning g) (h : s.dev.stopped = false)
    (heq : g s.dev = s.dev) : exec i s = .next s := by
  rw [exec_running hexec h, heq]

/-! ### Retries in place -/

/-- R67, R76: the first failure on a unit marks the one item that runs on it. -/
theorem unitFault_first (d : Dev) (c : UnitClass) (u at_ : Nat) (failed : Dev → Dev) (i : Item) (hin : d.unitIn c u = true) (hon : d.runningOn c u = [i])
    (hretry : i.retry = false) : d.unitFault c u at_ failed = d.modItem i.id (fun x => { x with retry := true }) := by
  simp [Dev.unitFault, hon, hin, hretry]

/-- R59: the first failure of an op of a cell that is no Anvil op. -/
theorem cellOpFailure_first (d : Dev) (c at_ : Nat) (residue : Bool) (i : Item) (hin : d.unitIn .cell c = true)
    (hon : d.tick.items.filter (fun i => i.phase == .running && i.cls == 2 && i.out.isNone && i.units.contains c) = [i]) (hretry : i.retry = false)
    (hanvil : ((d.kindRec i.kind).map OpRec.isAnvil).getD false = false) :
    d.cellOpFailure c residue at_ = ((d.cellTrouble (c / 16) (if residue then CellBit.residue else CellBit.storeUe)).modItem i.id
      (fun x => { x with retry := true })).startItems at_ := by
  have hkind : ∀ m, (d.cellTrouble (c / 16) m).kindRec i.kind = d.kindRec i.kind := by
    intro m
    simp [Dev.kindRec, Dev.cellTrouble]
  simp only [Dev.cellOpFailure, hon]
  simp [hin, hretry, hkind, hanvil]

/-- Settles O22: the cell, and the four classes that share `unitFault`. -/
theorem firstFailureRetriesInPlace : Obligations.FirstFailureRetriesInPlace := by
  unfold Obligations.FirstFailureRetriesInPlace
  refine ⟨fun cell c at_ residue i s h hc hin hon hretry hanvil => completes_running (exec_cellOpFailure cell residue at_ s) h ?_,
    fun block lane g at_ i s h hb hin hon hretry => completes_running (exec_laneFault block lane at_ s) h ?_,
    fun block g at_ i s h hb hin hon hretry => completes_running (exec_swageFault block at_ s) h ?_,
    fun block g at_ i s h hb hin hon hretry => completes_running (exec_screenFault block at_ s) h ?_,
    fun region unit at_ i s h hin hon hretry => completes_running (exec_wedgeFault region unit at_ s) h ?_⟩
  · simp only [hc]
    exact cellOpFailure_first _ _ _ _ i hin hon hretry hanvil
  · simp only [hb]
    exact unitFault_first _ _ _ _ _ i hin hon hretry
  · simp only [hb]
    exact unitFault_first _ _ _ _ _ i hin hon hretry
  · simp only [hb]
    exact unitFault_first _ _ _ _ _ i hin hon hretry
  · exact unitFault_first _ _ _ _ _ i hin hon hretry

/-! ### Region resets -/

@[simp] theorem region_trouble (d : Dev) (w : TroubleWord) (i m r : Nat) : (d.trouble w i m).region r = d.region r := by
  simp [Dev.region]

/-- R77, R111: the reset of a region that none precedes, with every context written back. -/
theorem resetRegion_first (d : Dev) (r : Nat) (hhalt : d.hearth.halting = false) (hfenced : (d.region r).fenced = false)
    (hreset : (d.region r).resetting = false) (hlast : (d.region r).lastResetDone = none) :
    d.resetRegion r [] =
      let e := (((d.modRegion r (fun x => { x with resetting := true, resumeAtBoundary := false })).regionTrouble r RegionBit.reset).count
        Counter.regionReset r 1).suspendRegion r
      { e with tongs := { e.tongs with lines := e.tongs.lines.filter (fun l => l.1 / contextSlots != r) } } := by
  simp [Dev.resetRegion, hhalt, hfenced, hreset, hlast]

theorem fault_resets_region (d : Dev) (r bit : Nat) (hhalt : d.hearth.halting = false) (hin : d.regionIn r = true)
    (hreset : (d.region r).resetting = false) (hlast : (d.region r).lastResetDone = none) :
    (if d.regionIn r then (d.regionTrouble r bit).resetRegion r [] else d) =
      let e := ((((d.regionTrouble r bit).modRegion r (fun x => { x with resetting := true, resumeAtBoundary := false })).regionTrouble r
        RegionBit.reset).count Counter.regionReset r 1).suspendRegion r
      { e with tongs := { e.tongs with lines := e.tongs.lines.filter (fun l => l.1 / contextSlots != r) } } := by
  have hfenced : (d.region r).fenced = false := by simpa [Dev.regionIn] using hin
  rw [if_pos hin]
  exact resetRegion_first _ _ (by simp [Dev.regionTrouble, hhalt]) (by simp [Dev.regionTrouble, hfenced]) (by simp [Dev.regionTrouble, hreset])
    (by simp [Dev.regionTrouble, hlast])

/-! ### Re-homing -/

/-- R112: a region that is not fenced, whose stack is lost, or in which nothing is homed has no context to move. -/
theorem rehomeDone_nothing (d : Dev) (r : Nat) (h : (d.region r).fenced = false ∨ (d.region r).hbmLost = true ∨ d.homedIn r = []) :
    d.rehomeDone r = d := by
  rcases h with h | h | h <;> simp [Dev.rehomeDone, h]

theorem rehomeDone_one (d : Dev) (r sid q k : Nat) (st : Stream) (hfenced : (d.region r).fenced = true) (hlost : (d.region r).hbmLost = false)
    (hone : d.homedIn r = [(sid, st)]) (hhome : d.chooseHome = some (q, k)) : d.rehomeDone r = d.rehome sid q k := by
  simp [Dev.rehomeDone, hfenced, hlost, hone, hhome]

/-- Settles O23. -/
theorem regionResetsAndRehoming : Obligations.RegionResetsAndRehoming := by
  unfold Obligations.RegionResetsAndRehoming
  refine ⟨fun r s h hhalt hin hreset hlast => ⟨completes_running (exec_ringFault r [] s) h ?_, completes_running (exec_dirFault r [] s) h ?_⟩,
    fun r s h hreset => completes_running (exec_regionResetDone r s) h (if_pos hreset),
    fun r s h hin => completes_running (exec_hbmCe r s) h (if_pos hin),
    fun r s h hin => completes_running (exec_hbmUe r .extentMap s) h ?_,
    fun r sid q k st s h hfenced hlost hone hhome => completes_running (exec_rehomeDone r s) h ?_,
    fun r s h hnone => same_running (exec_rehomeDone r s) h (rehomeDone_nothing _ _ hnone)⟩
  · exact fault_resets_region _ _ _ hhalt hin hreset hlast
  · exact fault_resets_region _ _ _ hhalt hin hreset hlast
  · simp [Dev.hbmUe, hin]
  · exact rehomeDone_one _ _ _ _ _ _ hfenced hlost hone hhome

end Sys2Proof.Proofs
end

section
/-!
PROOFS. PF0: how a command is taken up and answered, and its admin commands.
-/
namespace Sys2Proof.Proofs

open Sys2Proof.Machine Sys2Proof.Laws

/-! ### Power requests and the state in force -/

theorem setRequests_frame (d : Dev) (a b : PowerState) : d.setRequests a b = { d with bellows := (d.setRequests a b).bellows } := by
  unfold Dev.setRequests
  dsimp only
  rw [wakeUp_frame]
  split <;> split <;> rfl

/-- Settling the state in force changes the Bellows, and posts one event where the state changes (R618). -/
theorem settlePower_postsOnly (d : Dev) : PostsOnly { d with bellows := d.settlePower.bellows } d.settlePower := by
  unfold Dev.settlePower
  dsimp only
  split
  · exact PostsOnly.refl d
  · have h := postsOnly_event { d with bellows := { d.bellows with inForce := d.stateInForce } } adminWin EventCode.powerState 0
      [(20, 1, d.stateInForce.code), (21, 1, d.bellows.inForce.code), (24, 2, d.bellows.step)]
    rw [h.bellows]
    exact h

/-! ### Submission -/

/-- What a submission leaves as it was: all but the windows, the counters, the Bellows, the outputs and the self-test that runs (R651, R654). -/
theorem nvmeSubmit_frame (d : Dev) :
    d.nvmeSubmit = { d with
      hearth := { d.hearth with wins := d.nvmeSubmit.hearth.wins, counters := d.nvmeSubmit.hearth.counters }
      bellows := d.nvmeSubmit.bellows
      nvme := { d.nvme with test := d.nvmeSubmit.nvme.test }
      out := d.nvmeSubmit.out } := by
  have hpower : ∀ e : Dev, e = (d.setRequests d.bellows.adminReq d.bellows.storageSet).settlePower.wakeUp →
      e = { d with hearth := { d.hearth with wins := e.hearth.wins, counters := e.hearth.counters }, bellows := e.bellows, out := e.out } := by
    rintro e rfl
    have hset := setRequests_frame d d.bellows.adminReq d.bellows.storageSet
    have hsettle := settlePower_postsOnly (d.setRequests d.bellows.adminReq d.bellows.storageSet)
    unfold PostsOnly at hsettle
    rw [wakeUp_frame, hsettle, hset]
  have h := hpower _ rfl
  unfold Dev.nvmeSubmit
  generalize (d.setRequests d.bellows.adminReq d.bellows.storageSet).settlePower.wakeUp = e at h
  dsimp only
  split
  · split
    · rw [h]
    · rw [h]
      rfl
  · rw [h]

section submit
variable (d : Dev)
@[simp] theorem nvmeSubmit_state : d.nvmeSubmit.hearth.state = d.hearth.state := by rw [nvmeSubmit_frame]
@[simp] theorem nvmeSubmit_face : d.nvmeSubmit.face = d.face := by rw [nvmeSubmit_frame]
@[simp] theorem nvmeSubmit_cqs : d.nvmeSubmit.nvme.cqs = d.nvme.cqs := by rw [nvmeSubmit_frame]
@[simp] theorem nvmeSubmit_sqs : d.nvmeSubmit.nvme.sqs = d.nvme.sqs := by rw [nvmeSubmit_frame]
@[simp] theorem nvmeSubmit_cmds : d.nvmeSubmit.nvme.cmds = d.nvme.cmds := by rw [nvmeSubmit_frame]
@[simp] theorem nvmeSubmit_aers : d.nvmeSubmit.nvme.aers = d.nvme.aers := by rw [nvmeSubmit_frame]
@[simp] theorem nvmeSubmit_events : d.nvmeSubmit.nvme.events = d.nvme.events := by rw [nvmeSubmit_frame]
@[simp] theorem nvmeSubmit_aec : d.nvmeSubmit.nvme.aec = d.nvme.aec := by rw [nvmeSubmit_frame]
@[simp] theorem nvmeSubmit_numQueues : d.nvmeSubmit.nvme.numQueues = d.nvme.numQueues := by rw [nvmeSubmit_frame]
@[simp] theorem nvmeSubmit_sanitize : d.nvmeSubmit.nvme.sanitize = d.nvme.sanitize := by rw [nvmeSubmit_frame]

/-- A submission starts no self-test: it only suspends one that runs (R654). -/
theorem nvmeSubmit_test_none (h : d.nvme.test = none) : d.nvmeSubmit.nvme.test = none := by
  have hsame : (d.setRequests d.bellows.adminReq d.bellows.storageSet).settlePower.wakeUp.nvme = d.nvme := by
    rw [wakeUp_nvme, (settlePower_postsOnly _).nvme, setRequests_frame]
  unfold Dev.nvmeSubmit
  simp only [hsame, h]
end submit

/-! ### Resuming the self-test -/

theorem resumeTest_frame (d : Dev) : d.resumeTest = { d with nvme := { d.nvme with test := d.resumeTest.nvme.test } } := by
  unfold Dev.resumeTest
  split <;> rfl

section resume
variable (d : Dev)
@[simp] theorem resumeTest_out : d.resumeTest.out = d.out := by rw [resumeTest_frame]
@[simp] theorem resumeTest_face : d.resumeTest.face = d.face := by rw [resumeTest_frame]
@[simp] theorem resumeTest_cqs : d.resumeTest.nvme.cqs = d.nvme.cqs := by rw [resumeTest_frame]
@[simp] theorem resumeTest_sqs : d.resumeTest.nvme.sqs = d.nvme.sqs := by rw [resumeTest_frame]
@[simp] theorem resumeTest_cmds : d.resumeTest.nvme.cmds = d.nvme.cmds := by rw [resumeTest_frame]
@[simp] theorem resumeTest_aers : d.resumeTest.nvme.aers = d.nvme.aers := by rw [resumeTest_frame]
@[simp] theorem resumeTest_events : d.resumeTest.nvme.events = d.nvme.events := by rw [resumeTest_frame]
@[simp] theorem resumeTest_aec : d.resumeTest.nvme.aec = d.nvme.aec := by rw [resumeTest_frame]
@[simp] theorem resumeTest_sanitize : d.resumeTest.nvme.sanitize = d.nvme.sanitize := by rw [resumeTest_frame]

/-- A self-test that is not suspended goes on as it is. -/
theorem resumeTest_running (t : SelfTest) (h : d.nvme.test = some t) (hs : t.suspended = false) : d.resumeTest.nvme.test = some t := by
  obtain ⟨code, segment, suspended⟩ := t
  subst hs
  unfold Dev.resumeTest
  split
  · simp [h]
  · exact h
end resume

/-! ### Completions -/

/-- A successful completion is an output and nothing else. -/
@[simp] theorem nvmeDone_ok (d : Dev) (sq cid result : Nat) : d.nvmeDone sq cid .ok result = d.emit (.nvmeCompletion sq cid 0 0 result) := by
  rw [Dev.nvmeDone, if_pos rfl]
  rfl

@[simp] theorem nvmeReply_ok (d : Dev) (c : NvmeRequest) : d.nvmeReply c .ok = d.emit (.nvmeCompletion c.sq c.cid 0 0 0) := nvmeDone_ok _ _ _ _

@[simp] theorem emit_out (d : Dev) (o : Output) : (d.emit o).out = o :: d.out := rfl

theorem onNvme_admin {s : State} {c : NvmeRequest} (h : ServesAdmin s c) (f : Dev → Dev) : s.dev.onNvme c false f = (f s.dev.nvmeSubmit).resumeTest := by
  obtain ⟨hrun, hready, hsq⟩ := h
  simp [Dev.onNvme, hrun, hready, hsq]

theorem onNvme_io {s : State} {c : NvmeRequest} (h : ServesIo s c) (f : Dev → Dev) : s.dev.onNvme c true f = (f s.dev.nvmeSubmit).resumeTest := by
  obtain ⟨hrun, hready, hsq, hsan⟩ := h
  simp [Dev.onNvme, hrun, hready, hsq, hsan]

/-- An admin command is answered when its meaning, on the device after the submission, ends with the completion. -/
theorem nvmeAnswers_admin {i : Instr} {s : State} {c : NvmeRequest} {f : Dev → Dev} {sct sc result : Nat} {p : Dev → Prop} (h : ServesAdmin s c)
    (hexec : exec i s = s.onDev (fun d => d.onNvme c false f)) (hout : (f s.dev.nvmeSubmit).out.head? = some (.nvmeCompletion c.sq c.cid sct sc result))
    (hp : p (f s.dev.nvmeSubmit).resumeTest) : NvmeAnswers i s c sct sc result p := by
  refine ⟨{ s with dev := s.dev.onNvme c false f }, hexec, rfl, rfl, ?_, ?_⟩
  · rw [onNvme_admin h, resumeTest_out]
    exact hout
  · rw [onNvme_admin h]
    exact hp

theorem nvmeAnswers_io {i : Instr} {s : State} {c : NvmeRequest} {f : Dev → Dev} {sct sc result : Nat} {p : Dev → Prop} (h : ServesIo s c)
    (hexec : exec i s = s.onDev (fun d => d.onNvme c true f)) (hout : (f s.dev.nvmeSubmit).out.head? = some (.nvmeCompletion c.sq c.cid sct sc result))
    (hp : p (f s.dev.nvmeSubmit).resumeTest) : NvmeAnswers i s c sct sc result p := by
  refine ⟨{ s with dev := s.dev.onNvme c true f }, hexec, rfl, rfl, ?_, ?_⟩
  · rw [onNvme_io h, resumeTest_out]
    exact hout
  · rw [onNvme_io h]
    exact hp

/-! ### Queues (R639) -/

theorem queueRefusal_none (d : Dev) (c : NvmeRequest) (h1 : 1 ≤ queueId c) (h2 : queueId c ≤ d.nvme.numQueues) (h3 : 2 ≤ queueSize c)
    (h4 : queueSize c ≤ 4096) : d.queueRefusal c false = none := by
  simp [Dev.queueRefusal, Nat.not_lt.2 h2, Nat.not_lt.2 h3, Nat.not_lt.2 h4, Nat.ne_of_gt h1]

theorem createCq_accepted (d : Dev) (c : NvmeRequest) (hfree : AMap.has d.nvme.cqs (queueId c) = false) (hq : d.queueRefusal c false = none)
    (hv : c.cdw11 / 65536 % 65536 < 65) :
    d.createCq c = Dev.nvmeReply { d with nvme := { d.nvme with cqs := AMap.set d.nvme.cqs (queueId c) (queueSize c) } } c .ok := by
  simp [Dev.createCq, hfree, hq, Nat.not_le.2 hv]

theorem createSq_accepted (d : Dev) (c : NvmeRequest) (hcq : AMap.has d.nvme.cqs (c.cdw11 / 65536 % 65536) = true)
    (hfree : AMap.has d.nvme.sqs (queueId c) = false) (hq : d.queueRefusal c false = none) :
    d.createSq c = Dev.nvmeReply { d with nvme := { d.nvme with
      sqs := AMap.set d.nvme.sqs (queueId c) { size := queueSize c, cq := c.cdw11 / 65536 % 65536 } } } c .ok := by
  simp [Dev.createSq, hcq, hfree, hq]

theorem deleteCq_accepted (d : Dev) (c : NvmeRequest) (hthere : AMap.has d.nvme.cqs (c.cdw10 % 65536) = true)
    (hunused : d.nvme.sqs.all (fun p => p.2.cq != c.cdw10 % 65536) = true) :
    d.deleteCq c = Dev.nvmeReply { d with nvme := { d.nvme with cqs := AMap.del d.nvme.cqs (c.cdw10 % 65536) } } c .ok := by
  have hany : d.nvme.sqs.any (fun p => p.2.cq == c.cdw10 % 65536) = false := by
    simpa using hunused
  simp [Dev.deleteCq, hthere, hany]

/-- No command waits for the predicate, so none is ended. -/
theorem abortCmds_none (d : Dev) (p : NvmeCmd → Bool) (st : NvmeStatus) (h : d.nvme.cmds.filter p = []) : d.abortCmds p st = d := by
  rw [Dev.abortCmds, h]
  rfl

theorem deleteSq_accepted (d : Dev) (c : NvmeRequest) (hthere : AMap.has d.nvme.sqs (c.cdw10 % 65536) = true)
    (hidle : d.nvme.cmds.all (fun x => x.sq != c.cdw10 % 65536) = true) :
    d.deleteSq c = Dev.nvmeReply { d with nvme := { d.nvme with sqs := AMap.del d.nvme.sqs (c.cdw10 % 65536) } } c .ok := by
  have hnone : d.nvme.cmds.filter (fun x => x.sq == c.cdw10 % 65536) = [] := by
    simpa [List.filter_eq_nil_iff] using hidle
  simp [Dev.deleteSq, hthere, abortCmds_none d _ _ hnone]

/-- Settles O26: in each case the queue command finds nothing to refuse. -/
theorem nvmeQueues : Obligations.NvmeQueues := by
  unfold Obligations.NvmeQueues
  refine ⟨fun c s h hfree h1 h2 h3 h4 hv => ?_, fun c s h hcq hfree h1 h2 h3 h4 => ?_, fun c s h hthere hunused => ?_, fun c s h hthere hidle => ?_⟩
  · have he := createCq_accepted s.dev.nvmeSubmit c (by simpa using hfree) (queueRefusal_none _ c h1 (by simpa using h2) h3 h4) hv
    refine nvmeAnswers_admin h (exec_nvmeCreateIoCq c s) ?_ ?_
    · simp [he]
    · simp [he]
  · have he := createSq_accepted s.dev.nvmeSubmit c (by simpa using hcq) (by simpa using hfree) (queueRefusal_none _ c h1 (by simpa using h2) h3 h4)
    refine nvmeAnswers_admin h (exec_nvmeCreateIoSq c s) ?_ ?_
    · simp [he]
    · simp [he]
  · have he := deleteCq_accepted s.dev.nvmeSubmit c (by simpa using hthere) (by simpa using hunused)
    refine nvmeAnswers_admin h (exec_nvmeDeleteIoCq c s) ?_ ?_
    · simp [he]
    · simp [he]
  · have he := deleteSq_accepted s.dev.nvmeSubmit c (by simpa using hthere) (by simpa using hidle)
    refine nvmeAnswers_admin h (exec_nvmeDeleteIoSq c s) ?_ ?_
    · simp [he]
    · simp [he]

/-! ### The other admin commands -/

theorem identify_controller (d : Dev) (c : NvmeRequest) (h : c.cdw10 % 256 = 1) :
    d.identify c = (d.emit (.nvmeData 0 c.cid identifyController)).nvmeReply c .ok := by
  simp [Dev.identify, Dev.identifyData, h]

/-- All of a string of bytes, read from its start. -/
theorem bytesAt_all (bs : List Byte) (n : Nat) (h : bs.length = n) : bytesAt bs 0 n = bs := by
  simp [bytesAt, ← h]

theorem firmwareLog_length : firmwareLog.length = 512 := by decide +kernel

theorem getLogPage_firmware (d : Dev) (c : NvmeRequest) (hpage : c.cdw10 % 256 = 3) (hlow : c.cdw10 / 65536 % 65536 = 127) (hhigh : c.cdw11 % 65536 = 0)
    (h12 : c.cdw12 = 0) (h13 : c.cdw13 = 0) : d.getLogPage c = (d.draw.2.emit (.nvmeData 0 c.cid firmwareLog)).nvmeReply c .ok := by
  have hb : bytesAt firmwareLog 0 512 = firmwareLog := bytesAt_all _ _ firmwareLog_length
  simp [Dev.getLogPage, Dev.logPage, hpage, hlow, hhigh, h12, h13, firmwareLog_length, hb]

theorem abort_absent (d : Dev) (c : NvmeRequest)
    (h : d.nvme.cmds.all (fun x => !(x.sq == c.cdw10 % 65536 && x.cid == c.cdw10 / 65536 % 65536)) = true) : d.abort c = d.nvmeDone 0 c.cid .ok 1 := by
  have hnone : d.nvme.cmds.find? (fun x => x.sq == c.cdw10 % 65536 && x.cid == c.cdw10 / 65536 % 65536) = none := by
    rw [List.find?_eq_none]
    intro x hx
    simpa [imp_iff_not_or] using List.all_eq_true.1 h x hx
  simp only [Dev.abort, hnone]

theorem setFeatures_aec (d : Dev) (c : NvmeRequest) (hsave : bitOf c.cdw10 31 = false) (hf : c.cdw10 % 256 = 0x0B) :
    d.setFeatures c = Dev.nvmeReply { d with nvme := { d.nvme with aec := c.cdw11 % 2 ^ 32 } } c .ok := by
  simp [Dev.setFeatures, hsave, hf]

theorem getFeatures_aec (d : Dev) (c : NvmeRequest) (hsel : bitField c.cdw10 8 3 = 0) (hf : c.cdw10 % 256 = 0x0B) :
    d.getFeatures c = d.nvmeDone 0 c.cid .ok d.nvme.aec := by
  simp [Dev.getFeatures, hsel, hf]

theorem eventRequest_waits (d : Dev) (c : NvmeRequest) (hevents : d.nvme.events = []) (haers : d.nvme.aers = []) :
    d.eventRequest c = { d with nvme := { d.nvme with aers := [c.cid] } } := by
  simp [Dev.eventRequest, hevents, haers]

theorem deviceSelfTest_starts (d : Dev) (c : NvmeRequest) (hcode : c.cdw10 % 16 = 1 ∨ c.cdw10 % 16 = 2) (htest : d.nvme.test = none) :
    d.deviceSelfTest c = Dev.nvmeReply { d with nvme := { d.nvme with test := some { code := c.cdw10 % 16, segment := 1, suspended := false } } } c .ok := by
  rcases hcode with h | h <;> simp [Dev.deviceSelfTest, h, htest]

theorem nvmeSanitize_starts (d : Dev) (c : NvmeRequest) (hnone : d.nvme.sanitize = none) (hcode : c.cdw10 % 8 = 2 ∨ c.cdw10 % 8 = 4) :
    d.nvmeSanitize c = (d.startSanitize (c.cdw10 % 8 == 2)).nvmeReply c .ok := by
  rcases hcode with h | h <;> simp [Dev.nvmeSanitize, h, hnone]

/-- R656: a sanitize that starts destroys the key of every dataset. -/
theorem datasets_startSanitize (d : Dev) (blocks : Bool) :
    (d.startSanitize blocks).face.datasets.all (fun p => p.2.key.isEmpty && p.2.keyMode == 0) = true := by
  simp [Dev.startSanitize, AMap.mapKV]

/-- An invalid opcode is answered with the status of NVMe 2.0 and counted as an error of PF0. -/
theorem nvmeReply_invalidOpcode (d : Dev) (c : NvmeRequest) :
    d.nvmeReply c .invalidOpcode = { d.emit (.nvmeCompletion c.sq c.cid 0 1 0) with
      nvme := { d.nvme with errorCount := d.nvme.errorCount + 1, lastError := some (c.sq, c.cid, 1) } } := by
  rw [Dev.nvmeReply, Dev.nvmeDone, if_neg (by decide)]
  rfl

/-- Settles O27. -/
theorem nvmeAdminCommands : Obligations.NvmeAdminCommands := by
  unfold Obligations.NvmeAdminCommands
  refine ⟨fun c s h hcns => ?_, fun c s h hpage hlow hhigh h12 h13 => ?_, fun c s h habsent => ?_, fun c s h hsave hf => ?_, fun c s h hsel hf => ?_,
    fun c s h hevents haers => ?_, fun c s h hcode htest => ?_, fun c s h hsan hcode => ?_, fun c s h => ?_⟩
  · have he := identify_controller s.dev.nvmeSubmit c hcns
    refine nvmeAnswers_admin h (exec_identify c s) ?_ ?_ <;> simp [he]
  · have he := getLogPage_firmware s.dev.nvmeSubmit c hpage hlow hhigh h12 h13
    refine nvmeAnswers_admin h (exec_getLogPage c s) ?_ ?_ <;> simp [he]
  · have he := abort_absent s.dev.nvmeSubmit c (by simpa using habsent)
    refine nvmeAnswers_admin h (exec_abort c s) ?_ ?_ <;> simp [he, h.2.2]
  · have he := setFeatures_aec s.dev.nvmeSubmit c hsave hf
    refine nvmeAnswers_admin h (exec_setFeatures c s) ?_ ?_ <;> simp [he]
  · have he := getFeatures_aec s.dev.nvmeSubmit c hsel hf
    refine nvmeAnswers_admin h (exec_getFeatures c s) ?_ ?_ <;> simp [he, h.2.2]
  · have he := eventRequest_waits s.dev.nvmeSubmit c (by simpa using hevents) (by simpa using haers)
    refine ⟨{ s with dev := (s.dev.nvmeSubmit.eventRequest c).resumeTest }, ?_, rfl, rfl, ?_, ?_⟩
    · rw [exec_asynchronousEventRequest]
      exact congrArg (fun e => Host.Outcome.next { s with dev := e }) (onNvme_admin h _)
    · simp [he]
    · simp [he, hevents]
  · have he := deviceSelfTest_starts s.dev.nvmeSubmit c hcode (nvmeSubmit_test_none _ htest)
    refine nvmeAnswers_admin h (exec_deviceSelfTest c s) ?_ ?_
    · simp [he]
    · rw [he]
      exact resumeTest_running _ _ rfl rfl
  · have he := nvmeSanitize_starts s.dev.nvmeSubmit c (by simpa using hsan) hcode
    refine nvmeAnswers_admin h (exec_nvmeSanitize c s) ?_ ⟨?_, ?_, ?_⟩
    · simp [he]
    · simp [he, Dev.startSanitize]
    · simp [he, Dev.startSanitize]
    · rw [he, resumeTest_face]
      exact datasets_startSanitize _ (c.cdw10 % 8 == 2)
  · have hexec : exec (.nvmeInvalidOpcode c) s = s.onDev (fun d => d.onNvme c false (fun d => d.nvmeReply c .invalidOpcode)) := by
      rw [exec_nvmeInvalidOpcode, h.2.2]
      rfl
    refine nvmeAnswers_admin h hexec ?_ ⟨?_, ?_⟩ <;> simp [nvmeReply_invalidOpcode]

end Sys2Proof.Proofs
end

section
/-!
PROOFS. The NVM commands of the scratch namespace.
-/
namespace Sys2Proof.Proofs

open Sys2Proof.Machine Sys2Proof.Laws

/-! ### Tables and bytes -/

theorem amap_get_del {α : Type} (m : AMap α) (k j : Nat) : AMap.get? (AMap.del m k) j = if j = k then none else AMap.get? m j := by
  induction m with
  | nil => simp [AMap.del, AMap.get?]
  | cons p r ih =>
    obtain ⟨i, v⟩ := p
    unfold AMap.del at ih ⊢
    by_cases hik : i = k
    · subst hik
      simp only [List.filter_cons, bne_self_eq_false, Bool.false_eq_true, if_false, ih, AMap.get?]
      split
      · rfl
      · next hne => rw [if_neg (fun h => hne h.symm)]
    · simp only [List.filter_cons, bne_iff_ne, ne_eq, hik, not_false_eq_true, if_true, AMap.get?, ih]
      by_cases hij : i = j
      · subst hij
        simp [hik]
      · simp [hij]

theorem length_bytesAt (bs : List Byte) (o n : Nat) : (bytesAt bs o n).length = n := by
  simp [bytesAt]

/-- Bytes cut from bytes that are all 0 are 0. -/
theorem bytesAt_zero (bs : List Byte) (o n : Nat) (h : ∀ b ∈ bs, b = 0) : bytesAt bs o n = zeros n := by
  refine List.eq_replicate_iff.2 ⟨length_bytesAt bs o n, fun b hb => ?_⟩
  rcases List.mem_append.1 hb with hb | hb
  · exact h b (List.mem_of_mem_drop (List.mem_of_mem_take hb))
  · exact List.eq_of_mem_replicate hb

/-- Bytes laid over a string of the same length take its place. -/
theorem overlay_all (bs new : List Byte) (h : new.length = bs.length) : overlay bs 0 new = new := by
  simp [overlay, h]

@[simp] theorem count_out (d : Dev) (id idx n : Nat) : (d.count id idx n).out = d.out := by rw [count_frame]

/-! ### Granules -/

theorem granulesOf_one (g : Nat) : granulesOf (4 * g) 4 = [g] := by
  have h : (4 * g + 3) / 4 - g + 1 = 1 := by omega
  simp [granulesOf, h]

theorem granuleData_unmapped (d : Dev) (g : Nat) (h : AMap.get? d.face.granules g = none) : d.granuleData g = zeros 16384 := by
  rw [Dev.granuleData, h]
  exact bytesAt_zero [] 0 pageBytes (by simp)

theorem granuleData_eq (d : Dev) (g : Nat) (x : Granule) (h : AMap.get? d.face.granules g = some x) (hlen : x.data.length = 16384) :
    d.granuleData g = x.data := by
  rw [Dev.granuleData, h]
  exact bytesAt_all x.data 16384 hlen

/-- A granule that was not mapped takes the data, and no other granule changes. -/
theorem granules_writeGranule_unmapped (d : Dev) (g : Nat) (bs : List Byte) (h : AMap.get? d.face.granules g = none) :
    (d.writeGranule g bs).face.granules =
      AMap.set d.face.granules g { data := bs, unreadable := false, buffered := true, flushed := false, spn := 0 } := by
  simp only [Dev.writeGranule, Dev.dropGranulePage, h, Dev.journal]

theorem unmapGranule_unmaps (d : Dev) (g : Nat) : AMap.get? (d.unmapGranule g).face.granules g = none := by
  unfold Dev.unmapGranule
  split
  · simp [amap_get_del]
  · next h => simpa [AMap.has] using h

/-- Deallocating a whole granule unmaps it. -/
theorem deallocate_granule (d : Dev) (g : Nat) : d.deallocate (4 * g) 4 = d.unmapGranule g := by
  simp [Dev.deallocate, granulesOf_one]

/-- Blocks of unmapped granules read 0. -/
theorem nvmeBytes_unmapped (d : Dev) (lba n : Nat) (h : ∀ g ∈ granulesOf lba n, AMap.get? d.face.granules g = none) :
    d.nvmeBytes 1 lba n = zeros (4096 * n) := by
  rw [Dev.nvmeBytes, if_pos rfl]
  refine bytesAt_zero _ _ _ fun b hb => ?_
  obtain ⟨g, hg, hbg⟩ := List.mem_flatMap.1 hb
  rw [granuleData_unmapped d g (h g hg)] at hbg
  exact List.eq_of_mem_replicate hbg

theorem mem_granulesOf (lba n i : Nat) (h : i < n) : (lba + i) / 4 ∈ granulesOf lba n := by
  rw [granulesOf, if_neg (by omega)]
  exact List.mem_map.2 ⟨(lba + i) / 4 - lba / 4, List.mem_range.2 (by omega), by omega⟩

theorem blocksBefore_unmapped (d : Dev) (lba n : Nat) (h : ∀ g ∈ granulesOf lba n, AMap.get? d.face.granules g = none) : d.blocksBefore 1 lba n = n := by
  have hnone : (List.range n).find? (fun i => ((AMap.get? d.face.granules ((lba + i) / 4)).map Granule.unreadable).getD false) = none := by
    refine List.find?_eq_none.2 fun i hi => ?_
    simp [h _ (mem_granulesOf lba n i (List.mem_range.1 hi))]
  rw [Dev.blocksBefore, if_pos rfl, hnone]
  rfl

theorem loseGranules_unmapped (gs : List Nat) (d : Dev) (h : ∀ g ∈ gs, AMap.get? d.face.granules g = none) : gs.foldl Dev.loseGranule d = d := by
  induction gs with
  | nil => rfl
  | cons g gs ih =>
    have hg : d.loseGranule g = d := by simp [Dev.loseGranule, h g]
    rw [List.foldl_cons, hg, ih (fun x hx => h x (List.mem_cons_of_mem g hx))]

theorem nvmeDies_unmapped (d : Dev) (lba n : Nat) (h : ∀ g ∈ granulesOf lba n, AMap.get? d.face.granules g = none) : d.nvmeDies 1 lba n = [] := by
  have hnil : ∀ ds : List Nat, ds = [] → (sortByKey id ds.eraseDups).map (fun n => (n, ds.countP (fun m => m == n))) = [] := by
    rintro _ rfl
    rfl
  rw [Dev.nvmeDies, if_pos rfl]
  exact hnil _ (List.filterMap_eq_nil_iff.2 fun g hg => by simp [h g hg])

/-! ### The commands -/

theorem lbaRefusal_scratch (d : Dev) (c : NvmeRequest) (moves : Bool) (hns : c.nsid = 1) (hn : c.blocks ≤ 512) (hsize : c.lba + c.blocks ≤ d.nsSize 1) :
    d.lbaRefusal c moves = none := by
  simp [Dev.lbaRefusal, Dev.nsActive, hns, Nat.not_lt.2 hn, Nat.not_lt.2 hsize]

theorem nsSize_nvmeSubmit (d : Dev) : d.nvmeSubmit.nsSize 1 = d.nsSize 1 := by
  rw [nvmeSubmit_frame]
  rfl

theorem dirtyRoom_congr {d e : Dev} (h : d.face = e.face) (n : Nat) : d.dirtyRoom n = e.dirtyRoom n := by
  unfold Dev.dirtyRoom Dev.dirtyNow
  rw [h]

/-- A Write of one whole granule that was not mapped, with room for it. -/
theorem writeScratchCmd_granule (d : Dev) (c : NvmeRequest) (g : Nat) (hlba : c.lba = 4 * g) (hn : c.blocks = 4) (hcmds : d.nvme.cmds = [])
    (hroom : d.dirtyRoom 16384 = true) (hfree : AMap.get? d.face.granules g = none) (hlen : c.data.length = 16384) :
    d.writeScratchCmd c = (d.writeGranule g c.data).nvmeReply c .ok := by
  have hpad : padTo c.data 16384 = c.data := bytesAt_all c.data 16384 hlen
  have hcut : bytesAt c.data 0 16384 = c.data := bytesAt_all c.data 16384 hlen
  have hover : overlay (zeros 16384) 0 c.data = c.data := overlay_all _ _ (by rw [hlen, zeros, List.length_replicate])
  simp [Dev.writeScratchCmd, hlba, hn, hcmds, granulesOf_one, pageBytes, hroom, Dev.writeScratch, lbaBytes, hpad, hcut, granuleData_unmapped d g hfree, hover]

theorem nvmeReadDone_unmapped (d : Dev) (sq cid lba n : Nat) (hn : 0 < n) (h : ∀ g ∈ granulesOf lba n, AMap.get? d.face.granules g = none) :
    d.nvmeReadDone sq cid 1 lba n = (((d.countGranules (granulesOf lba n)).emit (.nvmeData sq cid (zeros (4096 * n)))).count Counter.nvmeReadBytes 0
      (lbaBytes * n)).emit (.nvmeCompletion sq cid 0 0 0) := by
  have hface : (d.countGranules (granulesOf lba n)).face = d.face := by simp [Dev.countGranules]
  have h' : ∀ g ∈ granulesOf lba n, AMap.get? (d.countGranules (granulesOf lba n)).face.granules g = none := by
    rw [hface]
    exact h
  simp [Dev.nvmeReadDone, loseGranules_unmapped _ _ h', blocksBefore_unmapped _ _ _ h', nvmeBytes_unmapped _ _ _ h', Nat.ne_of_gt hn]

theorem nvmeRead_unmapped (d : Dev) (c : NvmeRequest) (hns : c.nsid = 1) (hn : c.blocks ≤ 512) (hsize : c.lba + c.blocks ≤ d.nsSize 1)
    (h : ∀ g ∈ granulesOf c.lba c.blocks, AMap.get? d.face.granules g = none) :
    d.nvmeRead c = d.nvmeReadDone c.sq c.cid 1 c.lba c.blocks := by
  simp [Dev.nvmeRead, lbaRefusal_scratch d c true hns hn hsize, hns, nvmeDies_unmapped d _ _ h]

/-- Settles O28. -/
theorem nvmeIoCommands : Obligations.NvmeIoCommands := by
  unfold Obligations.NvmeIoCommands
  refine ⟨fun c s h hns hlba hn hsize hcmds hroom hfree hlen => ?_, fun c s h hns hn hsize hfree => ?_, fun c s h hns => ?_,
    fun c s h hns hlba hn hsize hdeac _ => ?_, fun c s g h hns hdeac hone hstart hcount hsize => ?_⟩
  · have hg : c.lba = 4 * (c.lba / 4) := by omega
    have hroom' : (s.dev.nvmeSubmit.count Counter.nvmeWriteBytes 0 16384).dirtyRoom 16384 = true := by
      rw [dirtyRoom_congr (e := s.dev) (by simp), hroom]
    have he := writeScratchCmd_granule (s.dev.nvmeSubmit.count Counter.nvmeWriteBytes 0 16384) c _ hg hn (by simpa using hcmds) hroom'
      (by simpa using hfree) hlen
    have hw : s.dev.nvmeSubmit.nvmeWrite c =
        ((s.dev.nvmeSubmit.count Counter.nvmeWriteBytes 0 16384).writeGranule (c.lba / 4) c.data).nvmeReply c .ok := by
      simp only [Dev.nvmeWrite, lbaRefusal_scratch _ c true hns (by omega) (by rw [nsSize_nvmeSubmit, hn]; exact hsize), if_pos hns, hn]
      exact he
    have hset := granules_writeGranule_unmapped (s.dev.nvmeSubmit.count Counter.nvmeWriteBytes 0 16384) (c.lba / 4) c.data (by simpa using hfree)
    refine nvmeAnswers_io h (exec_nvmeWrite c s) ?_ ⟨?_, fun g hne => ?_⟩
    · simp [hw]
    · refine granuleData_eq _ _ { data := c.data, unreadable := false, buffered := true, flushed := false, spn := 0 } ?_ hlen
      simp [hw, hset, amap_get_set]
    · simp [hw, hset, amap_get_set, hne]
  · have hfree' : ∀ g ∈ granulesOf c.lba c.blocks, AMap.get? s.dev.nvmeSubmit.face.granules g = none := by simpa using hfree
    have he := (nvmeRead_unmapped s.dev.nvmeSubmit c hns hn (by rw [nsSize_nvmeSubmit]; exact hsize) hfree').trans
      (nvmeReadDone_unmapped _ _ _ _ _ (Nat.succ_pos _) hfree')
    refine nvmeAnswers_io h (exec_nvmeRead c s) ?_ ⟨?_, ?_⟩
    · simp [he]
    · simp [he, Dev.countGranules]
    · simp [he, Dev.countGranules]
  · have he : s.dev.nvmeSubmit.nvmeFlush c = s.dev.nvmeSubmit.nvmeReply c .ok := by simp [Dev.nvmeFlush, hns, Dev.nsActive]
    refine nvmeAnswers_io h (exec_nvmeFlush c s) ?_ ?_ <;> simp [he]
  · obtain ⟨g, hg⟩ : ∃ g, c.lba = 4 * g := ⟨c.lba / 4, by omega⟩
    have he : s.dev.nvmeSubmit.writeZeroes c = (s.dev.nvmeSubmit.unmapGranule g).nvmeReply c .ok := by
      simp [Dev.writeZeroes, lbaRefusal_scratch _ c false hns (by omega) (by rw [nsSize_nvmeSubmit, hn]; exact hsize), hns, hdeac, hg, hn, deallocate_granule]
    refine nvmeAnswers_io h (exec_writeZeroes c s) ?_ ?_
    · simp [he]
    · simp [he, hg, unmapGranule_unmaps]
  · have hrange : dsmRanges c = [(4 * g, 4)] := by simp [dsmRanges, hone, hstart, hcount]
    have he : s.dev.nvmeSubmit.datasetManagement c = (s.dev.nvmeSubmit.unmapGranule g).nvmeReply c .ok := by
      simp [Dev.datasetManagement, Dev.nsActive, hns, hdeac, hrange, nsSize_nvmeSubmit, Nat.not_lt.2 hsize, deallocate_granule]
    refine nvmeAnswers_io h (exec_datasetManagement c s) ?_ ?_
    · simp [he]
    · simp [he, unmapGranule_unmaps]

end Sys2Proof.Proofs
end

section
/-!
PROOFS. The events of PF0: CC.EN, idle transitions, the end of a self-test, resets.
-/
namespace Sys2Proof.Proofs

open Sys2Proof.Machine Sys2Proof.Laws

/-! ### Power requests (R617, R618) -/

theorem wakeUp_adminReq (d : Dev) : d.wakeUp.bellows.adminReq = d.bellows.adminReq := by
  unfold Dev.wakeUp
  split <;> rfl

theorem wakeUp_storageReq (d : Dev) : d.wakeUp.bellows.storageReq = d.bellows.storageReq := by
  unfold Dev.wakeUp
  split <;> rfl

@[simp] theorem setRequests_adminReq (d : Dev) (a b : PowerState) : (d.setRequests a b).bellows.adminReq = a := by
  unfold Dev.setRequests
  dsimp only
  split <;> split
  · exact wakeUp_adminReq _
  · exact wakeUp_adminReq _
  · rfl
  · rfl

@[simp] theorem setRequests_storageReq (d : Dev) (a b : PowerState) : (d.setRequests a b).bellows.storageReq = b := by
  unfold Dev.setRequests
  dsimp only
  split <;> split
  · exact wakeUp_storageReq _
  · exact wakeUp_storageReq _
  · rfl
  · rfl

theorem settlePower_bellows (d : Dev) : d.settlePower.bellows = { d.bellows with inForce := d.stateInForce } := by
  unfold Dev.settlePower
  dsimp only
  split
  · next h => rw [h]
  · rw [event_bellows]

/-- Only EVENTS_DROPPED of the administrative window can count when the state in force settles. -/
theorem counter_settlePower (d : Dev) (id idx : Nat) (hk : objKey id idx ≠ objKey Counter.eventsDropped adminWin) :
    d.settlePower.counter id idx = d.counter id idx := by
  unfold Dev.settlePower
  dsimp only
  split
  · rfl
  · exact counter_post _ _ _ _ _ hk

/-! ### An idle transition (R651) -/

theorem apstTransition_idle (d : Dev) (hready : d.nvmeReady = true) (hapste : d.nvme.apste = true) (hcmds : d.nvme.cmds = []) (htest : d.nvme.test = none)
    (htime : apstTime (d.nvme.apst.getD d.bellows.storageReq.code 0) ≠ 0) :
    d.apstTransition = ((d.setRequests d.bellows.adminReq (PowerState.ofCode (apstTarget (d.nvme.apst.getD d.bellows.storageReq.code 0)))).settlePower).count
      Counter.apstTransition 0 1 := by
  simp only [Dev.apstTransition]
  rw [if_neg]
  simp only [hready, hapste, Dev.nvmeIdle, hcmds, htest, htime]
  decide

/-! ### The end of a self-test (R655) -/

theorem nvmeEvent_tests (d : Dev) (kind info page : Nat) :
    (d.nvmeEvent kind info page).nvme.test = d.nvme.test ∧ (d.nvmeEvent kind info page).nvme.tests = d.nvme.tests := by
  unfold Dev.nvmeEvent
  split <;> exact ⟨rfl, rfl⟩

theorem endSelfTest_none (d : Dev) (r seg : Nat) (die : Option Nat) (h : d.nvme.test = none) : d.endSelfTest r seg die = d := by
  simp [Dev.endSelfTest, h]

theorem endSelfTest_logs (d : Dev) (k : SelfTest) (r seg : Nat) (die : Option Nat) (h : d.nvme.test = some k) :
    (d.endSelfTest r seg die).nvme.test = none ∧
      (d.endSelfTest r seg die).nvme.tests = ({ code := k.code, result := r, segment := seg, die := die } :: d.nvme.tests).take 20 := by
  simp only [Dev.endSelfTest, h]
  constructor
  · rw [(nvmeEvent_tests _ _ _ _).1]
    simp [Dev.draw]
  · rw [(nvmeEvent_tests _ _ _ _).2]
    simp [Dev.draw]

/-! ### A reset of PF0 (R642) -/

/-- What ending commands leaves alone: the Bellows, the self-test and its log, and a sanitize. -/
def KeepsTests (d e : Dev) : Prop :=
  e.bellows = d.bellows ∧ e.nvme.test = d.nvme.test ∧ e.nvme.tests = d.nvme.tests ∧ e.nvme.sanitize = d.nvme.sanitize

theorem KeepsTests.refl (d : Dev) : KeepsTests d d := ⟨rfl, rfl, rfl, rfl⟩

theorem KeepsTests.trans {d e f : Dev} (h : KeepsTests d e) (k : KeepsTests e f) : KeepsTests d f := by
  obtain ⟨hb, ht, hl, hs⟩ := h
  obtain ⟨kb, kt, kl, ks⟩ := k
  exact ⟨kb.trans hb, kt.trans ht, kl.trans hl, ks.trans hs⟩

theorem KeepsTests.of_eq {d e : Dev} (hb : e.bellows = d.bellows) (hn : e.nvme = d.nvme) : KeepsTests d e := by
  refine ⟨hb, ?_, ?_, ?_⟩ <;> rw [hn]

theorem KeepsTests.foldl {α : Type} (f : Dev → α → Dev) (h : ∀ d x, KeepsTests d (f d x)) (l : List α) (d : Dev) : KeepsTests d (l.foldl f d) := by
  induction l generalizing d with
  | nil => exact .refl d
  | cons x l ih => exact (h d x).trans (ih (f d x))

theorem keepsTests_nvmeDone (d : Dev) (sq cid : Nat) (st : NvmeStatus) (r : Nat) : KeepsTests d (d.nvmeDone sq cid st r) := by
  unfold Dev.nvmeDone
  dsimp only
  split <;> exact ⟨rfl, rfl, rfl, rfl⟩

theorem keepsTests_addDirty (d : Dev) (owes : List (Nat × Nat)) : KeepsTests d (d.addDirty owes) := by
  unfold Dev.addDirty
  refine .foldl _ (fun _ _ => ?_) owes d
  exact .of_eq rfl rfl

theorem keepsTests_unwrite (d : Dev) (c : NvmeCmd) : KeepsTests d (d.unwrite c) := by
  unfold Dev.unwrite
  split
  · exact .refl d
  · refine .foldl _ (fun d o => ?_) _ d
    split
    · exact .refl d
    · dsimp only
      split
      · exact keepsTests_addDirty d [o]
      · split <;> exact .of_eq rfl rfl

theorem keepsTests_abortCmd (d : Dev) (c : NvmeCmd) (st : NvmeStatus) : KeepsTests d (d.abortCmd c st) := by
  have hdrop : KeepsTests d (d.dropCmd c.id) := ⟨rfl, rfl, rfl, rfl⟩
  have hitems := hdrop.trans (KeepsTests.foldl (fun (d : Dev) (i : Item) => d.dropItem i.id) (fun _ _ => .of_eq rfl rfl)
    (d.tick.items.filter (fun i => i.job == .storage c.id)) (d.dropCmd c.id))
  unfold Dev.abortCmd
  dsimp only
  refine .trans ?_ (keepsTests_nvmeDone _ _ _ _ _)
  split
  · exact hitems.trans (keepsTests_unwrite _ _)
  · exact hitems

/-- The commands and the requests that a reset of PF0 ends. -/
theorem keepsTests_endCommands (d : Dev) :
    KeepsTests d ((d.abortCmds (fun _ => true) .abortedSqDeletion).nvme.aers.foldl (fun d cid => d.nvmeDone 0 cid .abortedSqDeletion 0)
      (d.abortCmds (fun _ => true) .abortedSqDeletion)) :=
  (KeepsTests.foldl _ (fun d c => keepsTests_abortCmd d c _) _ d).trans (.foldl _ (fun d cid => keepsTests_nvmeDone d 0 cid _ 0) _ _)

theorem settlePower_nvme (d : Dev) : d.settlePower.nvme = d.nvme := (settlePower_postsOnly d).nvme

theorem setRequests_nvme (d : Dev) (a b : PowerState) : (d.setRequests a b).nvme = d.nvme := by rw [setRequests_frame]

/-- Settles O29. -/
theorem nvmeControllerEvents : Obligations.NvmeControllerEvents := by
  unfold Obligations.NvmeControllerEvents
  refine ⟨fun s h => completes_running (exec_ccEnSet s) h rfl, fun s h hready hapste hcmds htest htime => ?_, fun k die s h htest hsus => ?_,
    fun s h htest => ?_⟩
  · refine ⟨_, exec_running (exec_apstTransition s) h, rfl, rfl, ?_⟩
    rw [apstTransition_idle s.dev hready hapste hcmds htest htime]
    refine ⟨?_, ?_, ?_, ?_⟩
    · simp [settlePower_bellows]
    · simp [settlePower_bellows]
    · simp [settlePower_nvme, setRequests_nvme]
    · have hkey : objKey Counter.apstTransition 0 ≠ objKey Counter.eventsDropped adminWin := by decide
      have hset : (s.dev.setRequests s.dev.bellows.adminReq
          (PowerState.ofCode (apstTarget (s.dev.nvme.apst.getD s.dev.bellows.storageReq.code 0)))).counter Counter.apstTransition 0 =
          s.dev.counter Counter.apstTransition 0 := by
        rw [setRequests_frame]
        rfl
      rw [counter_count_same _ _ _ _ Nat.one_pos, counter_settlePower _ _ _ hkey, hset]
  · refine ⟨_, exec_running (exec_selftestDone 0 die s) h, rfl, rfl, ?_⟩
    have he : s.dev.selfTestDone 0 die = s.dev.endSelfTest 0 0 none := by simp [Dev.selfTestDone, htest, hsus]
    rw [he]
    exact endSelfTest_logs s.dev k 0 0 none htest
  · refine ⟨_, exec_running (exec_pf0Reset s) h, rfl, rfl, ?_⟩
    obtain ⟨hb, ht, hl, hs⟩ := keepsTests_endCommands s.dev
    have hnone := endSelfTest_none _ 2 0 none (ht.trans htest)
    simp only [Dev.pf0Reset, hnone, settlePower_nvme, setRequests_nvme, settlePower_bellows, setRequests_adminReq, setRequests_storageReq]
    exact ⟨rfl, rfl, rfl, rfl, rfl, hl, hs, trivial, trivial, by rw [hb]⟩

end Sys2Proof.Proofs
end

section
/-!
PROOFS. The sideband: MCTP control requests and I3C addresses, vendor-defined messages, the recovery port, JTAG.
-/
namespace Sys2Proof.Proofs

open Sys2Proof.Machine Sys2Proof.Laws

/-! ### Fields of bytes after a cut -/

theorem bytesAt_drop (bs : List Byte) (k o n : Nat) : bytesAt (bs.drop k) o n = bytesAt bs (k + o) n := by
  rw [bytesAt, bytesAt, List.drop_drop]

theorem leAt_drop (bs : List Byte) (k o w : Nat) : leAt (bs.drop k) o w = leAt bs (k + o) w := by
  rw [leAt, leAt, bytesAt_drop]

theorem beAt_drop (bs : List Byte) (k o w : Nat) : beAt (bs.drop k) o w = beAt bs (k + o) w := by
  rw [beAt, beAt, bytesAt_drop]

/-! ### MCTP control requests and I3C addresses (R661) -/

/-- A control request of the endpoint with as many bytes of data as its command takes is served. -/
theorem onControl_served (d : Dev) (p : MctpPacket) (code n : Nat) (f : Dev → List Byte → Dev) (hmine : d.mctpMine p = true) (hpec : p.pecOk = true)
    (hcode : isControl p code = true) (hlen : p.body.length = 3 + n) : d.onControl p code n f = f d (p.body.drop 3) := by
  simp [Dev.onControl, hmine, hpec, hcode, hlen]

theorem onControl_badPec (d : Dev) (p : MctpPacket) (code n : Nat) (f : Dev → List Byte → Dev) (hmine : d.mctpMine p = true) (hpec : p.pecOk = false) :
    d.onControl p code n f = d.count Counter.mctpDrop 0 1 := by
  simp [Dev.onControl, hmine, hpec, Dev.mctpDrop]

/-- Settles O30. -/
theorem mctpEndpoint : Obligations.MctpEndpoint := by
  unfold Obligations.MctpEndpoint
  refine ⟨fun p s h hmine hpec hcode hlen hop hlow hhigh => completes_running (exec_setEndpointId p s) h ?_,
    fun p s h hmine hpec hcode hlen => completes_running (exec_getEndpointId p s) h ?_,
    fun p s h hmine hpec hcode hlen htype => completes_running (exec_getMctpVersionSupport p s) h ?_,
    fun p s h hmine hpec hcode hlen => completes_running (exec_getMessageTypeSupport p s) h ?_,
    fun p s h hmine hpec hcode hlen hset => completes_running (exec_getVendorDefinedMessageSupport p s) h ?_,
    fun p s h hmine hpec => completes_running (exec_getEndpointId p s) h ?_,
    fun a s h hnone => ⟨completes_running (exec_setdasa a s) h ?_, completes_running (exec_entdaa a s) h ?_⟩,
    fun a b s h hsome => ⟨same_running (exec_setdasa a s) h ?_, same_running (exec_entdaa a s) h ?_⟩,
    fun s h => completes_running (exec_rstdaa s) h rfl⟩
  · rw [onControl_served _ p 1 2 _ hmine hpec hcode hlen]
    simp [Dev.setEid, leAt_drop, Nat.not_lt.2 hop, Nat.not_lt.2 hlow, hhigh]
  · rw [onControl_served _ p 2 0 _ hmine hpec hcode hlen]
  · rw [onControl_served _ p 4 1 _ hmine hpec hcode hlen]
    simp [Dev.mctpVersions, leAt_drop, htype, Dev.draw]
  · rw [onControl_served _ p 5 0 _ hmine hpec hcode hlen]
  · rw [onControl_served _ p 6 1 _ hmine hpec hcode hlen]
    simp [Dev.mctpVendors, leAt_drop, hset, Dev.draw, enterprise]
  · exact onControl_badPec _ p 2 0 _ hmine hpec
  · simp [Dev.modMctp, hnone]
  · simp [Dev.modMctp, hnone]
  · simp [Dev.modMctp, hsome]
  · simp [Dev.modMctp, hsome]

/-! ### Vendor-defined messages (R662) -/

/-- A vendor-defined message in one packet is whole at once. -/
theorem take_whole (m : Mctp) (p : MctpPacket) (hpec : p.pecOk = true) (howner : p.tagOwner = true) (hsom : p.som = true) (heom : p.eom = true)
    (hlen : p.body.length = 9) (htype : leAt p.body 0 1 = 0x7F) (hnone : m.assembly = none) : m.take p = .whole p.body := by
  have hne : p.body ≠ [] := by
    intro h
    simp [h] at hlen
  simp [Mctp.take, hpec, howner, hsom, heom, hlen, htype, hnone, hne]

theorem onVendor_whole (d : Dev) (p : MctpPacket) (v : Nat) (hmine : d.mctpMine p = true) (htake : d.side.mctp.take p = .whole p.body)
    (hnone : d.side.mctp.assembly = none) : d.onVendor p v = d.sideServe p v (p.body.drop 1) := by
  have hsame : d.modMctp (fun x => { x with assembly := none }) = d := by
    unfold Dev.modMctp
    rw [← hnone]
  simp [Dev.onVendor, hmine, htake, hsame]

/-- A message that carries no HELLO leaves the negotiated versions alone. -/
theorem vendorHdr_not_hello (hdr : AMap Nat) (d : Dev) (p : MctpPacket) (htake : d.side.mctp.take p = .whole p.body) (hop : leAt p.body 5 2 ≠ 1) :
    vendorHdr hdr d p = hdr := by
  have hver : d.sideVersion (p.body.drop 1) = none := by
    simp [-List.drop_one, Dev.sideVersion, leAt_drop, hop]
  unfold vendorHdr
  split
  · rfl
  · simp [-List.drop_one, htake, hver]

theorem stateRefusal_ready (d : Dev) (w opcode : Nat) (hstate : d.hearth.state = .ready) (hsan : d.nvme.sanitize = none) :
    d.stateRefusal w opcode = none := by
  simp [Dev.stateRefusal, hsan, hstate]

/-- READ_TROUBLE with an empty payload passes every check. -/
theorem sideRefusal_readTrouble (d : Dev) (v : Nat) (b : List Byte) (hv : 0x0100 ≤ v) (hlen : b.length = 8) (hn : leAt b 6 2 = 0)
    (hstate : d.hearth.state = .ready) (hsan : d.nvme.sanitize = none) : d.sideRefusal cmdReadTrouble v b = none := by
  have hreq : sideRequest b = { tag := 0, len := 0, sglCount := 0, hdrRsv := 0, sglAddr := 0, payload := [], sgl := [], sglReadable := true, data := [] } := by
    simp [sideRequest, hn, List.drop_eq_nil_of_le (Nat.le_of_eq hlen)]
  have hv0 : v ≠ 0 := by omega
  simp [Dev.sideRefusal, Cmd.refusal, cmdReadTrouble, hreq, stateRefusal_ready d _ _ hstate hsan, firstFail, needs, Dev.windowEnabled, hv0, hv, Dev.sglOk]

/-- READ_TROUBLE over the sideband returns the trouble words. -/
theorem sideServe_readTrouble (d : Dev) (p : MctpPacket) (v : Nat) (b : List Byte) (hent : beAt b 0 4 = enterprise) (hlen : b.length = 8)
    (hop : leAt b 4 2 = 0x0104) (hn : leAt b 6 2 = 0) (hv : 0x0100 ≤ v) (hstate : d.hearth.state = .ready) (hsan : d.nvme.sanitize = none) :
    d.sideServe p v b = d.sideReply p Status.success d.troubleBytes := by
  have hcmd : sideCmd 0x0104 = some cmdReadTrouble := rfl
  simp [Dev.sideServe, hent, hlen, hstate, hop, hcmd, sideRefusal_readTrouble d v b hv hlen hn hstate hsan]
  rfl

/-- An opcode that the sideband does not carry is refused. -/
theorem sideServe_notCarried (d : Dev) (p : MctpPacket) (v : Nat) (b : List Byte) (hent : beAt b 0 4 = enterprise) (hlen : b.length = 8)
    (hop : sideCmd (leAt b 4 2) = none) (hstate : d.hearth.state = .ready) : d.sideServe p v b = d.sideReply p Status.sidebandOpcode [] := by
  simp [Dev.sideServe, hent, hlen, hstate, hop]

/-- Settles O31. -/
theorem vendorMessages : Obligations.VendorMessages := by
  unfold Obligations.VendorMessages
  intro p s h hmine hpec howner hsom heom hlen htype hent hn hnone hstate hsan
  have htake := take_whole s.dev.side.mctp p hpec howner hsom heom hlen htype hnone
  have hdev := fun v => onVendor_whole s.dev p v hmine htake hnone
  have hent' : beAt (p.body.drop 1) 0 4 = enterprise := by rw [beAt_drop]; exact hent
  have hop' : leAt (p.body.drop 1) 4 2 = leAt p.body 5 2 := leAt_drop _ _ _ _
  have hlen' : (p.body.drop 1).length = 8 := by simp [hlen]
  refine ⟨fun hop hv => ⟨_, exec_vendorDefinedMessage p s, rfl, vendorHdr_not_hello s.hdr s.dev p htake (by omega), ?_⟩,
    fun hop => ⟨_, exec_vendorDefinedMessage p s, rfl, vendorHdr_not_hello s.hdr s.dev p htake ?_, ?_⟩⟩
  · simp only [h, hdev, sideKey]
    exact sideServe_readTrouble s.dev p _ _ hent' hlen' (hop'.trans hop) (by rw [leAt_drop]; exact hn) hv hstate hsan
  · intro hone
    simp [hone, sideCmd] at hop
  · simp only [h, hdev]
    exact sideServe_notCarried s.dev p _ _ hent' hlen' (by rw [hop']; exact hop) hstate

/-! ### The recovery port (R665, R666) -/

/-- The device as the port takes a command up: the data of the last command are gone. -/
def recTaken (d : Dev) : Dev := d.modRec (fun x => { x with dataReady := false, progress := 0, count := 0 })

theorem onRec_served (d : Dev) (always : Bool) (f : Dev → Dev) (h : d.stopped = false) (hbusy : d.side.recov.busy = false)
    (hstate : always = true ∨ d.hearth.state = .recovery) : d.onRec always f = f (recTaken d) := by
  rcases hstate with hs | hs <;> simp [Dev.onRec, Dev.recServes, recTaken, h, hbusy, hs]

theorem exec_recServed {i : Instr} {s : State} {always : Bool} {f : Dev → Dev} (hexec : exec i s = s.onDev (fun d => d.onRec always f))
    (h : s.dev.stopped = false) (hbusy : s.dev.side.recov.busy = false) (hstate : always = true ∨ s.dev.hearth.state = .recovery) :
    exec i s = .next { s with dev := f (recTaken s.dev) } := by
  rw [hexec, State.onDev, onRec_served s.dev always f h hbusy hstate]

/-- What returning data through the port leaves as it was. -/
theorem recReturn_frame (d : Dev) (bs : List Byte) :
    (d.recReturn bs).hearth = d.hearth ∧ (d.recReturn bs).boot = d.boot ∧ (d.recReturn bs).side.recov.result = RecResult.ok ∧
      (d.recReturn bs).side.recov.dataReady = true ∧ (d.recReturn bs).side.recov.progress = bs.length := by
  have hfold : ∀ (l : List Nat) (d : Dev), (l.foldl (fun d k => d.emit (.readData ((bs.drop (256 * k)).take 256))) d).hearth = d.hearth ∧
      (l.foldl (fun d k => d.emit (.readData ((bs.drop (256 * k)).take 256))) d).boot = d.boot := by
    intro l
    induction l with
    | nil => exact fun d => ⟨rfl, rfl⟩
    | cons k l ih => exact fun d => ih (d.emit _)
  obtain ⟨hh, hb⟩ := hfold (List.range (ceilDiv bs.length 256)) d
  exact ⟨hh, hb, rfl, rfl, rfl⟩

/-- Settles O32. -/
theorem recoveryPortCommands : Obligations.RecoveryPortCommands := by
  unfold Obligations.RecoveryPortCommands
  refine ⟨fun s h hstate hbusy => ⟨_, exec_recServed (exec_factoryDefaults true s) h hbusy (.inr hstate), rfl, rfl, rfl, rfl, rfl, rfl, rfl⟩,
    fun s h hstate hbusy harg => ⟨_, exec_recServed (exec_sanitize true s) h hbusy (.inr hstate), rfl, rfl, ?_⟩,
    fun s h hbusy harg => ⟨_, exec_recServed (exec_readLog s) h hbusy (.inl rfl), rfl, rfl, ?_⟩,
    fun code s h hbusy hcode => ⟨_, exec_recServed (f := fun d => d.recEnd RecResult.badCode) ((exec_badCode code s).trans ?_) h hbusy (.inl rfl), rfl, rfl, rfl, rfl, rfl⟩, fun s h => ?_⟩
  · have harg' : ¬ 1 < (recTaken s.dev).recArg := Nat.not_lt.2 harg
    rw [Dev.recSanitize, if_neg harg']
    exact ⟨rfl, rfl, rfl⟩
  · have harg' : (recTaken s.dev).recArg = 0 := harg
    rw [Dev.recReadLog, if_pos harg']
    obtain ⟨hh, hb, hresult, hready, hlen⟩ := recReturn_frame (recTaken s.dev) (s.dev.boot.measure ++ s.dev.boot.log.flatMap BootEntry.bytes)
    exact ⟨hresult, hready, hlen, hb, hh⟩
  · have hcode' : ¬ (decide (1 ≤ code % 256) && decide (code % 256 ≤ 6)) = true := by simpa using hcode
    simp only [if_neg hcode']
  · rw [Completes, exec_recStatusRead, State.onDev]
    simp only [h, Bool.false_eq_true, if_false]

/-! ### JTAG (R702) -/

/-- Settles O33: each instruction is its meaning on the port; only EXTEST asks for the state. -/
theorem jtagInstructions : Obligations.JtagInstructions := by
  unfold Obligations.JtagInstructions
  refine ⟨fun b s => exec_bypass b s, fun b s => ⟨(List.range 31).map (fun i => bitOf Config.idcode i), by simp, exec_idcode b s⟩,
    fun b s => ⟨freeBits s.dev.draws b.length, by simp [freeBits], exec_samplePreload b s⟩,
    fun b s hstate => ⟨freeBits s.dev.draws b.length, by simp [freeBits], ?_⟩, fun b s hboot hrec => ?_⟩
  · rw [Completes, exec_extest, State.onDev]
    rcases hstate with hs | hs <;> simp [hs, Dev.draw]
  · simp [exec_extest, State.onDev, hboot, hrec]

end Sys2Proof.Proofs
end

section
/-!
PROOFS. Slumber; what stops the clocks; droop episodes.
-/
namespace Sys2Proof.Proofs

open Sys2Proof.Machine Sys2Proof.Laws

/-! ### The state in force (R618) -/

/-- Settling gives the state that the settled device has, and leaves the rest of the Bellows alone. -/
theorem stateInForce_settlePower (d : Dev) : d.settlePower.stateInForce = d.stateInForce := by
  rw [settlePower_postsOnly d, settlePower_bellows]
  rfl

theorem inForce_settlePower (d : Dev) : d.settlePower.bellows.inForce = d.settlePower.stateInForce := by
  rw [stateInForce_settlePower, settlePower_bellows]

/-- A device that is not in Slumber has another state in force. -/
theorem stateInForce_ne_slumber (d : Dev) (h : d.bellows.slumber = false) : d.stateInForce ≠ .slumber := by
  unfold Dev.stateInForce
  rw [if_neg (by simp [h])]
  split
  · decide
  · split
    · decide
    · split <;> decide

/-! ### Slumber (R620 to R622, R714) -/

theorem enterSlumber_enters (d : Dev) (htarget : d.powerTarget = .slumber) (hquiet : d.quiet = true) (hawake : d.bellows.slumber = false)
    (hforce : d.bellows.inForce ≠ .slumber) (hstate : d.hearth.state = .ready ∨ d.hearth.state = .hold) :
    d.enterSlumber = Dev.event { d with bellows := { d.bellows with slumber := true, wake := false, inForce := .slumber } }
      adminWin EventCode.powerState 0 [(20, 1, 4), (21, 1, d.bellows.inForce.code), (24, 2, d.bellows.step)] := by
  have hstate' : (d.hearth.state == .ready || d.hearth.state == .hold) = true := by
    rcases hstate with hs | hs <;> simp [hs]
  have hne : ¬ PowerState.slumber = d.bellows.inForce := fun h => hforce h.symm
  simp only [Dev.enterSlumber, htarget, hquiet, hawake, hstate']
  simp [Dev.settlePower, Dev.stateInForce, hne, PowerState.code]

theorem enterSlumber_stays (d : Dev) (h : d.powerTarget ≠ .slumber ∨ d.quiet = false) : d.enterSlumber = d := by
  rcases h with h | h <;> simp [Dev.enterSlumber, h]

/-- The device as it leaves Slumber, before its state in force settles. -/
def leftSlumber (d : Dev) : Dev :=
  { d with
    bellows := { d.bellows with slumber := false, wake := false, lpoLost := false, exiting := true }
    group := { d.group with awaiting := d.group.awaiting ||
      (match d.group.member with
      | some m => m.role == 2 || (m.ptpEn && d.group.base.isSome)
      | none => false) } }

theorem exitSlumber_leaves (d : Dev) (hasleep : d.bellows.slumber = true) (h : d.bellows.wake = true ∨ d.quiet = false ∨ d.powerTarget ≠ .slumber) :
    d.exitSlumber = (leftSlumber d).settlePower := by
  have hcond : (d.bellows.slumber && (d.bellows.wake || !d.quiet || d.powerTarget != .slumber)) = true := by
    rcases h with h | h | h <;> simp [hasleep, h]
  rw [Dev.exitSlumber, if_pos hcond]
  rfl

theorem settlePower_tick (d : Dev) : d.settlePower.tick = d.tick := (settlePower_postsOnly d).tick

/-- Settles O34. -/
theorem slumberIsEnteredAndLeft : Obligations.SlumberIsEnteredAndLeft := by
  unfold Obligations.SlumberIsEnteredAndLeft
  refine ⟨fun s h htarget hquiet hawake hforce hstate => completes_running (exec_slumberEntry s) h
      (enterSlumber_enters s.dev htarget hquiet hawake hforce hstate),
    fun s h hnot => same_running (exec_slumberEntry s) h (enterSlumber_stays s.dev hnot),
    fun s h hasleep => completes_running (exec_lpoClkLoss s) h (if_pos hasleep),
    fun s h hasleep hwhy => ⟨_, exec_running (exec_slumberExit s) h, rfl, rfl, ?_⟩,
    fun s h hexit => ⟨_, exec_running (exec_powerStateExitDone s) h, rfl, rfl, ?_⟩⟩
  · rw [exitSlumber_leaves s.dev hasleep hwhy]
    refine ⟨?_, ?_, ?_, ?_, inForce_settlePower _, ?_, settlePower_tick _⟩
    all_goals rw [settlePower_bellows]
    · rfl
    · rfl
    · rfl
    · rfl
    · exact stateInForce_ne_slumber (leftSlumber s.dev) rfl
  · simp only [hexit, if_true]
    refine ⟨?_, inForce_settlePower _, ?_, settlePower_tick _⟩ <;> rw [settlePower_bellows]

/-! ### What stops the clocks (R251, R252, R627, R628, R711) -/

/-- With no hold-up test, a fall of PFAIL_L ends none. -/
theorem abortTest_none (d : Dev) (h : d.bellows.test = none) : d.abortTest = d := by
  simp [Dev.abortTest, h]

/-- The device held after a flush that ends with PFAIL_L low. -/
def flushedAndHeld (d : Dev) : Dev :=
  { d.endWrites.flushBuffer false with
    face := { (d.endWrites.flushBuffer false).face with flushing := false }
    boot := { (d.endWrites.flushBuffer false).boot with held := 1 } }

theorem exec_holdupFlushDone_low (f : BringupFound) (s : State) (hflush : s.dev.face.flushing = true) (hend : s.dev.endWrites.face.pfailLow = true) :
    exec (.holdupFlushDone f) s = .next { s with dev := flushedAndHeld s.dev } := by
  have hlow : (s.dev.endWrites.flushBuffer false).face.pfailLow = true := hend
  rw [exec_holdupFlushDone, if_neg (by simp [hflush])]
  exact if_pos hlow

/-- Settles O38. -/
theorem stopsOfTheClocks : Obligations.StopsOfTheClocks := by
  unfold Obligations.StopsOfTheClocks
  refine ⟨fun die sensor s hheld htrip => ?_, fun s => exec_standbyPowerLoss s, fun rail s h1 h3 => ?_, fun s hpfail h htest => ⟨fun hstate => ?_, fun hstate => ?_⟩,
    fun s => exec_pfailLRise s, fun f s hflush hpfail hend => ?_, fun i s h hi => ?_⟩
  · simp [Completes, exec_quenchTrip, State.onDev, hheld, htrip]
  · simp [Completes, exec_railFault, State.onDev, h1, h3, bitNat]
  · have hnone := abortTest_none { s.dev with face := { s.dev.face with pfailLow := true } } htest
    have hlive : ({ s.dev with face := { s.dev.face with pfailLow := true } } : Dev).stopped = false := h
    simp [Completes, exec_pfailLFall, State.onDev, hpfail, h, hstate, hnone]
  · simp [Completes, exec_pfailLFall, State.onDev, hpfail, h, hstate]
  · exact ⟨_, exec_holdupFlushDone_low f s hflush hend, rfl, rfl, rfl, rfl, rfl, rfl⟩
  · rcases hi with rfl | rfl | rfl
    · rw [exec_slumberEntry, onRunning_stopped s _ h]
    · rw [exec_lpoClkLoss, onRunning_stopped s _ h]
    · rw [exec_gainUpdate, onRunning_stopped s _ h]

/-! ### Droop episodes (R393, R609, R614) -/

theorem droopDetect_counts (d : Dev) (g : Nat) (hin : d.blockIn g = true) (hnone : (d.block g).drooped = false) (hn : d.bellows.stretches ≠ 256) :
    d.droopDetect g = { (d.modBlock g (fun x => { x with drooped := true })).count Counter.droopStretch g 1 with
      bellows := { d.bellows with stretches := d.bellows.stretches + 1 } } := by
  have hn' : ¬ d.bellows.stretches + 1 = 257 := by omega
  simp [Dev.droopDetect, hin, hnone, hn']

/-- The 257th episode of a tick sets the droop ceiling. -/
theorem droopDetect_limits (d : Dev) (g : Nat) (hin : d.blockIn g = true) (hnone : (d.block g).drooped = false) (hn : d.bellows.stretches = 256) :
    d.droopDetect g = Dev.count { (d.modBlock g (fun x => { x with drooped := true })).count Counter.droopStretch g 1 with
      bellows := { d.bellows with stretches := 257, droop := some (min d.stepF (d.bellows.step + 1), d.tick.count + 2500) } } Counter.droopLimit 0 1 := by
  simp [Dev.droopDetect, hin, hnone, hn, Dev.stepF, Dev.B]

/-- A variant has at most 16 blocks in each region. -/
theorem blockIn_lt (d : Dev) (g : Nat) (h : d.blockIn g = true) : g < 128 := by
  have hB : d.B ≤ 16 := by
    unfold Dev.B variantB
    split <;> [decide; (split <;> decide)]
  have hg : g < 8 * d.B := of_decide_eq_true (Bool.and_eq_true_iff.1 h).1
  omega

/-- Settles O35. -/
theorem droopEpisodes : Obligations.DroopEpisodes := by
  unfold Obligations.DroopEpisodes
  refine ⟨fun b g s h hb hin hnone hn => completes_running (exec_droopDetect b s) h ?_, fun b g s h hb hin hnone hn => ⟨_, exec_running (exec_droopDetect b s) h, rfl, rfl, ?_⟩,
    fun b g s h hb hon => ⟨same_running (exec_droopDetect b s) h ?_, completes_running (exec_droopRecover b s) h ?_⟩,
    fun s c t h hdroop hpast => completes_running (exec_droopCeilingExpire s) h ?_, fun u s h => completes_running (exec_unitUngated u s) h rfl⟩
  · simp only [hb]
    exact droopDetect_counts s.dev g hin hnone hn
  · simp only [hb, droopDetect_limits s.dev g hin hnone hn]
    have hkey : objKey Counter.droopLimit 0 ≠ objKey Counter.droopStretch g := fun e => by
      have hg := blockIn_lt s.dev g hin
      have hid : Counter.droopLimit = Counter.droopStretch := congrArg Prod.fst ((objKey_injective _ _ _ _ (by omega) (by decide)).1 e)
      exact absurd hid (by decide)
    refine ⟨by simp, ?_, ?_⟩
    · rw [counter_count_same _ _ _ _ Nat.one_pos]
      exact congrArg (fun n => min counterMax (n + 1)) (counter_count_other _ _ _ _ _ _ hkey)
    · rw [counter_count_other _ _ _ _ _ _ hkey.symm]
      exact counter_count_same _ _ _ _ Nat.one_pos
  · simp [hb, Dev.droopDetect, hon]
  · simp [hb, hon]
  · simp [hdroop, hpast]

end Sys2Proof.Proofs
end

section
/-!
PROOFS. The Tongs: buffers and the context directory.
-/
namespace Sys2Proof.Proofs

open Sys2Proof.Machine Sys2Proof.Laws

/-! ### Requests for buffers (R117 to R119) -/

theorem poolFor_le (n : Nat) : poolFor n ≤ 3 := by
  unfold poolFor
  split
  · decide
  · split
    · decide
    · split <;> decide

/-- At most 16 MiB is one link. -/
theorem chainLinks_one (len : Nat) (hpos : 0 < len) (hlen : len ≤ 16777216) : chainLinks len = [len] := by
  rcases Nat.lt_or_eq_of_le hlen with h | rfl
  · simp [chainLinks, Nat.div_eq_of_lt h, Nat.mod_eq_of_lt h, Nat.ne_of_gt hpos]
  · rfl

/-- The first pool tried is the smallest that fits, in the region asked. -/
theorem poolOrder_head (d : Dev) (r len : Nat) (hr : r < 8) (hin : d.regionIn r = true) :
    ∃ rest, d.poolOrder r len = (r, poolFor len) :: rest := by
  have hregions : ∃ rs, ((List.range 8).map (fun k => (r + k) % 8)).filter d.regionIn = r :: rs := by
    have hmod : (r + 0) % 8 = r := Nat.mod_eq_of_lt hr
    rw [List.range_succ_eq_map, List.map_cons, hmod, List.filter_cons, if_pos hin]
    exact ⟨_, rfl⟩
  have hpools : ∀ n, n ≤ 3 → ∃ ps, (List.range 4).filter (fun p => decide (n ≤ p)) = n :: ps := by
    intro n hn
    interval_cases n <;> exact ⟨_, rfl⟩
  obtain ⟨rs, hrs⟩ := hregions
  obtain ⟨ps, hps⟩ := hpools _ (poolFor_le len)
  rw [Dev.poolOrder]
  simp only [hrs, hps, List.flatMap_cons, List.map_cons, List.cons_append]
  exact ⟨_, rfl⟩

theorem allocBuf_first (d : Dev) (r len tenant cls i : Nat) (l : Pool) (hr : r < 8) (hin : d.regionIn r = true)
    (htake : d.poolTake r (poolFor len) = some (i, l)) :
    d.allocBuf r len tenant cls = some (mkHandle r (poolFor len) i, d.giveBuf r (poolFor len) i l len tenant cls) := by
  obtain ⟨rest, hrest⟩ := poolOrder_head d r len hr hin
  simp [Dev.allocBuf, hrest, htake]

/-- Settles O40. -/
theorem bufferAllocation : Obligations.BufferAllocation := by
  unfold Obligations.BufferAllocation
  refine ⟨fun region len tenant cls i l s h hpos hlen hin htake => completes_running (exec_bufferAllocate region len tenant cls s) h ?_,
    fun region len tenant cls s h hpos hlen hnone => completes_running (exec_bufferAllocate region len tenant cls s) h ?_⟩
  · have halloc := allocBuf_first s.dev region.val len tenant cls i l region.isLt hin htake
    simp [Dev.bufferAllocate, chainLinks_one len hpos hlen, Dev.requestChain, Dev.requestBuf, halloc]
  · simp [Dev.bufferAllocate, chainLinks_one len hpos hlen, Dev.requestChain, Dev.requestBuf, hnone, Dev.waitBuf]

/-! ### SHARE and DROP (R124 to R126) -/

/-- With nobody waiting, a freed buffer stays in its pool. -/
theorem serveWaiter_nobody (d : Dev) (r p : Nat) (h : d.tongs.waiting = []) : d.serveWaiter r p = d := by
  simp [Dev.serveWaiter, h]

theorem freeBuf_nobody (d : Dev) (h : Nat) (hw : d.tongs.waiting = []) :
    d.freeBuf h = { d with tongs := { d.tongs with
      bufs := AMap.mod d.tongs.bufs h (fun b => { b with refcount := 0, freed := true })
      pools := AMap.set d.tongs.pools (handleRegion h * 4 + handlePool h)
        { d.pool (handleRegion h) (handlePool h) with freed := (d.pool (handleRegion h) (handlePool h)).freed ++ [handleIndex h] } } } := by
  unfold Dev.freeBuf
  dsimp only
  split
  · exact serveWaiter_nobody _ _ _ hw
  · rfl

/-- Settles O41. -/
theorem bufferReferences : Obligations.BufferReferences := by
  unfold Obligations.BufferReferences
  refine ⟨fun h cls tenant b s hrun hok hb hlive howner hmax => completes_running (exec_share h cls tenant s) hrun ?_,
    fun h cls tenant b s hrun hok hb hlive hmany => completes_running (exec_drop h cls tenant s) hrun ?_,
    fun h cls tenant b s hrun hok hb hlive hone hw => ⟨_, exec_running (exec_drop h cls tenant s) hrun, rfl, rfl, ?_⟩,
    fun h cls tenant b s hrun hok hb hfreed => ⟨completes_running (exec_share h cls tenant s) hrun ?_, completes_running (exec_drop h cls tenant s) hrun ?_⟩⟩
  · simp [Dev.shareBuf, hok, hb, hlive, howner, hmax]
  · simp [Dev.dropBuf, hok, hb, hlive, Nat.not_le.2 hmany]
  · have hdrop : s.dev.dropBuf h cls tenant = s.dev.freeBuf h := by simp [Dev.dropBuf, hok, hb, hlive, hone]
    rw [hdrop, freeBuf_nobody s.dev h hw]
    refine ⟨by simp [amap_get_mod, hb], fun k hk => by simp [amap_get_mod, hk], ?_, rfl⟩
    simp [Dev.pool]
  · simp [Dev.shareBuf, hok, hb, hfreed, Dev.doubleFree]
  · simp [Dev.dropBuf, hok, hb, hfreed, Dev.doubleFree]

/-! ### The context directory (Table 03-5) -/

/-- A line's record is what was last set. -/
@[simp] theorem line_setLine (d : Dev) (r slot : Nat) (x : DirState) : (d.setLine r slot x).line r slot = x := by
  by_cases hx : x = .uncached
  · simp [Dev.setLine, Dev.line, hx, amap_get_del]
  · simp [Dev.setLine, Dev.line, hx, amap_get_set]

@[simp] theorem line_granted (d : Dev) (q b r slot : Nat) : (d.granted q b).line r slot = d.line r slot := rfl
@[simp] theorem line_emit (d : Dev) (o : Output) (r slot : Nat) : (d.emit o).line r slot = d.line r slot := rfl
@[simp] theorem setLine_streams (d : Dev) (r slot : Nat) (x : DirState) : (d.setLine r slot x).streams = d.streams := rfl
@[simp] theorem granted_streams (d : Dev) (r b : Nat) : (d.granted r b).streams = d.streams := rfl
@[simp] theorem writeStack_streams (d : Dev) (r slot : Nat) : (d.writeStack r slot).streams = d.streams := rfl

/-- The newest copy of a line is its stream's context (R101). -/
theorem lineBytes_congr {d e : Dev} (h : e.streams = d.streams) (r slot : Nat) : e.lineBytes r slot = d.lineBytes r slot := by
  simp only [Dev.lineBytes, Dev.streamAt, h]

/-- A read through the directory that leaves the line in state `x` returns its newest copy. -/
theorem read_answers (d e : Dev) (r slot b : Nat) (x : DirState) (hline : e.line r slot = x) (hstreams : e.streams = d.streams) :
    ((e.granted r b).emit (.readData (e.lineBytes r slot))).line r slot = x ∧
      ((e.granted r b).emit (.readData (e.lineBytes r slot))).out.head? = some (.readData (d.lineBytes r slot)) ∧
      ((e.granted r b).emit (.readData (e.lineBytes r slot))).streams = d.streams := by
  rw [lineBytes_congr hstreams]
  exact ⟨hline, rfl, hstreams⟩

theorem readOwn_usable (d : Dev) (r slot b : Nat) (h : d.dirUsable r b = true) (hslot : slot < contextSlots) :
    ∃ m, d.readOwn r slot b = ((d.setLine r slot (.owned b m)).granted r b).emit (.readData ((d.setLine r slot (.owned b m)).lineBytes r slot)) := by
  rw [Dev.readOwn, if_neg (by simp [h, hslot])]
  exact ⟨_, rfl⟩

theorem readShared_uncached (d : Dev) (r slot b : Nat) (h : d.dirUsable r b = true) (hslot : slot < contextSlots) (hline : d.line r slot = .uncached) :
    d.readShared r slot b =
      ((d.setLine r slot (.owned b false)).granted r b).emit (.readData ((d.setLine r slot (.owned b false)).lineBytes r slot)) := by
  rw [Dev.readShared, if_neg (by simp [h, hslot])]
  simp only [hline]

theorem readShared_owned (d : Dev) (r slot b o : Nat) (m : Bool) (h : d.dirUsable r b = true) (hslot : slot < contextSlots)
    (hline : d.line r slot = .owned o m) (hne : o ≠ b) :
    ∃ e : Dev, e.line r slot = .shared (sortByKey id [o, b]) ∧ e.streams = d.streams ∧
      d.readShared r slot b = (e.granted r b).emit (.readData (e.lineBytes r slot)) := by
  refine ⟨(if m then d.writeStack r slot else d).setLine r slot (.shared (sortByKey id [o, b])), line_setLine _ _ _ _, ?_, ?_⟩
  · cases m <;> rfl
  · rw [Dev.readShared, if_neg (by simp [h, hslot])]
    simp only [hline, if_neg hne]

/-- Settles O42: reads, evictions by the owner, evictions by another, and the hub. -/
theorem directoryTransactions : Obligations.DirectoryTransactions := by
  unfold Obligations.DirectoryTransactions
  refine ⟨fun region slot block s h huse hslot => ⟨⟨_, exec_running (exec_readOwn region slot block s) h, rfl, rfl, ?_⟩,
      fun hline => ⟨_, exec_running (exec_readShared region slot block s) h, rfl, rfl, ?_⟩,
      fun o m hline hne => ⟨_, exec_running (exec_readShared region slot block s) h, rfl, rfl, ?_⟩⟩,
    fun region slot block m s h hline => ⟨⟨_, exec_running (exec_writeback region slot block s) h, rfl, rfl, ?_⟩,
      fun hm => ⟨_, exec_running (exec_evictClean region slot block s) h, rfl, rfl, ?_⟩,
      fun hm => same_running (exec_evictClean region slot block s) h ?_,
      fun other hne => ⟨same_running (exec_writeback region slot other s) h ?_, same_running (exec_evictClean region slot other s) h ?_⟩⟩,
    fun region slot s h hin hup => completes_running (exec_hubRead region slot s) h ?_,
    fun region slot mask sid st data s h hin hup hat => completes_running (exec_hubWrite region slot mask data s) h ?_⟩
  · obtain ⟨m, hm⟩ := readOwn_usable s.dev region.val slot block.val huse hslot
    obtain ⟨hline, hout, hstreams⟩ := read_answers s.dev (s.dev.setLine region.val slot (.owned block.val m)) region.val slot block.val _ (line_setLine _ _ _ _) rfl
    rw [hm]
    exact ⟨⟨m, hline⟩, hout, hstreams⟩
  · rw [readShared_uncached s.dev _ slot _ huse hslot hline]
    exact read_answers s.dev _ _ slot _ _ (line_setLine _ _ _ _) rfl
  · obtain ⟨e, he, hstreams, hread⟩ := readShared_owned s.dev region.val slot block.val o m huse hslot hline hne
    rw [hread]
    exact read_answers s.dev e _ slot _ _ he hstreams
  · simp [Dev.writeback, hline]
  · simp [Dev.evictClean, hline, hm]
  · simp [Dev.evictClean, hline, hm]
  · have hval : block.val ≠ other.val := fun e => hne (Fin.ext e.symm)
    simp [Dev.writeback, hline, hval]
  · have hval : block.val ≠ other.val := fun e => hne (Fin.ext e.symm)
    simp [Dev.evictClean, hline, hval]
  · simp [Dev.hubRead, hin, hup, Dev.granted, Dev.nextRequester]
  · have hat' : (s.dev.granted region.val 16).streamAt region.val slot = some (sid, st) := hat
    rw [Dev.hubWrite, if_neg (by simp [hin, hup])]
    simp only [hat']
    rfl

end Sys2Proof.Proofs
end

section
/-!
PROOFS. Moves.
-/
namespace Sys2Proof.Proofs

open Sys2Proof.Machine Sys2Proof.Laws

/-! ### Packed moves of one axis -/

theorem length_modifyAt {α : Type} (l : List α) (i : Nat) (f : α → α) : (modifyAt l i f).length = l.length := List.length_mapIdx

theorem getElem?_modifyAt {α : Type} (l : List α) (i j : Nat) (f : α → α) : (modifyAt l i f)[j]? = if j = i then l[j]?.map f else l[j]? := by
  rw [modifyAt, List.getElem?_mapIdx]
  split <;> simp

/-- The move of `n` elements of `e` bytes that lie one after another on both sides. -/
def packedMove (e src dst n : Nat) : MoveRec := { elem := e, counts := [n], src := src, srcPitch := [(e : Int)], dst := dst, dstPitch := [(e : Int)] }

theorem moveAddr_packed (base e i : Nat) : moveAddr base [(e : Int)] [i] = base + e * i := by
  simp [moveAddr]
  omega

/-- A packed move is a copy of `e * n` bytes. -/
theorem moveResult_packed (e src dst n : Nat) (mem : List Byte) :
    moveResult (packedMove e src dst n) mem = (List.range (e * n)).map (fun j => (dst + j, mem.getD (src + j) 0)) := by
  have hflat : moveResult (packedMove e src dst n) mem =
      (List.range n).flatMap (fun i => (List.range e).map (fun b => (dst + e * i + b, mem.getD (src + e * i + b) 0))) := by
    simp [moveResult, packedMove, moveIndices, moveAddr_packed, List.flatMap_map]
  rw [hflat]
  clear hflat
  induction n with
  | zero => rfl
  | succ n ih =>
    rw [List.range_succ, List.flatMap_append, ih, Nat.mul_succ, List.range_add, List.map_append]
    simp [Nat.add_assoc, Function.comp_def]

/-- Memory after `k` bytes are written one after another from `dst`. -/
theorem writes_spec (dst k : Nat) (v : Nat → Byte) (mem : List Byte) (hk : dst + k ≤ mem.length) :
    (((List.range k).map (fun j => (dst + j, v j))).foldl (fun acc p => modifyAt acc p.1 (fun _ => p.2)) mem).length = mem.length ∧
      ∀ a, (((List.range k).map (fun j => (dst + j, v j))).foldl (fun acc p => modifyAt acc p.1 (fun _ => p.2)) mem)[a]? =
        if dst ≤ a ∧ a < dst + k then some (v (a - dst)) else mem[a]? := by
  induction k with
  | zero => exact ⟨rfl, fun a => by rw [if_neg (by omega)]; rfl⟩
  | succ k ih =>
    obtain ⟨hlen, hget⟩ := ih (by omega)
    rw [List.range_succ, List.map_append, List.foldl_append]
    refine ⟨by simp [length_modifyAt, hlen], fun a => ?_⟩
    simp only [List.map_cons, List.map_nil, List.foldl_cons, List.foldl_nil, getElem?_modifyAt, hget]
    rcases Nat.lt_trichotomy a (dst + k) with ha | rfl | ha
    · have hiff : (dst ≤ a ∧ a < dst + (k + 1)) ↔ (dst ≤ a ∧ a < dst + k) := by omega
      rw [if_neg (Nat.ne_of_lt ha), if_congr hiff rfl rfl]
    · have hlt : dst + k < mem.length := by omega
      simp [hlt]
    · rw [if_neg (Nat.ne_of_gt ha), if_neg (by omega), if_neg (by omega)]

theorem moveApply_packed (e src dst n : Nat) (mem : List Byte) (hsrc : src + e * n ≤ mem.length) (hdst : dst + e * n ≤ mem.length) :
    (moveApply (packedMove e src dst n) mem).length = mem.length ∧ ∀ a, a < mem.length →
      (moveApply (packedMove e src dst n) mem)[a]? = if dst ≤ a ∧ a < dst + e * n then mem[src + (a - dst)]? else mem[a]? := by
  rw [moveApply, moveResult_packed]
  obtain ⟨hlen, hget⟩ := writes_spec dst (e * n) (fun j => mem.getD (src + j) 0) mem hdst
  refine ⟨hlen, fun a _ => (hget a).trans ?_⟩
  split
  · next h =>
    have hlt : src + (a - dst) < mem.length := by omega
    simp [hlt]
  · rfl

/-! ### Staging -/

theorem move_unstaged (d : Dev) (b : BlockRef) (m : MoveRec) (tenant : Nat) (mem : List Byte) (h : moveCase m ≠ 4) :
    d.move b m tenant mem = d.emit (.moved (b.region.val * 16 + b.block.val) (moveApply m mem)) := by
  have hstage : d.stageMove b.region.val m tenant = some d := by simp [Dev.stageMove, h]
  simp only [Dev.move, hstage]

theorem move_staged (d : Dev) (b : BlockRef) (m : MoveRec) (tenant : Nat) (mem : List Byte) (h : moveCase m = 4) (hsize : moveBytes m ≤ 4194304) :
    d.move b m tenant mem = (d.count Counter.swageStaged 0 1).emit (.moved (b.region.val * 16 + b.block.val) (moveApply m mem)) := by
  have hstage : d.stageMove b.region.val m tenant = some (d.count Counter.swageStaged 0 1) := by simp [Dev.stageMove, h, hsize]
  simp only [Dev.move, hstage]

/-- Settles O44. -/
theorem moveElements : Obligations.MoveElements := by
  unfold Obligations.MoveElements
  exact ⟨fun b m tenant mem s h hcase => completes_running (exec_move b m tenant mem s) h (move_unstaged s.dev b m tenant mem hcase),
    fun b m tenant mem s h hcase hsize => completes_running (exec_move b m tenant mem s) h (move_staged s.dev b m tenant mem hcase hsize),
    fun e src dst n mem hsrc hdst => moveApply_packed e src dst n mem hsrc hdst⟩

end Sys2Proof.Proofs
end

section
/-!
PROOFS. The Haul: what posting leaves of a reservoir, publications and their acknowledgement.
-/
namespace Sys2Proof.Proofs

open Sys2Proof.Machine Sys2Proof.Laws

/-! ### Reservoirs of a changed device -/

theorem res_modRes (d : Dev) (k key : Nat) (f : Reservoir → Reservoir) :
    (d.modRes k f).res? key = if key = k then (d.res? key).map f else d.res? key := amap_get_mod _ _ _ _

@[simp] theorem res_modRes_same (d : Dev) (k : Nat) (f : Reservoir → Reservoir) : (d.modRes k f).res? k = (d.res? k).map f := by
  rw [res_modRes, if_pos rfl]

theorem res_of_haul {d e : Dev} (h : e.haul = d.haul) (key : Nat) : e.res? key = d.res? key := by
  rw [Dev.res?, Dev.res?, h]

/-! ### Dropped buffers leave the Haul alone -/

theorem haul_serveWaiter (d : Dev) (r p : Nat) : (d.serveWaiter r p).haul = d.haul := by
  unfold Dev.serveWaiter
  split
  · rfl
  · split
    · dsimp only
      split <;> split <;> simp [Dev.giveBuf]
    · rfl

theorem haul_freeBuf (d : Dev) (h : Nat) : (d.freeBuf h).haul = d.haul := by
  unfold Dev.freeBuf
  dsimp only
  split
  · exact haul_serveWaiter _ _ _
  · rfl

theorem haul_doubleFree (d : Dev) (h op cls tenant : Nat) : (d.doubleFree h op cls tenant).haul = d.haul := by
  simp [Dev.doubleFree]

theorem haul_dropBuf (d : Dev) (h cls tenant : Nat) : (d.dropBuf h cls tenant).haul = d.haul := by
  unfold Dev.dropBuf
  split
  · rfl
  · split
    · exact haul_doubleFree _ _ _ _ _
    · split
      · exact haul_doubleFree _ _ _ _ _
      · split
        · exact haul_freeBuf _ _
        · rfl

/-- A step of a list that leaves the Haul alone, for each of its elements, leaves it alone. -/
theorem haul_foldl {α : Type} (f : Dev → α → Dev) (h : ∀ d x, (f d x).haul = d.haul) (l : List α) (d : Dev) : (l.foldl f d).haul = d.haul := by
  induction l generalizing d with
  | nil => rfl
  | cons x l ih => exact (ih (f d x)).trans (h d x)

theorem haul_dropBufs (d : Dev) (hs : List Nat) (cls tenant : Nat) : (d.dropBufs hs cls tenant).haul = d.haul :=
  haul_foldl _ (fun d h => haul_dropBuf d h cls tenant) hs d

/-! ### Posting -/

/-- What posting changes of no reservoir: the tails published and acknowledged, the head and the state. -/
def SameMarks (r r' : Reservoir) : Prop := r'.published = r.published ∧ r'.acked = r.acked ∧ r'.head = r.head ∧ r'.state = r.state

theorem SameMarks.refl (r : Reservoir) : SameMarks r r := ⟨rfl, rfl, rfl, rfl⟩

theorem SameMarks.trans {r r' r'' : Reservoir} (h : SameMarks r r') (k : SameMarks r' r'') : SameMarks r r'' := by
  obtain ⟨hp, ha, hh, hs⟩ := h
  obtain ⟨kp, ka, kh, ks⟩ := k
  exact ⟨kp.trans hp, ka.trans ha, kh.trans hh, ks.trans hs⟩

/-- Posting keeps the marks of every reservoir, and every output already made. -/
def Posts (d e : Dev) : Prop := (∀ key r, d.res? key = some r → ∃ r', e.res? key = some r' ∧ SameMarks r r') ∧ ∀ o ∈ d.out, o ∈ e.out

theorem Posts.refl (d : Dev) : Posts d d := ⟨fun _ r h => ⟨r, h, .refl r⟩, fun _ h => h⟩

theorem Posts.trans {d e f : Dev} (h : Posts d e) (k : Posts e f) : Posts d f := by
  refine ⟨fun key r hr => ?_, fun o ho => k.2 o (h.2 o ho)⟩
  obtain ⟨r', hr', hm⟩ := h.1 key r hr
  obtain ⟨r'', hr'', km⟩ := k.1 key r' hr'
  exact ⟨r'', hr'', hm.trans km⟩

theorem Posts.foldl {α : Type} (f : Dev → α → Dev) (h : ∀ d x, Posts d (f d x)) (l : List α) (d : Dev) : Posts d (l.foldl f d) := by
  induction l generalizing d with
  | nil => exact .refl d
  | cons x l ih => exact (h d x).trans (ih (f d x))

theorem posts_modRes (d : Dev) (k : Nat) (f : Reservoir → Reservoir) (h : ∀ r, SameMarks r (f r)) : Posts d (d.modRes k f) := by
  refine ⟨fun key r hr => ?_, fun o ho => ho⟩
  rw [res_modRes, hr]
  by_cases hk : key = k
  · exact ⟨f r, by simp [hk], h r⟩
  · exact ⟨r, by simp [hk], .refl r⟩

theorem posts_emit (d : Dev) (o : Output) : Posts d (d.emit o) :=
  ⟨fun _ r hr => ⟨r, hr, .refl r⟩, fun _ ho => List.mem_cons_of_mem _ ho⟩

theorem posts_count (d : Dev) (id i n : Nat) : Posts d (d.count id i n) :=
  ⟨fun key r hr => ⟨r, (res_of_haul (count_haul d id i n) key).trans hr, .refl r⟩, fun o ho => by rw [count_out]; exact ho⟩

theorem posts_postWrite (d e : Dev) (key : Nat) (h : d.postWrite key = some e) : Posts d e := by
  unfold Dev.postWrite at h
  split at h
  · cases h
  · split at h
    · cases h
    · split at h
      · cases h
      · split at h
        · cases h
          refine (posts_modRes d key _ ?_).trans (posts_emit _ _)
          exact fun r => ⟨rfl, rfl, rfl, rfl⟩
        · cases h

theorem posts_postFence (d : Dev) (key : Nat) : Posts d (d.postFence key) := by
  unfold Dev.postFence
  split
  · exact .refl d
  · split
    · exact .refl d
    · dsimp only
      split
      · refine (posts_modRes d key _ ?_).trans (posts_emit _ _)
        exact fun r => ⟨rfl, rfl, rfl, rfl⟩
      · exact .refl d

theorem posts_postWrites (fuel key : Nat) (d : Dev) : Posts d (Dev.postWrites fuel key d) := by
  induction fuel generalizing d with
  | zero => exact .refl d
  | succ fuel ih =>
    unfold Dev.postWrites
    split
    · next e he => exact (posts_postWrite d e key he).trans (ih e)
    · dsimp only
      refine ((posts_modRes d key _ ?_).trans (posts_count _ _ _ _)).trans (posts_postFence _ _)
      exact fun r => ⟨rfl, rfl, rfl, rfl⟩

theorem posts_postBillets (fuel key : Nat) (d : Dev) : Posts d (Dev.postBillets fuel key d) := by
  induction fuel generalizing d with
  | zero => exact .refl d
  | succ fuel ih =>
    unfold Dev.postBillets
    split
    · exact .refl d
    · split
      · exact .refl d
      · split
        · exact .refl d
        · dsimp only
          split
          · split
            · exact .refl d
            · refine (posts_modRes d key _ ?_).trans (posts_count _ _ _ _)
              exact fun r => ⟨rfl, rfl, rfl, rfl⟩
          · refine (((posts_modRes d key _ ?_).trans (posts_modRes _ key _ ?_)).trans (posts_postWrites _ _ _)).trans (ih _)
            · exact fun r => ⟨rfl, rfl, rfl, rfl⟩
            · exact fun r => ⟨rfl, rfl, rfl, rfl⟩

theorem posts_pushReservoir (d : Dev) (key : Nat) : Posts d (d.pushReservoir key) :=
  (posts_postBillets _ key d).trans (posts_postWrites _ key _)

theorem posts_pushAll (d : Dev) (key : Nat) : Posts d (d.pushAll key) :=
  (posts_pushReservoir d key).trans (.foldl _ (fun d k => posts_pushReservoir d k) _ _)

/-! ### Publication and its ACK (R501, R505, R507) -/

/-- A publication sends the tail to the tail address and records it. -/
theorem publish_sends (d : Dev) (key tail batch : Nat) (r : Reservoir) (h : d.res? key = some r) :
    (∃ r', (d.publish key tail batch).res? key = some r' ∧ SameMarks { r with published := tail } r') ∧
      Output.rdmaWrite (resQpn key) r.tailAddr r.rkey (leBytes 8 tail) ∈ (d.publish key tail batch).out := by
  simp only [Dev.publish, h]
  refine ⟨⟨{ r with published := tail, tails := r.tails ++ [{ batch := batch, tail := tail, order := r.nextOp }], nextOp := r.nextOp + 1 }, ?_,
    rfl, rfl, rfl, rfl⟩, List.mem_cons_self⟩
  show (d.modRes key _).res? key = _
  rw [res_modRes_same, h]
  rfl

/-- A tail published for a reservoir changed by `f`, after buffers of `l` are dropped, and everything posted that can be. -/
theorem publish_pushAll (d : Dev) (key tail batch : Nat) (f : Reservoir → Reservoir) (l : List Emission) (r : Reservoir) (hr : d.res? key = some r)
    (haddr : (f r).tailAddr = r.tailAddr) (hrkey : (f r).rkey = r.rkey) (hmarks : SameMarks r (f r)) :
    ∃ r', (((l.foldl (fun d e => d.dropBufs e.bufs OwnerClass.egress (resTenant key)) (d.modRes key f)).publish key tail batch).pushAll key).res? key = some r' ∧
      SameMarks { r with published := tail } r' ∧
      Output.rdmaWrite (resQpn key) r.tailAddr r.rkey (leBytes 8 tail) ∈
        (((l.foldl (fun d e => d.dropBufs e.bufs OwnerClass.egress (resTenant key)) (d.modRes key f)).publish key tail batch).pushAll key).out := by
  have hdrop := haul_foldl (fun (d : Dev) (e : Emission) => d.dropBufs e.bufs OwnerClass.egress (resTenant key)) (fun d e => haul_dropBufs d e.bufs _ _)
    l (d.modRes key f)
  generalize l.foldl (fun d e => d.dropBufs e.bufs OwnerClass.egress (resTenant key)) (d.modRes key f) = e at hdrop ⊢
  have hres : e.res? key = some (f r) := by rw [res_of_haul hdrop, res_modRes_same, hr, Option.map_some]
  obtain ⟨⟨r', hr', hm⟩, hout⟩ := publish_sends e key tail batch (f r) hres
  have hpush := posts_pushAll (e.publish key tail batch) key
  obtain ⟨r'', hr'', hm'⟩ := hpush.1 key r' hr'
  obtain ⟨hp, ha, hh, hs⟩ := hmarks
  rw [haddr, hrkey] at hout
  have hfirst : SameMarks { r with published := tail } { f r with published := tail } := ⟨rfl, ha, hh, hs⟩
  exact ⟨r'', hr'', hfirst.trans (hm.trans hm'), hpush.2 _ hout⟩

/-- R505: the response to the oldest fence of an ACTIVE reservoir publishes the tail of its batch, and then posts what can be posted. -/
theorem fenceResponse_publishes (d : Dev) (key batch order : Nat) (r : Reservoir) (rest : List (Nat × Nat)) (hr : d.res? key = some r)
    (hactive : r.state = .active) (hf : r.fences = (batch, order) :: rest) :
    ∃ r', (d.fenceResponse key).res? key = some r' ∧
      SameMarks { r with published := maxNat ((r.billets.filter (fun e => e.batch == batch)).filterMap Emission.tailAfter) } r' ∧
      Output.rdmaWrite (resQpn key) r.tailAddr r.rkey (leBytes 8 (maxNat ((r.billets.filter (fun e => e.batch == batch)).filterMap Emission.tailAfter))) ∈
        (d.fenceResponse key).out := by
  simp only [Dev.fenceResponse, hr, hf]
  rw [if_neg (by simp [hactive]), if_pos hactive]
  refine publish_pushAll d key _ batch _ _ r hr ?_ ?_ ?_
  · rfl
  · rfl
  · exact ⟨rfl, rfl, rfl, rfl⟩

/-- R494: the ACK of the one WRITE that is outstanding frees its credit. -/
theorem rdmaAck_frees (d : Dev) (key o : Nat) (r : Reservoir) (w : Write) (hr : d.res? key = some r) (ht : r.tails = []) (hf : r.fences = [])
    (hw : r.writes = [w]) (ho : w.posted = some o) :
    d.rdmaAck key = (d.modRes key (fun x => { x with retries := 0, writes := x.writes.filter (fun v => v.posted != some o) })).pushAll key := by
  simp [Dev.rdmaAck, hr, ht, hf, hw, ho]

/-- Settles O45. -/
theorem billetsArePublishedAndDelivered : Obligations.BilletsArePublishedAndDelivered := by
  unfold Obligations.BilletsArePublishedAndDelivered
  refine ⟨fun t key batch order r rest s h hr hactive hf => ?_, fun t key r p rest s h hr ht hf hw => ⟨_, exec_running (exec_rdmaAck t key s) h, rfl, rfl, ?_⟩,
    fun t key o r w s h hr ht hf hw ho => completes_running (exec_rdmaAck t key s) h ?_⟩
  · obtain ⟨r', hr', ⟨hp, ha, hh, hs⟩, hout⟩ := fenceResponse_publishes s.dev (resKey t key) batch order r rest hr hactive hf
    exact ⟨_, r', exec_running (exec_fenceResponse t key s) h, rfl, rfl, hr', hp, ha, hh, hs.trans hactive, hout⟩
  · have hnone : r.writes.filterMap Write.posted = [] := List.filterMap_eq_nil_iff.2 hw
    simp only [Dev.rdmaAck, hr, ht, hnone, List.head?_cons, List.foldl_nil, if_true]
    rw [if_neg (by simp [hf])]
    refine ⟨?_, fun hn => ?_⟩
    · rw [res_of_haul (count_haul _ _ _ _), res_modRes_same, hr, Option.map_some, ht]
      rfl
    · rw [List.countP_eq_length_filter] at hn ⊢
      exact counter_count_same _ _ _ _ hn
  · exact rdmaAck_frees s.dev _ o r w hr ht hf hw ho

end Sys2Proof.Proofs
end

section
/-!
PROOFS. Congestion rates and gauges; frames of the ports.
-/
namespace Sys2Proof.Proofs

open Sys2Proof.Machine Sys2Proof.Laws

/-! ### Lengths of fields -/

@[simp] theorem length_leBytes (w n : Nat) : (leBytes w n).length = w := by
  induction w generalizing n with
  | zero => rfl
  | succ w ih => simp [leBytes, ih]

@[simp] theorem length_beBytes (w n : Nat) : (beBytes w n).length = w := by
  simp [beBytes]

@[simp] theorem length_zeros (n : Nat) : (zeros n).length = n := List.length_replicate

/-- The first bytes of a string that starts with them. -/
theorem bytesAt_prefix (a b : List Byte) (n : Nat) (h : a.length = n) : bytesAt (a ++ b) 0 n = a := by
  subst h
  simp [bytesAt]

/-- The bytes after a first part. -/
theorem bytesAt_after (a b : List Byte) (o n : Nat) (h : a.length = o) : bytesAt (a ++ b) o n = bytesAt b 0 n := by
  subst h
  simp [bytesAt]

/-! ### Rates (R512) -/

theorem cnpRate_decreases (rate alpha : Rat) (last : Option Nat) (ns : Nat) (h : last = none ∨ 50000 ≤ ns) :
    cnpRate rate alpha last ns = (max rateMin (rate * (1 - alpha / 2)), (1 - 1 / 256) * alpha + 1 / 256, true) := by
  have hcond : (last.isNone || decide (50000 ≤ ns)) = true := by
    rcases h with h | h <;> simp [h]
  rw [cnpRate, if_pos hcond]

theorem cnpRate_stays (rate alpha : Rat) (last : Option Nat) (ns : Nat) (h : last ≠ none) (hns : ns < 50000) :
    cnpRate rate alpha last ns = (rate, alpha, false) := by
  simp [cnpRate, h, Nat.not_le.2 hns]

/-- Settles O47. -/
theorem ratesAndGauges : Obligations.RatesAndGauges := by
  unfold Obligations.RatesAndGauges
  refine fun t key ns r s h hr => ⟨fun hfar => ⟨_, exec_running (exec_cnpReceived _ ns s) h, rfl, rfl, ?_, ?_⟩,
    fun hlast hnear => ⟨_, exec_running (exec_cnpReceived _ ns s) h, rfl, rfl, ?_⟩,
    fun hno => ⟨_, exec_running (exec_congestionIncrease _ s) h, rfl, rfl, ?_⟩,
    fun hcnp => ⟨_, exec_running (exec_congestionIncrease _ s) h, rfl, rfl, ?_⟩,
    fun hkind data hlen => ⟨_, exec_running (exec_gaugePageWrite t key data s) h, rfl, rfl, ?_⟩,
    fun hkind v hv => ⟨_, exec_running (exec_gaugeReadResponse t key v s) h, rfl, rfl, ?_⟩⟩
  · simp [Dev.cnp, res_of_haul (count_haul _ _ _ _), hr, cnpRate_decreases _ _ _ _ hfar, rateMin]
  · simp only [Dev.cnp, hr, Option.map_some, Option.getD_some, cnpRate_decreases _ _ _ _ hfar]
    exact counter_count_same _ _ _ _ Nat.one_pos
  · simp [Dev.cnp, res_of_haul (count_haul _ _ _ _), hr, cnpRate_stays _ _ _ _ hlast hnear]
  · simp [Dev.congestionPeriod, hr, periodRate, hno, rateMax, rateStep]
  · simp [Dev.congestionPeriod, hr, periodRate, hcnp]
  · have hcut : data.take 8 = data := List.take_of_length_le (Nat.le_of_eq hlen)
    have hover := overlay_all (leBytes 8 (r.gauge.getD 0)) data (by simp [hlen])
    simp [Dev.gaugeWrite, hr, hkind, hcut, hover]
  · simpa [Dev.gaugeResponse, hr, hkind] using hv

/-! ### Frames (R490, R491, R527 to R530) -/

/-- A frame that starts with the addresses `dst` and `src`, filled and sealed with its frame check sequence. -/
theorem sealFrame_spec (dst src rest : List Byte) (hdst : dst.length = 6) (hsrc : src.length = 6) :
    64 ≤ (sealFrame (dst ++ (src ++ rest))).length ∧ bytesAt (sealFrame (dst ++ (src ++ rest))) 0 6 = dst ∧
      bytesAt (sealFrame (dst ++ (src ++ rest))) 6 6 = src ∧
      (sealFrame (dst ++ (src ++ rest))).drop ((sealFrame (dst ++ (src ++ rest))).length - 4) =
        leBytes 4 (crc32 ((sealFrame (dst ++ (src ++ rest))).take ((sealFrame (dst ++ (src ++ rest))).length - 4))) := by
  have hshape : sealFrame (dst ++ (src ++ rest)) = dst ++ (src ++ (rest ++ (zeros (60 - (dst ++ (src ++ rest)).length) ++
      leBytes 4 (crc32 (dst ++ (src ++ rest) ++ zeros (60 - (dst ++ (src ++ rest)).length)))))) := by
    simp [sealFrame, List.append_assoc]
  have hlen : (sealFrame (dst ++ (src ++ rest))).length - 4 = (dst ++ (src ++ rest) ++ zeros (60 - (dst ++ (src ++ rest)).length)).length := by
    simp [sealFrame]
    omega
  refine ⟨?_, ?_, ?_, ?_⟩
  · simp only [sealFrame, List.length_append, length_zeros, length_leBytes]
    omega
  · rw [hshape, bytesAt_prefix _ _ _ hdst]
  · rw [hshape, bytesAt_after _ _ _ _ hdst, bytesAt_prefix _ _ _ hsrc]
  · rw [hlen, sealFrame, List.drop_left, List.take_left]

theorem ingressFrame_dropped (d : Dev) (port ns : Nat) (frame : List Byte) (x : Drop) (hup : d.portUp port = true) (hlen : frame.length ≤ 9216)
    (hparse : parseFrame (d.parseCtx port) frame = .dropped x) : d.ingressFrame port frame ns = d.count x.counter 0 1 := by
  simp [Dev.ingressFrame, hup, Nat.not_lt.2 hlen, hparse]

/-- A tenant without a policer has its frames metered green. -/
theorem meterFrame_green (d : Dev) (t now n : Nat) (h : (AMap.get? d.tenants t).bind Tenant.policer = none) : d.meterFrame t now n = (d, .green) := by
  simp only [Dev.meterFrame, h]

theorem ingestFrame_untimed (d : Dev) (sid size capture ns : Nat) (hdr data : List Byte) (st : Stream) (hst : d.stream? sid = some st)
    (hptp : d.boundaryPtp = none) (hpol : (AMap.get? d.tenants st.tenant).bind Tenant.policer = none) (hroom : st.undrawn < st.depth) :
    d.ingestFrame sid size hdr data capture ns = (d.count Counter.ingestUntimed st.tenant 1).acceptFrame sid hdr data capture 0 ns := by
  simp [Dev.ingestFrame, hst, hptp, meterFrame_green d _ _ _ hpol, Nat.not_le.2 hroom]

/-- An ARP request for a local GID is answered to the asker from the port's address. -/
theorem answerArp_answers (d : Dev) (port off : Nat) (b : List Byte) (hlen : off + 28 ≤ b.length) (hasks : bytesAt b off 8 = [0, 1, 8, 0, 6, 4, 0, 1])
    (hlocal : (d.localGids port).contains (mappedGid (bytesAt b (off + 24) 4)) = true) :
    ∃ rest, d.answerArp port b off = d.emit (.ethFrame port (sealFrame (bytesAt b (off + 8) 6 ++ (d.portMac port ++ rest)))) := by
  rw [Dev.answerArp, if_neg (by rw [hasks, hlocal]; simpa using hlen)]
  simp only [List.append_assoc]
  exact ⟨_, rfl⟩

/-- A good solicitation for a local GID is answered to the sender from the port's address. -/
theorem answerSolicit_answers (d : Dev) (port ip off stop : Nat) (b : List Byte) (hlen : 24 ≤ stop - off)
    (hsum : fold16 (sum16 (bytesAt b (ip + 8) 32) + 58 + (stop - off) + sum16 (bytesAt b off (stop - off))) = 65535) (hhops : bytesAt b (ip + 7) 1 = [0xFF])
    (hcode : bytesAt b (off + 1) 1 = [0]) (hlocal : (d.localGids port).contains (bytesAt b (off + 8) 16) = true) :
    ∃ rest, d.answerSolicit port b ip off stop = d.emit (.ethFrame port (sealFrame (bytesAt b 6 6 ++ (d.portMac port ++ rest)))) := by
  rw [Dev.answerSolicit, if_neg (by rw [hsum, hhops, hcode, hlocal]; simpa using hlen)]
  simp only [List.append_assoc]
  exact ⟨_, rfl⟩

/-- Settles O48. -/
theorem framesAreTakenOrDropped : Obligations.FramesAreTakenOrDropped := by
  unfold Obligations.FramesAreTakenOrDropped
  refine ⟨fun port ns frame x s h hup hlen hparse => completes_running (exec_ingressFrame port frame ns s) h
      (ingressFrame_dropped s.dev port ns frame x hup hlen hparse),
    fun port ns sid start stop capture frame st g p s h hup hlen hparse hst hg hp hptp hpol hroom =>
      completes_running (exec_ingressFrame port frame ns s) h ?_,
    fun port off frame s h hup hparse hlen hasks hlocal => ?_, fun port ip off stop frame s h hup hparse hlen hsum hhops hcode hlocal => ?_⟩
  · rw [Dev.ingressFrame, if_neg (by simp [hup, Nat.not_lt.2 hlen])]
    simp only [hparse]
    exact ingestFrame_untimed s.dev sid _ capture ns _ _ st hst hptp hpol hroom
  · obtain ⟨rest, hrest⟩ := answerArp_answers s.dev port off frame hlen hasks hlocal
    refine ⟨_, completes_running (exec_arpRequest port frame s) h ?_, sealFrame_spec _ _ rest (length_bytesAt _ _ _) (length_beBytes _ _)⟩
    simp only [hup, hparse]
    exact hrest
  · obtain ⟨rest, hrest⟩ := answerSolicit_answers s.dev port ip off stop frame hlen hsum hhops hcode hlocal
    refine ⟨_, completes_running (exec_neighborSolicitation port frame s) h ?_, sealFrame_spec _ _ rest (length_bytesAt _ _ _) (length_beBytes _ _)⟩
    simp only [hup, hparse]
    exact hrest

end Sys2Proof.Proofs
end

section
/-!
PROOFS. What peers ask of the device.
-/
namespace Sys2Proof.Proofs

open Sys2Proof.Machine Sys2Proof.Laws

/-! ### Messages to peers -/

/-- A message goes to a peer that is there. -/
theorem sendPeer_known (d : Dev) (p : Nat) (m : PeerMsg) (h : (d.peer? p).isSome = true) : d.sendPeer p m = d.emit (.rdmaSend (peerQpn p) m.bytes) := by
  rw [Dev.sendPeer, if_pos h]
  rfl

/-! ### Reads served (R522) -/

theorem manifestQuery_sealed (d : Dev) (peer : Nat) (m : PeerMsg) (t : Dataset) (hpeer : (d.peer? peer).isSome = true)
    (ht : AMap.get? d.face.datasets m.dataset = some t) (hseal : t.sealed_ = true) :
    d.manifestQuery peer m = d.emit (.rdmaSend (peerQpn peer) ({ PeerMsg.simple 2 m.dataset m.tag with manifest := t.manifest } : PeerMsg).bytes) := by
  simp only [Dev.manifestQuery, ht, hseal, if_true]
  exact sendPeer_known d peer _ hpeer

theorem serveRead_absent (d : Dev) (peer : Nat) (m : PeerMsg) (hpeer : (d.peer? peer).isSome = true) (ht : AMap.get? d.face.datasets m.dataset = none) :
    d.serveRead peer m = d.emit (.rdmaSend (peerQpn peer) ({ PeerMsg.simple 5 m.dataset m.tag with reason := 1, index := m.index } : PeerMsg).bytes) := by
  simp only [Dev.serveRead, ht]
  exact sendPeer_known d peer _ hpeer

theorem serveRead_otherHash (d : Dev) (peer : Nat) (m : PeerMsg) (t : Dataset) (hpeer : (d.peer? peer).isSome = true)
    (ht : AMap.get? d.face.datasets m.dataset = some t) (hne : t.manifest ≠ m.manifest) :
    d.serveRead peer m = d.emit (.rdmaSend (peerQpn peer) ({ PeerMsg.simple 5 m.dataset m.tag with reason := 2, index := m.index } : PeerMsg).bytes) := by
  simp only [Dev.serveRead, ht]
  rw [if_pos (by simp [hne])]
  exact sendPeer_known d peer _ hpeer

/-- A read that is served joins the list of those served. -/
theorem served_serveRead (d : Dev) (peer : Nat) (m : PeerMsg) (t : Dataset) (ht : AMap.get? d.face.datasets m.dataset = some t) (hseal : t.sealed_ = true)
    (hhash : t.manifest = m.manifest) (hindex : m.index < t.count) (hroom : d.haul.served.length < 4096) :
    (d.serveRead peer m).haul.served =
      d.haul.served ++ [{ peer := peer, tag := m.tag, dataset := m.dataset, index := m.index, bufs := [], data := [], ready := false }] := by
  simp only [Dev.serveRead, ht]
  rw [if_neg (by simp [hseal, hhash, Nat.not_le.2 hindex]), if_neg (Nat.not_le.2 hroom)]
  rfl

theorem served_filter (l : List Served) (peer tag : Nat) :
    (l.filter (fun v => !(v.peer == peer && v.tag == tag))).find? (fun v => v.peer == peer && v.tag == tag) = none := by
  refine List.find?_eq_none.2 fun v hv => ?_
  simpa [imp_iff_not_or] using (List.mem_filter.1 hv).2

/-- A released read is served no more. -/
theorem served_endServed (d : Dev) (peer tag : Nat) : (d.endServed peer tag).served? peer tag = none := by
  unfold Dev.endServed
  split
  · next h => exact h
  · exact served_filter _ peer tag

/-- A read that holds no buffer leaves the list and nothing else changes. -/
theorem endServed_unbuffered (d : Dev) (peer tag : Nat) (v : Served) (hv : d.served? peer tag = some v) (hbufs : v.bufs = []) :
    d.endServed peer tag = { d with haul := { d.haul with served := d.haul.served.filter (fun v => !(v.peer == peer && v.tag == tag)) } } := by
  simp [Dev.endServed, hv, hbufs, Dev.dropBufs]

/-- The first link of a served sample is its first 16 MiB. -/
theorem answerLink_first (d : Dev) (peer link : Nat) (v : Served)
    (hv : d.haul.served.find? (fun x => x.peer == peer && x.ready && x.bufs.contains link) = some v) (hfirst : v.bufs.head? = some link) :
    d.answerLink peer link = d.emit (.rdmaReadResponse (peerQpn peer) (v.data.take 16777216)) := by
  obtain ⟨rest, hrest⟩ := List.head?_eq_some_iff.1 hfirst
  simp only [Dev.answerLink, hv, hrest]
  simp [List.findIdx?_cons]

/-- Settles O49. -/
theorem peersAreServed : Obligations.PeersAreServed := by
  unfold Obligations.PeersAreServed
  refine ⟨fun peer b m s h hpeer hparse => ⟨fun htype t ht hseal => completes_running (exec_manifestQuery peer b s) h ?_,
      fun htype ht => completes_running (exec_readReq peer b s) h ?_, fun htype t ht hne => completes_running (exec_readReq peer b s) h ?_,
      fun htype t ht hseal hhash hindex hroom => ⟨_, exec_running (exec_readReq peer b s) h, rfl, rfl, ?_⟩,
      fun htype => ⟨_, exec_running (exec_release peer b s) h, rfl, rfl, ?_⟩⟩,
    fun peer tag v s h hv hready hbufs => ⟨_, exec_running (exec_peerReleaseTimeout peer tag s) h, rfl, rfl, ?_⟩,
    fun peer link v s h hv hfirst => completes_running (exec_peerBufferRdmaRead peer link s) h (answerLink_first s.dev peer link v hv hfirst)⟩
  · simp only [hparse, htype, if_true]
    exact manifestQuery_sealed s.dev peer m t hpeer ht hseal
  · simp only [hparse]
    rw [if_pos (by simp [htype, hpeer])]
    exact serveRead_absent s.dev peer m hpeer ht
  · simp only [hparse]
    rw [if_pos (by simp [htype, hpeer])]
    exact serveRead_otherHash s.dev peer m t hpeer ht hne
  · simp only [hparse]
    rw [if_pos (by simp [htype, hpeer])]
    exact served_serveRead s.dev peer m t ht hseal hhash hindex hroom
  · simp only [hparse, htype, if_true]
    exact served_endServed s.dev peer m.tag
  · simp only [Dev.releaseTimeout, hv, hready, if_true]
    refine ⟨?_, ?_⟩
    · rw [Dev.served?, count_haul]
      exact served_endServed s.dev peer tag
    · rw [counter_count_same _ _ _ _ Nat.one_pos, endServed_unbuffered s.dev peer tag v hv hbufs]
      rfl

end Sys2Proof.Proofs
end

section
/-!
PROOFS. What fails on the NAND.
-/
namespace Sys2Proof.Proofs

open Sys2Proof.Machine Sys2Proof.Laws

/-! ### Pages, programs, verify and erases -/

/-- R244: a page that soft reads recover counts them. -/
theorem pageDecodeFail_soft (d : Dev) (ds off n e k : Nat) (t : Dataset) (x : Extent) (hds : ds ≠ 0xFFFF) (ht : AMap.get? d.face.datasets ds = some t)
    (hat : d.extentAt t off = some (e, x, k)) (hread : x.unreadable.contains k = false) (hplace : (d.pagePlace x k).isSome = true) (h1 : 1 ≤ n) (h3 : n ≤ 3) :
    d.pageDecodeFail ds off (.soft n) = d.count Counter.softRead 0 n := by
  have hplace' : (d.pagePlace x k).isNone = false := by
    rw [← Option.not_isSome, hplace]
    rfl
  simp only [Dev.pageDecodeFail, if_neg hds, ht, hat, hread, hplace']
  simp [Dev.decodeFails, h1, h3]

/-- The last position sent to member `m` of `w`, of `e` positions sent. -/
theorem lastPosition_spec (e m w : Nat) (hm : m < w) (he : m < e) :
    (e - 1 - m) / w * w + m < e ∧ e ≤ (e - 1 - m) / w * w + m + w ∧ ((e - 1 - m) / w * w + m) % w = m := by
  have hw : 0 < w := by omega
  have hdiv := Nat.div_add_mod (e - 1 - m) w
  have hmod := Nat.mod_lt (e - 1 - m) hw
  rw [Nat.mul_comm] at hdiv
  refine ⟨by omega, by omega, ?_⟩
  rw [Nat.add_comm, Nat.add_mul_mod_self_right, Nat.mod_eq_of_lt hm]

theorem programFail_marks (d : Dev) (id m : Nat) (b : Bench) (hb : AMap.get? d.face.benches id = some b) (hopen : b.state = .opened)
    (hm : m < b.members.length) (hsent : m < b.endPos) :
    d.programFail id m = (d.weaken id (fun x => { x with failed := x.failed ++ [(b.endPos - 1 - m) / b.members.length * b.members.length + m] })).count
      Counter.programFail 0 1 := by
  have hw : max 1 b.members.length = b.members.length := Nat.max_eq_right (by omega)
  simp [Dev.programFail, hb, hopen, hw, Nat.not_le.2 hm, Nat.not_le.2 hsent]

theorem eraseDone_ok (d : Dev) (die b : Nat) (x : Die) (hx : AMap.get? d.face.dies die = some x) (hstale : d.blockState x b = .stale)
    (hfail : x.state ≠ .failed) (habs : x.state ≠ .absent) : d.eraseDone die b true = (d.setBlock die b .erased).blockReturned die b := by
  simp [Dev.eraseDone, hx, hstale, hfail, habs]

theorem eraseDone_bad (d : Dev) (die b : Nat) (x : Die) (hx : AMap.get? d.face.dies die = some x) (hstale : d.blockState x b = .stale)
    (hfail : x.state ≠ .failed) (habs : x.state ≠ .absent) (hspare : (d.takeSpare die).isSome = true) :
    d.eraseDone die b false = (d.retireBlock die b).blockReturned die b := by
  simp [Dev.eraseDone, hx, hstale, hfail, habs, hspare]

/-! ### Dies (R220, R221) -/

/-- A die that holds no bench and that no work item reads: it is FAILED, and nothing is made WEAK or moved. -/
theorem dieFails_unused (d : Dev) (n : Nat) (habs : d.dieState n ≠ .absent) (hfail : d.dieState n ≠ .failed) (hitems : d.tick.items = [])
    (hbenches : ∀ p ∈ d.face.benches, ∀ m ∈ p.2.members, m.1 ≠ n) :
    d.dieFails n = { ((d.setDie n .failed).chipTrouble ChipBit.faceFault).event adminWin EventCode.dieFailed 0 [(20, 2, n), (24, 4, 0)] with
      face := { (((d.setDie n .failed).chipTrouble ChipBit.faceFault).event adminWin EventCode.dieFailed 0 [(20, 2, n), (24, 4, 0)]).face with
        recompute := true } } := by
  have hweak : ((d.setDie n .failed).chipTrouble ChipBit.faceFault).face.benches.filter
      (fun p => (p.2.state == .opened || p.2.state == .closed) && p.2.members.any (fun m => m.1 == n)) = [] := by
    rw [Dev.chipTrouble, trouble_face]
    refine List.filter_eq_nil_iff.2 fun p hp => ?_
    have hany : p.2.members.any (fun m => m.1 == n) = false := by simpa using fun a b hm => hbenches p hp (a, b) hm
    simp [hany]
  have hnone : (((d.setDie n .failed).chipTrouble ChipBit.faceFault).event adminWin EventCode.dieFailed 0 [(20, 2, n), (24, 4, 0)]).tick.items = [] := by
    rw [event_tick, Dev.chipTrouble, trouble_tick]
    exact hitems
  simp only [Dev.dieFails, hweak]
  rw [if_neg (by simp [habs, hfail])]
  simp only [List.foldl_nil, List.length_nil, hnone, List.map_nil]

/-- Settles O56. -/
theorem mediaFailures : Obligations.MediaFailures := by
  unfold Obligations.MediaFailures
  refine ⟨fun ds off n e k t x s h hds ht hat hread hplace h1 h3 => completes_running (exec_pageDecodeFail ds off (.soft n) s) h
      (pageDecodeFail_soft s.dev ds off n e k t x hds ht hat hread hplace h1 h3),
    fun id m b s h hb hopen hm hsent => ?_,
    fun id b s h hb => ⟨fun hclosed => completes_running (exec_benchVerify id true s) h ?_, fun hclosed => completes_running (exec_benchVerify id false s) h ?_,
      fun hne ok => same_running (exec_benchVerify id ok s) h ?_⟩,
    fun die b x s h hx hstale hfail habs => ⟨completes_running (exec_eraseDone die b true s) h (eraseDone_ok s.dev die b x hx hstale hfail habs),
      fun hspare => completes_running (exec_eraseDone die b false s) h (eraseDone_bad s.dev die b x hx hstale hfail habs hspare)⟩,
    fun n s h habs hfail hitems hbenches => completes_running (exec_dieFailed n s) h (dieFails_unused s.dev n habs hfail hitems hbenches),
    fun n s h hout => same_running (exec_dieFailed n s) h ?_, fun c s h => completes_running (exec_channelRetrainFail c s) h rfl⟩
  · obtain ⟨hlt, hle, hmod⟩ := lastPosition_spec b.endPos m b.members.length hm hsent
    exact ⟨_, hlt, hle, hmod, completes_running (exec_programFail id m s) h (programFail_marks s.dev id m b hb hopen hm hsent)⟩
  · simp [Dev.benchVerify, hb, hclosed]
  · simp [Dev.benchVerify, hb, hclosed]
  · simp [Dev.benchVerify, hb, hne]
  · rcases hout with hout | hout <;> simp [Dev.dieFails, hout]

end Sys2Proof.Proofs
end

section
/-!
PROOFS. A fold that completes has read the pages it moves (R240, Table 06-14).
-/
namespace Sys2Proof.Proofs

open Sys2Proof.Machine Sys2Proof.Laws

/-! ### A device with one extent to fold -/

/-- An extent of one page in the SLC log. -/
def foldedExtent : Extent :=
  { dataset := 0, state := .live, loc := .slc 0, damaged := false, length := 1, offset := 0, journalSeq := 0, data := [0], digest := [], unreadable := [],
    order := 0, dirty := 0, buffered := false, flushed := false, durable := true, durTick := 0, nativeDest := false, set_ := 0, append := none }

/-- The bench that holds its page, open for further pages. -/
def foldedBench : Bench :=
  { state := .opened, kind := .nativeData, members := [(0, 0)], endPos := 1, validPages := 1, parityBench := none, closedTick := 0, failed := [] }

/-- The device that holds both, with the die they lie on in service. -/
def foldingDev : Dev :=
  { Dev.init with face := { Face.init with
      dies := [(0, { state := .inService, blocks := [] })], benches := [(0, foldedBench)], extents := [(0, foldedExtent)], slcLog := [(0, 0)], nextLog := 1 } }

/-- The device with its extent settled on a native bench, when its page is taken without being read. -/
def foldingSettled : Option Dev := (foldingDev.losePages ((List.range (pagesOf foldedExtent.length)).map (fun k => (0, k)))).settleExtent 0 foldedExtent true

theorem foldingSettled_isSome : foldingSettled.isSome = true := by decide +kernel

/-- The fold reads the one page, and MEDIA_PAGE_READ counts it. -/
theorem counter_moveDone_folding : (foldingDev.moveDone 0).counter Counter.mediaPageRead 0 = 1 := by decide +kernel

/-- Settling the extent alone counts no page as read. -/
theorem counter_settled_folding :
    foldingSettled.map (fun d => ((d.releasePages foldedExtent).count Counter.foldPage 0 (pagesOf foldedExtent.length)).counter Counter.mediaPageRead 0) =
      some 0 := by decide +kernel

/-- What a completed move answers is what its meaning does. -/
theorem moveDone_of_completes (d e : Dev) (what : Nat) (h : d.stopped = false)
    (hc : Completes (.maintenanceMoveDone what) { pending := [], hdr := [], dev := d } (fun _ => e)) : d.moveDone what = e := by
  rw [Completes, exec_running (exec_maintenanceMoveDone what _) h] at hc
  exact congrArg State.dev (Host.Outcome.next.inj hc)

/-- Refutes O57: the clause on folds leaves out that a fold reads the pages it moves. A device that folds an extent of one page counts it in
MEDIA_PAGE_READ (R245, Table 06-14), where the statement has the counter stand. -/
theorem not_mediaProgress : ¬ Obligations.MediaProgress := by
  unfold Obligations.MediaProgress
  rintro ⟨-, -, -, hfold, -⟩
  obtain ⟨d', hd'⟩ := Option.isSome_iff_exists.1 foldingSettled_isSome
  have hstep := hfold 0 foldedExtent d' { pending := [], hdr := [], dev := foldingDev } (by decide) (by decide) (by decide) (by decide) (by decide) (by decide) hd'
  have hdev := moveDone_of_completes _ _ _ (by decide) hstep
  have hcounted := counter_settled_folding
  rw [hd', Option.map_some, ← hdev, counter_moveDone_folding] at hcounted
  exact absurd hcounted (by decide)

end Sys2Proof.Proofs
end

section
/-!
PROOFS. The state after reset, and the accesses to the registers of a window.
-/
namespace Sys2Proof.Proofs

open Sys2Proof.Machine Sys2Proof.Laws

/-! ### Reset -/

/-- No trouble is on record at reset: every word that TROUBLE_SUMMARY gathers reads 0. -/
theorem troubleSummary_reset : State.reset.dev.troubleSummary = 0 := by decide

/-- Settles O4: each part is the reset value that the model gives the device. -/
theorem resetState : Obligations.ResetState := by
  unfold Obligations.ResetState
  refine ⟨rfl, ⟨.nil, fun p hp => absurd hp List.not_mem_nil⟩, fun w => rfl, rfl, rfl, fun id i => rfl, fun w => rfl, troubleSummary_reset, rfl, rfl, rfl, rfl, rfl⟩

/-! ### Register accesses -/

/-- MBX_IRQ as its write leaves it (Table 04-9). -/
def Win.irqWritten (x : Win) (v : Nat) : Win :=
  { x with
    eventPending := x.eventPending && !bitOf v 9
    donePending := x.donePending && !bitOf v 8
    eventEn := bitOf v 1
    doneEn := bitOf v 0 }

theorem win_writeIrq (d : Dev) (w v j : Nat) : (d.writeIrq w v).win j = if j = w then Win.irqWritten (d.win w) v else d.win j := by
  unfold Dev.writeIrq
  dsimp only
  split <;> split <;> exact win_setWin _ _ _ _

/-- A write of MBX_IRQ changes its window; the messages that it sends are outputs. -/
theorem writeIrq_frame (d : Dev) (w v : Nat) :
    d.writeIrq w v = { d with hearth := { d.hearth with wins := (d.writeIrq w v).hearth.wins }, out := (d.writeIrq w v).out } := by
  unfold Dev.writeIrq
  dsimp only
  split <;> split <;> rfl

theorem head_writeEntry (d : Dev) (w base : Nat) (e : Event) : ((d.writeEntry w base e).win w).head = (d.win w).head := by
  unfold Dev.writeEntry
  dsimp only
  rw [win_eventPending]
  simp

/-- Posting what is staged moves TAIL and never HEAD, which is the host's (R153). -/
theorem head_postStaged (w : Nat) : ∀ (n : Nat) (d : Dev), ((Dev.postStaged n w d).win w).head = (d.win w).head := by
  intro n
  induction n with
  | zero => exact fun d => rfl
  | succ n ih =>
    intro d
    have hentry : ∀ (x : Win) (base : Nat) (e : Event), x.head = (d.win w).head → ((Dev.postStaged n w ((d.setWin w x).writeEntry w base e)).win w).head = (d.win w).head := by
      intro x base e hx
      rw [ih, head_writeEntry, win_setWin_same, hx]
    unfold Dev.postStaged
    dsimp only
    split
    · rfl
    · split
      · rfl
      · split
        · exact hentry _ _ _ rfl
        · split
          · rfl
          · exact hentry _ _ _ rfl

theorem head_writeHead (d : Dev) (w v : Nat) : ((d.writeHead w v).win w).head = v % 4096 := by
  unfold Dev.writeHead Dev.flushStaged
  rw [head_postStaged, win_modWin_same]
  rfl

theorem tickets_writeHead (d : Dev) (w v j : Nat) : ((d.writeHead w v).win j).tickets = (d.win j).tickets := by
  unfold Dev.writeHead Dev.flushStaged
  rw [tickets_postStaged, win_modWin]
  split
  · rename_i h
    rw [h]
  · rfl

theorem postsOnly_writeHead (d : Dev) (w v : Nat) : PostsOnly d (d.writeHead w v) := (postsOnly_modWin _ _ _).trans (postsOnly_flushStaged _ _)

/-- R138: an aligned write of 32 bits to the request area lands there, while its window is not BUSY. -/
theorem writeWindow_request (d : Dev) (w k v : Nat) (hbusy : (d.win w).state ≠ .busy) (hk : 16 ≤ k) (hk' : k < 512) :
    d.writeWindow w (4 * k) 32 v = d.setWin w { d.win w with reqArea := Mem.writeAll 0 (d.win w).reqArea (4 * k) (leBytes 4 v) } := by
  have haligned : (!alignedAccess (4 * k) 32) = false := by simp [alignedAccess]
  have hregs : ¬ 4 * k < 0x30 := by omega
  have harea : (decide (0x40 ≤ 4 * k) && decide (4 * k < 0x800)) = true := by
    simp only [Bool.and_eq_true, decide_eq_true_eq]
    omega
  rw [Dev.writeWindow, haligned, if_neg Bool.false_ne_true, if_neg hregs, if_pos harea, Dev.modWin, if_neg hbusy]

/-- Settles O16: each access by what the write of its register does to the window. -/
theorem registerAccesses : Obligations.RegisterAccesses := by
  unfold Obligations.RegisterAccesses
  refine ⟨fun w v s h => ?_, fun w v s h => ?_, fun s h => ?_, fun w k v s h hbusy hk hk' => ?_⟩
  · exact ⟨_, exec_running (exec_mbxIrqWrite w v s) h, rfl, rfl, (win_writeIrq _ _ _ _).trans (if_pos rfl),
      fun j hj => (win_writeIrq _ _ _ _).trans (if_neg hj), writeIrq_frame _ _ _⟩
  · exact ⟨_, exec_running (exec_evtHeadWrite w v s) h, rfl, rfl, head_writeHead _ _ _, tickets_writeHead _ _ _, postsOnly_writeHead _ _ _⟩
  · exact completes_running (exec_tickCountLoRead s) h rfl
  · exact completes_running (exec_registerWrite (.window w) (4 * k) 32 v s) h (writeWindow_request s.dev w.num k v hbusy hk hk')

end Sys2Proof.Proofs
end

section
/-!
PROOFS. The commands that complete the ticket they took.
-/
namespace Sys2Proof.Proofs

open Sys2Proof.Machine Sys2Proof.Laws

/-- R682: the image of FW_STAGE that checks and reads back is in the slot not in use; one that does not check leaves the flash alone. -/
theorem fwStageDone_readBack (d : Dev) (w n : Nat) (k : Ticket) (hk : d.ticketOf w n 0x0904 = some k) :
    d.fwStageDone w n true =
      let b := padTo k.data (leAt k.req 0 8)
      let e := d.norProgram (slotBase (1 - d.boot.slot)) slotSize b
      if d.imageStatus b = Status.success then
        ({ e with boot := { e.boot with staged := some (1 - d.boot.slot, imageVersion b, imageSvn b) } }).completeTicket w n Status.success 0
      else d.completeTicket w n (d.imageStatus b) 0 := by
  simp only [Dev.fwStageDone, hk, Dev.stageImage]
  by_cases hst : d.imageStatus (padTo k.data (leAt k.req 0 8)) = Status.success
  · simp [hst]
  · simp [hst]

/-- R588: a join waits for PTP when the device is the group's first member, and for its alignment otherwise. -/
theorem joinDone_aligned (d : Dev) (w n : Nat) (m : Membership) (hjoin : d.group.joining = some (w, n, m))
    (halign : if m.role = 0 then d.group.ptpLocked = true else d.group.aligned = true ∧ d.tick.resync = false) :
    d.joinDone = Dev.completeTicket { d with group := { d.group with joining := none, member := some m } } w n Status.success 0 := by
  have hthere : (if m.role = 0 then d.group.ptpLocked else d.group.aligned && !d.tick.resync) = true := by
    split
    · rename_i hrole
      exact (if_pos hrole ▸ halign :)
    · rename_i hrole
      obtain ⟨ha, hr⟩ := (if_neg hrole ▸ halign :)
      rw [ha, hr]
      rfl
  rw [Dev.joinDone, hjoin]
  exact if_pos hthere

/-- Settles O17: each event by what its meaning does once the ticket, the slot or the request it completes is found. -/
theorem ticketedCommandsFinish : Obligations.TicketedCommandsFinish := by
  unfold Obligations.TicketedCommandsFinish
  refine ⟨?unitMap, ?configRead, ?fwStage, ?unload, ?vocab, ?logDelete, ?logExport, ?join, ?sync, ?attach, ?audit⟩
  case unitMap =>
    intro w n k s h hk
    exact completes_running (exec_unitMapDone w n s) h (by rw [Dev.unitMapDone, hk])
  case configRead =>
    intro w n k s h hk
    exact completes_running (exec_configReadDone w n s) h (by rw [Dev.configReadDone, hk])
  case fwStage =>
    intro w n k s h hk
    exact completes_running (exec_fwStageDone w n true s) h (fwStageDone_readBack s.dev w.num n k hk)
  case unload =>
    intro w n slot p s h hp hstate
    exact completes_running (exec_programUnloadDone w n s) h (by simp [Dev.unloadDone, hp, hstate])
  case vocab =>
    intro w n slot v s h hv hload
    exact completes_running (exec_vocabLoadDone w n s) h (by simp [Dev.vocabDone, hv, hload])
  case logDelete =>
    intro w n id l s h hl
    exact completes_running (exec_replayLogDeleteDone w n s) h (by rw [Dev.logDeleteDone, hl])
  case logExport =>
    intro w n id l s h hl
    exact completes_running (exec_replayExportDone w n s) h (by rw [Dev.exportDone, hl])
  case join =>
    intro w n m s h hjoin halign
    exact completes_running (exec_barrierJoinDone s) h (joinDone_aligned s.dev w n m hjoin halign)
  case sync =>
    intro w n m s h hjoin
    exact completes_running (exec_syncTimeout s) h (by rw [Dev.joinFails, hjoin])
  case attach =>
    intro t n w k r s h hr hstate hattach
    exact completes_running (exec_attachTimeout t n s) h (by simp [Dev.attachTimeout, hr, hstate, hattach])
  case audit =>
    intro w n a s h ha
    exact completes_running (exec_tongsAuditDone (.command w n) s) h (by simp only [Dev.auditDone, ha])

end Sys2Proof.Proofs
end

section
/-!
PROOFS. The plan, the staged launch, and the completion of work items.
-/
namespace Sys2Proof.Proofs

open Sys2Proof.Machine Sys2Proof.Laws

/-! ### The plan and the staged launch -/

/-- The plan of tick `t`: once it stands, PLAN_FREEZE does nothing more. -/
theorem freezePlan_again (d : Dev) (p : Plan) (hp : d.tick.plan = some p) (ht : d.tick.count < p.tick) : d.freezePlan = d := by
  rw [Dev.freezePlan, if_pos (by simpa [hp, Nat.succ_le_iff] using Or.inr ht)]

/-- The device as the freeze leaves the ladder, before it fills the plan (R612). -/
def Dev.stepChosen (d : Dev) : Dev := { d with bellows := { d.bellows with nextStep := some d.chooseStep, cEffAtFreeze := d.capEff } }

theorem freezePlan_first (d : Dev) (hrun : d.tick.running = true) (hp : d.tick.plan = none) :
    d.freezePlan =
      if d.plansNothing then
        { (Dev.stepChosen d).refillBuckets (d.tick.count + 1) with tick := { d.tick with plan := some { tick := d.tick.count + 1, items := [], launch := [] } } }
      else (Dev.stepChosen d).fillPlan (d.tick.count + 1) := by
  rw [Dev.freezePlan, if_neg (by simp [hrun, hp])]
  rfl

/-- The plan that is filled for tick `t` lists the items admitted to it. -/
theorem plan_fillPlan (d : Dev) (t : Nat) :
    ∃ p, (d.fillPlan t).tick.plan = some p ∧ p.tick = t ∧ p.items = ((d.fillPlan t).plannedFor t).map Item.id := by
  have hset : ∃ (e : Dev) (l : List Nat),
      d.fillPlan t = { e with tick := { e.tick with plan := some { tick := t, items := (e.plannedFor t).map Item.id, launch := l } } } := by
    unfold Dev.fillPlan
    dsimp only
    exact ⟨_, _, rfl⟩
  obtain ⟨e, l, he⟩ := hset
  rw [he]
  exact ⟨_, rfl, rfl, rfl⟩

/-- Settles O53: the freeze by whether the rules ask for an empty plan; the launch of a cell by whether the list holds it. -/
theorem plansAreFrozenAndReleased : Obligations.PlansAreFrozenAndReleased := by
  unfold Obligations.PlansAreFrozenAndReleased
  refine ⟨fun s h hrun hp => ?_, fun p s h hp ht => same_running (exec_planFreeze s) h (freezePlan_again s.dev p hp ht),
    fun cell c p s h hc hp hin hout => ?_, fun cell c s h hc => ⟨fun hin => ?_, fun hout => ?_⟩⟩
  · have hf := freezePlan_first s.dev hrun hp
    by_cases hn : s.dev.plansNothing = true
    · rw [if_pos hn] at hf
      refine ⟨_, _, exec_running (exec_planFreeze s) h, rfl, rfl, congrArg (fun d => d.tick.plan) hf, rfl, fun _ => ⟨rfl, rfl, ?_, ?_⟩,
        fun hn' => absurd (hn.symm.trans hn') (by decide)⟩
      · exact congrArg (fun d => d.tick.items) hf
      · exact congrArg (fun d => d.tick.count) hf
    · rw [if_neg hn] at hf
      obtain ⟨p, hplan, htick, hitems⟩ := plan_fillPlan (Dev.stepChosen s.dev) (s.dev.tick.count + 1)
      rw [← hf] at hplan hitems
      exact ⟨_, p, exec_running (exec_planFreeze s) h, rfl, rfl, hplan, htick, fun hn' => absurd hn' hn, fun _ => hitems⟩
  · exact completes_running (exec_stagedLaunchPrecharge cell s) h (by simp only [hc, Dev.launchPrecharge, hp, hin, hout]; rfl)
  · exact completes_running (exec_stagedLaunchRelease cell s) h (by simp only [hc, Dev.launchRelease, if_pos hin])
  · exact same_running (exec_stagedLaunchRelease cell s) h (by simp only [hc, Dev.launchRelease, hout]; rfl)

/-! ### Work items -/

/-- R19: an item completes only while it runs, and not before it has started. -/
theorem workItemComplete_early (d : Dev) (id at_ : Nat) (i : Item) (hi : d.item? id = some i) (hearly : i.phase ≠ .running ∨ at_ < i.startAt) :
    d.workItemComplete id at_ = d := by
  simp only [Dev.workItemComplete, hi]
  exact if_pos (by simpa using hearly)

/-- Egress and the media are charged no busy time of a unit. -/
theorem chargeItem_free (d : Dev) (i : Item) (at_ : Nat) (hfree : d.itemUnit i = .die ∨ i.cls = 4) : d.chargeItem i at_ = d := by
  unfold Dev.chargeItem
  refine if_pos ?_
  rcases hfree with hunit | hcls
  · simp [hunit]
  · simp [hcls]

/-- Only a CELL item that was retried is counted as a retry that succeeded. -/
theorem retriesDone_of_cls (d : Dev) (l : List Item) (h : ∀ i ∈ l, i.cls ≠ 2) : d.retriesDone l = d := by
  have hnone : l.filter (fun i => i.cls == 2 && i.retry) = [] := by
    refine List.filter_eq_nil_iff.2 (fun i hi => ?_)
    simp [h i hi]
  rw [Dev.retriesDone, hnone, List.foldl_nil]

/-- An item that has run is charged with its heat before its job takes effect; one outside the cells is a heat of its own (R386). -/
def Dev.itemRan (d : Dev) (i : Item) (at_ : Nat) : Dev := if i.out.isSome then d else d.chargeItem i at_

theorem itemRan_eq (d : Dev) (i : Item) (at_ : Nat) (hcls : i.cls ≠ 2) :
    Dev.retriesDone ((if i.out.isSome then [] else d.heatMates i).foldl (fun d j => d.chargeItem j at_) d) (if i.out.isSome then [] else d.heatMates i) =
      Dev.itemRan d i at_ := by
  rw [retriesDone_of_cls _ _ (by split <;> simp [Dev.heatMates, hcls]), Dev.itemRan]
  split
  · rfl
  · rw [Dev.heatMates, if_pos hcls, List.foldl_cons, List.foldl_nil]

theorem itemRan_free (d : Dev) (i : Item) (at_ : Nat) (hfree : d.itemUnit i = .die ∨ i.cls = 4) : Dev.itemRan d i at_ = d := by
  rw [Dev.itemRan, chargeItem_free d i at_ hfree, ite_self]

/-- R386, R59: an op of a class without heats ends alone. -/
theorem completeItem_alone (d : Dev) (i : Item) (sid pos k at_ : Nat) (hcls : i.cls ≠ 2) (hout : i.out = none) (hjob : i.job = .sample sid pos k) :
    d.completeItem i at_ = ((d.endSample i sid pos k (i.runFor at_) at_).heatComplete i).startItems at_ := by
  simp only [Dev.completeItem, hout, Dev.heatMates, if_pos hcls, List.foldl_cons, List.foldl_nil, hjob, List.length_singleton, Nat.max_self, Nat.div_one]

/-- Settles O54: what completes by the job of the item, each of a class whose items complete one by one. -/
theorem workItemsComplete : Obligations.WorkItemsComplete := by
  unfold Obligations.WorkItemsComplete
  refine ⟨fun id at_ i s h hi hearly => same_running (exec_workItemComplete id at_ s) h (workItemComplete_early s.dev id at_ i hi hearly),
    fun id at_ key seq i s h hi hrun hat hcls hjob hposted => ?_, fun id at_ cmd i c s h hi hrun hat hcls hunit hjob hc => ?_,
    fun id at_ sid pos k i s h hi hrun hat hcls hout hjob => ?_⟩
  · refine completes_running (exec_workItemComplete id at_ s) h ?_
    have hran := itemRan_eq s.dev i at_ (by rw [hcls]; decide)
    simp only [Dev.workItemComplete, hi]
    rw [if_neg (by simp [hrun, hat]), hran, itemRan_free s.dev i at_ (Or.inr hcls)]
    simp only [hjob, Dev.emitComplete, hposted, if_true]
  · refine completes_running (exec_workItemComplete id at_ s) h ?_
    have hran := itemRan_eq s.dev i at_ (by rw [hcls]; decide)
    have hc' : (s.dev.dropItem i.id).nvme.cmds.find? (fun c => c.id == cmd) = some c := hc
    simp only [Dev.workItemComplete, hi]
    rw [if_neg (by simp [hrun, hat]), hran, itemRan_free s.dev i at_ (Or.inl hunit)]
    simp only [hjob, Dev.storageComplete, hc']
  · refine completes_running (exec_workItemComplete id at_ s) h ?_
    have hcell : i.cls ≠ 2 := by rw [hcls]; decide
    have hran := itemRan_eq s.dev i at_ hcell
    simp only [Dev.workItemComplete, hi]
    rw [if_neg (by simp [hrun, hat]), hran]
    simp only [hjob, if_neg (Nat.succ_ne_zero k), completeItem_alone _ i sid pos (k + 1) at_ hcell hout hjob]
    rw [Dev.itemRan, hout]
    rfl

end Sys2Proof.Proofs
end

section
/-!
PROOFS. What leaves the peers of the Haul alone: the records of the Face, the streams, and their assembly.
-/
namespace Sys2Proof.Proofs

open Sys2Proof.Machine Sys2Proof.Laws

/-! ### Lists -/

/-- A step of a list that leaves the peers alone, for each of its elements, leaves them alone. -/
theorem peers_foldl {α : Type} (f : Dev → α → Dev) (h : ∀ d x, (f d x).haul.peers = d.haul.peers) (l : List α) (d : Dev) :
    (l.foldl f d).haul.peers = d.haul.peers := by
  induction l generalizing d with
  | nil => rfl
  | cons x l ih => exact (ih (f d x)).trans (h d x)

/-- A choice between two devices that have the peers of a third. -/
theorem peers_ite {p : Prop} [Decidable p] {a b : Dev} {x : AMap Peer} (ha : a.haul.peers = x) (hb : b.haul.peers = x) :
    (if p then a else b).haul.peers = x := by
  split
  · exact ha
  · exact hb

/-! ### Unreadable pages -/

@[simp] theorem haul_modExtent (d : Dev) (e : Nat) (f : Extent → Extent) : (d.modExtent e f).haul = d.haul := rfl

@[simp] theorem haul_mediaLoss (d : Dev) (owner : Option Nat) (ds at_ pages : Nat) : (d.mediaLoss owner ds at_ pages).haul = d.haul := by
  unfold Dev.mediaLoss
  dsimp only
  split
  · simp
  · split <;> simp

@[simp] theorem haul_pageUnreadable (d : Dev) (e k : Nat) : (d.pageUnreadable e k).haul = d.haul := by
  unfold Dev.pageUnreadable
  split
  · rfl
  · split
    · rfl
    · simp

@[simp] theorem haul_losePage (d : Dev) (p : Nat × Nat) : (d.losePage p).haul = d.haul := by
  unfold Dev.losePage
  split
  · rfl
  · dsimp only
    split
    · rfl
    · split <;> simp

@[simp] theorem haul_losePages (d : Dev) (pages : List (Nat × Nat)) : (d.losePages pages).haul = d.haul := haul_foldl _ haul_losePage pages d

/-! ### Streams, logs and samples -/

@[simp] theorem haul_hubWriteLine (d : Dev) (r slot : Nat) : (d.hubWriteLine r slot).haul = d.haul := by
  unfold Dev.hubWriteLine
  split <;> rfl

@[simp] theorem haul_writeStream (d : Dev) (sid : Nat) (f : Stream → Stream) : (d.writeStream sid f).haul = d.haul := by
  unfold Dev.writeStream
  split
  · rfl
  · exact haul_hubWriteLine _ _ _

@[simp] theorem haul_logRec (d : Dev) (sid kind : Nat) (body : List Byte) : (d.logRec sid kind body).haul = d.haul := by
  unfold Dev.logRec
  split <;> rfl

@[simp] theorem haul_logOpen (d : Dev) (sid kind : Nat) (body : List Byte) : (d.logOpen sid kind body).haul = d.haul := by
  unfold Dev.logOpen
  split
  · rfl
  · exact haul_logRec _ _ _ _

@[simp] theorem haul_logPeer (d : Dev) (sid pos outcome peer : Nat) (data : List Byte) : (d.logPeer sid pos outcome peer data).haul = d.haul := by
  unfold Dev.logPeer
  split
  · rfl
  · exact haul_logRec _ _ _ _

@[simp] theorem haul_inputMissing (d : Dev) (sid : Nat) : (d.inputMissing sid).haul = d.haul := rfl

@[simp] theorem haul_dropTimes (d : Dev) (n : Nat) (bufs : List Nat) (cls tenant : Nat) : (d.dropTimes n bufs cls tenant).haul = d.haul :=
  haul_foldl _ (fun d _ => haul_dropBufs d bufs cls tenant) _ d

@[simp] theorem haul_dropOuts (d : Dev) (st : Stream) (s : Sample) : (d.dropOuts st s).haul = d.haul :=
  haul_foldl _ (fun d _ => haul_dropTimes d _ _ _ _) s.outs d

@[simp] theorem haul_leaveSample (d : Dev) (sid pos : Nat) (state : SampleState) : (d.leaveSample sid pos state).haul = d.haul := by
  unfold Dev.leaveSample
  split
  · rfl
  · simp

@[simp] theorem haul_corruptEvent (d : Dev) (sid : Nat) (st : Stream) (index reason op offset : Nat) :
    (d.corruptEvent sid st index reason op offset).haul = d.haul := by
  unfold Dev.corruptEvent
  split <;> simp

@[simp] theorem haul_skipCorrupt (d : Dev) (sid pos reason op offset : Nat) : (d.skipCorrupt sid pos reason op offset).haul = d.haul := by
  unfold Dev.skipCorrupt
  split
  · rfl
  · simp

@[simp] theorem haul_skipScreened (d : Dev) (sid pos counter : Nat) : (d.skipScreened sid pos counter).haul = d.haul := by
  unfold Dev.skipScreened
  split
  · rfl
  · simp

@[simp] theorem haul_addItem (d : Dev) (queue : Nat) (job : Job) (cls kind op due cost : Nat) (measure : Nat × Nat) (dies : List (Nat × Nat)) :
    (d.addItem queue job cls kind op due cost measure dies).2.haul = d.haul := rfl

@[simp] theorem haul_addRead (d : Dev) (sid pos due : Nat) : (d.addRead sid pos due).haul = d.haul := by
  unfold Dev.addRead
  split
  · rfl
  · split
    · rfl
    · simp

/-! ### Billets -/

@[simp] theorem peers_followLength (d : Dev) (key len : Nat) : (d.followLength key len).haul.peers = d.haul.peers := rfl

@[simp] theorem peers_closeBillet (d : Dev) (sid bucket : Nat) (isPartial aged last : Bool) :
    (d.closeBillet sid bucket isPartial aged last).haul.peers = d.haul.peers := by
  unfold Dev.closeBillet
  split
  · rfl
  · split
    · dsimp only
      split <;> cases isPartial <;> cases aged <;> simp
    · rfl

@[simp] theorem haul_modOpen (d : Dev) (sid bucket : Nat) (f : Billet → Billet) : (d.modOpen sid bucket f).haul = d.haul := rfl

@[simp] theorem haul_modSample (d : Dev) (sid pos : Nat) (f : Sample → Sample) : (d.modSample sid pos f).haul = d.haul := rfl

@[simp] theorem haul_openBillet (d : Dev) (sid bucket : Nat) : (d.openBillet sid bucket).haul = d.haul := by
  unfold Dev.openBillet
  split
  · rfl
  · split <;> rfl

@[simp] theorem haul_addHammerItem (d : Dev) (sid num pos hammer opIdx due tokens : Nat) : (d.addHammerItem sid num pos hammer opIdx due tokens).haul = d.haul := by
  unfold Dev.addHammerItem
  split
  · rfl
  · split <;> rfl

@[simp] theorem haul_packItem (d : Dev) (sid bucket pos tokens : Nat) : (d.packItem sid bucket pos tokens).haul = d.haul := by
  unfold Dev.packItem
  split
  · rfl
  · split
    · split
      · exact haul_addHammerItem _ _ _ _ _ _ _ _
      · exact haul_addHammerItem _ _ _ _ _ _ _ _
      · rfl
    · rfl

@[simp] theorem haul_putSample (d : Dev) (sid bucket pos flags tokens : Nat) (o : OpOut) (index : Nat) :
    (d.putSample sid bucket pos flags tokens o index).haul = d.haul := by
  simp [Dev.putSample]

@[simp] theorem peers_packTensor (d : Dev) (sid bucket pos flags : Nat) (p : Prog) (o : OpOut) (index : Nat) :
    (d.packTensor sid bucket pos flags p o index).haul.peers = d.haul.peers := by
  unfold Dev.packTensor
  dsimp only
  have hput : ∀ e : Dev, e.haul.peers = d.haul.peers → ((e.openBillet sid bucket).putSample sid bucket pos flags 0 o index).haul.peers = d.haul.peers := by
    intro e he
    simp [he]
  exact peers_ite ((peers_closeBillet _ _ _ _ _ _).trans (hput _ (peers_ite (peers_closeBillet _ _ _ _ _ _) rfl)))
    (hput _ (peers_ite (peers_closeBillet _ _ _ _ _ _) rfl))

@[simp] theorem peers_packSequence (d : Dev) (sid bucket pos flags : Nat) (p : Prog) (o : OpOut) (index : Nat) :
    (d.packSequence sid bucket pos flags p o index).haul.peers = d.haul.peers := by
  unfold Dev.packSequence
  extract_lets tenant all n counted marks place opened next chosen put
  have hplace : ∀ e e' : Dev, place e = some e' → e'.haul.peers = e.haul.peers := by
    intro e e' he
    simp only [place] at he
    split at he
    · exact absurd he (by simp)
    · obtain ⟨c, -, rfl⟩ := Option.map_eq_some_iff.1 he
      rfl
  have hopened : opened.haul.peers = d.haul.peers := by
    rw [haul_openBillet]
    exact peers_ite (by simp) rfl
  have hnext : next.haul.peers = d.haul.peers := by rw [haul_openBillet, peers_closeBillet, hopened]
  have hchosen : chosen.haul.peers = d.haul.peers := by
    simp only [chosen]
    split
    · rename_i e he
      exact (hplace _ e he).trans hopened
    · cases hp : place next with
      | none => exact hnext
      | some e => exact (hplace next e hp).trans hnext
  have hput : put.haul.peers = d.haul.peers := by rw [haul_putSample, hchosen]
  split
  · exact peers_ite ((peers_closeBillet _ _ _ _ _ _).trans hput) hput
  · exact hput

@[simp] theorem peers_countTaken (d : Dev) (sid extra : Nat) : (d.countTaken sid extra).haul.peers = d.haul.peers := by
  unfold Dev.countTaken
  split
  · rfl
  · split
    · simp
    · split <;> simp

@[simp] theorem peers_takeSample (d : Dev) (sid pos extra : Nat) : (d.takeSample sid pos extra).haul.peers = d.haul.peers := by
  unfold Dev.takeSample
  split
  · rfl
  · split
    · split
      · rfl
      · dsimp only
        split
        · simp
        · split <;> simp
    · rfl

@[simp] theorem peers_takeCounted (d : Dev) (sid pos extra : Nat) : (d.takeCounted sid pos extra).haul.peers = d.haul.peers := by
  simp [Dev.takeCounted]

/-! ### Assembly -/

@[simp] theorem peers_reinsert (d : Dev) (sid : Nat) (x : Deferred) : (d.reinsert sid x).haul.peers = d.haul.peers := by
  simp [Dev.reinsert]

@[simp] theorem peers_placeDeferred (d : Dev) (sid : Nat) : (d.placeDeferred sid).haul.peers = d.haul.peers := by
  unfold Dev.placeDeferred
  split
  · rfl
  · exact peers_ite rfl (peers_foldl _ (fun d x => peers_reinsert d sid x) _ d)

@[simp] theorem peers_closeLogged (sid : Nat) : ∀ (n : Nat) (d : Dev), (Dev.closeLogged n sid d).haul.peers = d.haul.peers := by
  intro n
  induction n with
  | zero => exact fun d => rfl
  | succ n ih =>
    intro d
    unfold Dev.closeLogged
    split
    · rfl
    · split
      · rfl
      · exact peers_ite ((ih _).trans (peers_closeBillet _ _ _ _ _ _)) rfl

@[simp] theorem peers_closeAged (d : Dev) (sid : Nat) : (d.closeAged sid).haul.peers = d.haul.peers := by
  unfold Dev.closeAged
  split
  · rfl
  · split
    · rfl
    · split
      · rfl
      · exact peers_foldl _ (fun d b => peers_closeBillet d sid _ true true false) _ d

@[simp] theorem peers_closeDraws (d : Dev) (sid : Nat) : (d.closeDraws sid).haul.peers = d.haul.peers := by
  unfold Dev.closeDraws
  split
  · rfl
  · split
    · exact peers_ite (peers_closeLogged _ _ _) (peers_ite (peers_closeAged _ _) rfl)
    · rfl

theorem peers_drawStep (d e : Dev) (sid extra : Nat) (h : d.drawStep sid extra = some e) : e.haul.peers = d.haul.peers := by
  unfold Dev.drawStep at h
  split at h
  · exact absurd h (by simp)
  · split at h
    · exact absurd h (by simp)
    · split at h
      · obtain rfl := Option.some.inj h
        simp
      · split at h
        · dsimp only at h
          split at h <;> obtain rfl := Option.some.inj h <;> simp
        · exact absurd h (by simp)

@[simp] theorem peers_deferSample (d : Dev) (sid pos draw : Nat) : (d.deferSample sid pos draw).haul.peers = d.haul.peers := by
  unfold Dev.deferSample
  split
  · rfl
  · simp

theorem peers_replayStep (d e : Dev) (sid : Nat) (h : d.replayStep sid = some e) : e.haul.peers = d.haul.peers := by
  unfold Dev.replayStep at h
  split at h
  · exact absurd h (by simp)
  · dsimp only at h
    split at h
    · split at h
      · obtain rfl := Option.some.inj h
        exact peers_reinsert _ _ _
      · exact absurd h (by simp)
    · split at h
      · obtain rfl := Option.some.inj h
        simp
      · split at h
        · exact absurd h (by simp)
        · rename_i d' hd'
          obtain rfl := Option.some.inj h
          exact peers_drawStep d d' sid _ hd'

@[simp] theorem peers_drawAll (sid : Nat) : ∀ (n : Nat) (d : Dev), (Dev.drawAll n sid d).haul.peers = d.haul.peers := by
  intro n
  induction n with
  | zero => exact fun d => rfl
  | succ n ih =>
    intro d
    unfold Dev.drawAll
    split
    · split
      · rfl
      · rename_i e he
        exact (ih e).trans (peers_replayStep d e sid he)
    · split
      · exact peers_placeDeferred d sid
      · rename_i e he
        exact (ih e).trans ((peers_drawStep _ e sid 0 he).trans (peers_placeDeferred d sid))

@[simp] theorem peers_epochEnd (d : Dev) (sid : Nat) : (d.epochEnd sid).haul.peers = d.haul.peers := by
  unfold Dev.epochEnd
  split
  · rfl
  · exact peers_ite rfl (peers_foldl _ (fun d b => peers_closeBillet d sid b true false _) _ d)

@[simp] theorem peers_assemble (d : Dev) (sid : Nat) : (d.assemble sid).haul.peers = d.haul.peers := by
  unfold Dev.assemble
  split
  · rfl
  · exact peers_ite rfl ((peers_epochEnd _ _).trans (peers_drawAll _ _ _))

/-! ### Requests of peers -/

@[simp] theorem peers_modReq (d : Dev) (tag : Nat) (f : PeerReq → PeerReq) : (d.modReq tag f).haul.peers = d.haul.peers := rfl

@[simp] theorem peers_dropReq (d : Dev) (tag : Nat) : (d.dropReq tag).haul.peers = d.haul.peers := rfl

@[simp] theorem haul_sendPeer (d : Dev) (p : Nat) (m : PeerMsg) : (d.sendPeer p m).haul = d.haul := by
  unfold Dev.sendPeer
  split <;> rfl

@[simp] theorem peers_sendReq (d : Dev) (q : PeerReq) : (d.sendReq q).haul.peers = d.haul.peers := by
  unfold Dev.sendReq
  split
  · rfl
  · split
    · rfl
    · dsimp only
      split
      · rfl
      · simp

@[simp] theorem peers_sendWaiting (d : Dev) : d.sendWaiting.haul.peers = d.haul.peers := peers_foldl _ peers_sendReq _ d

@[simp] theorem peers_peerGaveUp (d : Dev) (q : PeerReq) : (d.peerGaveUp q).haul.peers = d.haul.peers := by
  unfold Dev.peerGaveUp
  dsimp only
  split
  · rfl
  · split
    · rfl
    · split
      · split
        · rfl
        · split
          · split <;> simp
          · split <;> simp
      · rfl

@[simp] theorem peers_nextReplica (d : Dev) (q : PeerReq) : (d.nextReplica q).haul.peers = d.haul.peers := by
  unfold Dev.nextReplica
  dsimp only
  split
  · simp
  · split <;> simp

end Sys2Proof.Proofs
end

section
/-!
PROOFS. What the device asks of its peers.
-/
namespace Sys2Proof.Proofs

open Sys2Proof.Machine Sys2Proof.Laws

/-! ### Tables -/

theorem amap_get_mapKV {α β : Type} (f : Nat → α → β) (m : AMap α) (k : Nat) : AMap.get? (AMap.mapKV f m) k = (AMap.get? m k).map (f k) := by
  induction m with
  | nil => rfl
  | cons p m ih =>
    obtain ⟨j, v⟩ := p
    simp only [AMap.mapKV, List.map_cons, AMap.get?]
    by_cases hj : j = k
    · simp [hj]
    · simp only [if_neg hj]
      exact ih

theorem amap_mem_of_get {α : Type} (m : AMap α) (k : Nat) (v : α) (h : AMap.get? m k = some v) : (k, v) ∈ m := by
  induction m with
  | nil => exact absurd h (by simp [AMap.get?])
  | cons p m ih =>
    obtain ⟨j, w⟩ := p
    rw [AMap.get?] at h
    split at h
    · rename_i hj
      obtain rfl := Option.some.inj h
      exact hj ▸ List.mem_cons_self
    · exact List.mem_cons_of_mem _ (ih h)

/-! ### Peers and requests -/

theorem peer_modPeer (d : Dev) (p : Nat) (f : Peer → Peer) : (d.modPeer p f).peer? p = (d.peer? p).map f := by
  unfold Dev.peer? Dev.modPeer
  rw [amap_get_mod, if_pos rfl]

theorem peer_of_peers {d e : Dev} (h : e.haul.peers = d.haul.peers) (p : Nat) : e.peer? p = d.peer? p := congrArg (AMap.get? · p) h

theorem peer_event (d : Dev) (w c st : Nat) (fs : List (Nat × Nat × Nat)) (p : Nat) : (d.event w c st fs).peer? p = d.peer? p :=
  congrArg (fun h : Haul => AMap.get? h.peers p) (event_haul d w c st fs)

theorem peerIsUp_eq (d : Dev) (p : Nat) (x : Peer) (h : d.peer? p = some x) : d.peerIsUp p = x.up := by simp [Dev.peerIsUp, h]

/-- A request stands under its tag and its peer, and so it does when it is changed in other fields. -/
theorem req_modReq (d : Dev) (peer tag : Nat) (q : PeerReq) (f : PeerReq → PeerReq) (hq : d.req? peer tag = some q)
    (hf : ∀ x, (f x).tag = x.tag ∧ (f x).peer = x.peer) : (d.modReq q.tag f).req? peer tag = some (f q) := by
  have htag : q.tag = tag ∧ q.peer = peer := by simpa using List.find?_some hq
  have hkeep : (fun x : PeerReq => x.tag == tag && x.peer == peer) ∘ (fun x => if x.tag = q.tag then f x else x) = fun x => x.tag == tag && x.peer == peer := by
    funext x
    simp only [Function.comp]
    split
    · rw [(hf x).1, (hf x).2]
    · rfl
  have hreq : (d.modReq q.tag f).req? peer tag = (d.req? peer tag).map (fun x => if x.tag = q.tag then f x else x) := by
    simp only [Dev.req?, Dev.modReq, List.find?_map, hkeep]
  rw [hreq, hq, Option.map_some, if_pos rfl]

/-- R523: each link of what READ_READY offers is read; here there is one. -/
theorem readReady_oneLink (d : Dev) (peer a : Nat) (m : PeerMsg) (q : PeerReq) (hq : d.req? peer m.tag = some q) (hwait : q.waiting = false) (hlinks : q.links = [])
    (hm : m.links = [a]) (hchain : chainLinks m.length = [m.length]) :
    d.readReady peer m =
      ((d.modPeer peer (fun x => { x with timeouts := 0 })).modReq q.tag (fun x => { x with links := [a], length := m.length, rkey := m.rkey })).emit
        (.rdmaRead (peerQpn peer) a m.rkey m.length) := by
  simp only [Dev.readReady, hq, hm, hchain]
  rw [if_neg (by simp [hwait, hlinks])]
  rfl

/-- R523: BUSY. -/
theorem readFail_busy (d : Dev) (peer : Nat) (m : PeerMsg) (q : PeerReq) (hq : d.req? peer m.tag = some q) (hbusy : m.reason = 4) :
    d.readFail peer m =
      (d.modPeer peer (fun x => { x with timeouts := 0 })).modReq q.tag (fun x => { x with waiting := true, sentTick := d.tick.count + 1 }) := by
  simp only [Dev.readFail, hq, if_pos hbusy]
  rfl

/-! ### Peers that go DOWN and come UP (R521, R524) -/

theorem peer_peerGoesDown (d : Dev) (peer reason : Nat) (x : Peer) (hx : d.peer? peer = some x) (hup : x.up = true) :
    (d.peerGoesDown peer reason).peer? peer = some { x with up := false, downTick := d.tick.count } := by
  simp only [Dev.peerGoesDown, hx, hup, Bool.not_true, Bool.false_eq_true, if_false]
  rw [peer_event, peer_modPeer, hx, Option.map_some]

/-- The third timeout in a row; the request goes to another replica, which leaves the peers alone. -/
theorem peer_requestTimeout (d : Dev) (peer tag : Nat) (q : PeerReq) (x : Peer) (hq : d.req? peer tag = some q) (hx : d.peer? peer = some x)
    (hwait : q.waiting = false) (hlinks : q.links = []) (htwo : x.timeouts = 2) (hup : x.up = true) :
    (d.requestTimeout peer tag).peer? peer = some { x with timeouts := 3, up := false, downTick := d.tick.count } := by
  have hthird : (d.modPeer peer (fun x => { x with timeouts := x.timeouts + 1 })).peer? peer = some { x with timeouts := 3 } := by
    rw [peer_modPeer, hx, Option.map_some, htwo]
  simp only [Dev.requestTimeout, hq]
  rw [if_neg (by simp [hwait, hlinks]), if_pos (by simp [hthird]), peer_of_peers (peers_sendWaiting _), peer_of_peers (peers_nextReplica _ _)]
  exact peer_peerGoesDown _ peer 1 _ hthird hup

@[simp] theorem peers_queryReplica (d : Dev) (r : Replica) : (d.queryReplica r).haul.peers = d.haul.peers := by
  simp only [Dev.queryReplica, haul_sendPeer]
  rfl

@[simp] theorem face_queryReplica (d : Dev) (r : Replica) : (d.queryReplica r).face = d.face := by
  simp only [Dev.queryReplica, Dev.sendPeer]
  split <;> rfl

theorem face_queryReplicas (l : List Replica) (d : Dev) : (l.foldl Dev.queryReplica d).face = d.face := by
  induction l generalizing d with
  | nil => rfl
  | cons r l ih => exact (ih _).trans (face_queryReplica d r)

/-- R521: a query goes out under the next tag. -/
theorem queryReplica_known (d : Dev) (r : Replica) (h : (d.peer? r.peer).isSome = true) :
    (d.queryReplica r).out = .rdmaSend (peerQpn r.peer) (PeerMsg.simple 1 r.dataset d.haul.nextTag).bytes :: d.out := by
  simp only [Dev.queryReplica]
  rw [sendPeer_known d.takeTag.2 _ _ h]
  rfl

/-- R524: a DOWN peer is asked for the manifest of some dataset. -/
theorem peerProbe_due (d : Dev) (peer : Nat) (x : Peer) (hx : d.peer? peer = some x) (hdown : x.up = false) (hdue : x.downTick + 2500 ≤ d.tick.count) :
    ∃ r : Replica, r.peer = peer ∧ d.peerProbe peer = (d.modPeer peer (fun x => { x with downTick := d.tick.count })).queryReplica r := by
  simp only [Dev.peerProbe, hx]
  rw [if_neg (by simp [hdown, hdue])]
  split
  · rename_i r hr
    exact ⟨r, by simpa using List.find?_some hr, rfl⟩
  · exact ⟨_, rfl, rfl⟩

/-- The placements of a dataset as MANIFEST_REPLY `m` of `peer` leaves them (R521). -/
def repliedPlacement (peer : Nat) (m : PeerMsg) (t : Dataset) : Dataset :=
  { t with placement := t.placement.map (fun r => if r.peer == peer && r.dataset == m.dataset then { r with usable := t.sealed_ && t.manifest == m.manifest } else r) }

/-- R521: the first manifest that matches an entry of a DOWN peer makes it UP, and its other entries are asked for. -/
theorem manifestReply_up (d : Dev) (peer : Nat) (m : PeerMsg) (x : Peer) (k : Nat) (t : Dataset) (hx : d.peer? peer = some x) (hdown : x.up = false)
    (ht : AMap.get? d.face.datasets k = some t) (hseal : t.sealed_ = true) (hhash : t.manifest = m.manifest)
    (hmine : t.placement.any (fun r => r.peer == peer && r.dataset == m.dataset) = true) :
    ∃ l : List Replica, d.manifestReply peer m = l.foldl Dev.queryReplica
      ((Dev.modPeer { d with face := { d.face with datasets := AMap.mapKV (fun _ => repliedPlacement peer m) d.face.datasets } } peer
        (fun x => { x with up := true, timeouts := 0, qpError := false })).event adminWin EventCode.peerUp 0 [(20, 2, peer)]) := by
  have hhit : d.face.datasets.any (fun p => p.2.sealed_ && p.2.manifest == m.manifest && p.2.placement.any (fun r => r.peer == peer && r.dataset == m.dataset)) = true :=
    List.any_eq_true.2 ⟨(k, t), amap_mem_of_get _ k t ht, by rw [hseal, hhash, hmine]; simp⟩
  have hdown' : d.peerIsUp peer = false := (peerIsUp_eq d peer x hx).trans hdown
  have hsome : (d.peer? peer).isSome = true := by rw [hx]; rfl
  unfold Dev.manifestReply
  refine ⟨_, if_pos ?_⟩
  rw [Bool.and_eq_true, Bool.and_eq_true, Bool.not_eq_true']
  exact ⟨⟨hhit, hdown'⟩, hsome⟩

/-- R521: bytes of a good length that no replay refuses are taken. -/
theorem linkReadDone_whole (d : Dev) (peer tag : Nat) (data : List Byte) (q : PeerReq) (st : Stream) (hq : d.req? peer tag = some q) (hlinks : q.links ≠ [])
    (hlen : data.length = q.length) (hhedge : q.hedge = false) (hst : d.stream? q.stream = some st) (hreplay : st.replayOf = none) :
    d.linkReadDone peer tag data = (((d.dropReq tag).sendPeer peer (PeerMsg.simple 6 0 tag)).peerSupply q.stream q.pos peer data 0).sendWaiting := by
  have htakes : d.replayTakes st q.pos data = true := by simp [Dev.replayTakes, Dev.replayPeer, hreplay]
  simp only [Dev.linkReadDone, hq]
  rw [if_neg (by simpa using hlinks), if_neg (by simp [hlen, hst, htakes]), hhedge]
  rfl

/-- Settles O50: each answer of a peer by what the device does with the request that it meets. -/
theorem peersAreAsked : Obligations.PeersAreAsked := by
  unfold Obligations.PeersAreAsked
  refine ⟨fun peer b m q s h hm hq => ⟨fun htype hwait hlinks a ha hchain => ?ready, fun htype hbusy => ?busy⟩,
    fun peer tag q x s h hq hx hwait hlinks htwo hup => ?timeout, fun peer tag q s h hq hwait hsent hdue => ?retry,
    fun peer tag data q st s h hq hlinks hlen hhedge hst hreplay => ?read, fun peer x s h hx hdown hdue => ?probe,
    fun peer b m x k t s h hm htype hx hdown ht hseal hhash hmine => ?manifest⟩
  case ready =>
    refine ⟨_, exec_running (exec_readReady peer b s) h, rfl, rfl, ?_⟩
    simp only [hm, if_pos htype, readReady_oneLink s.dev peer a m q hq hwait hlinks ha hchain]
    exact ⟨rfl, req_modReq (s.dev.modPeer peer _) peer m.tag q _ hq (fun x => ⟨rfl, rfl⟩)⟩
  case busy =>
    refine ⟨_, exec_running (exec_readFail peer b s) h, rfl, rfl, ?_⟩
    simp only [hm, if_pos htype, readFail_busy s.dev peer m q hq hbusy]
    exact ⟨req_modReq (s.dev.modPeer peer _) peer m.tag q _ hq (fun x => ⟨rfl, rfl⟩), rfl⟩
  case timeout =>
    exact ⟨_, _, exec_running (exec_peerRequestTimeout peer tag s) h, rfl, rfl, peer_requestTimeout s.dev peer tag q x hq hx hwait hlinks htwo hup, rfl, rfl⟩
  case retry =>
    refine completes_running (exec_peerBusyRetry peer tag s) h ?_
    simp only [Dev.busyRetry, hq]
    exact if_pos (by simp [hwait, hsent, hdue])
  case read =>
    exact completes_running (exec_peerLinkReadDone peer tag data s) h (linkReadDone_whole s.dev peer tag data q st hq hlinks hlen hhedge hst hreplay)
  case probe =>
    obtain ⟨r, hr, hprobe⟩ := peerProbe_due s.dev peer x hx hdown hdue
    have hasked : (s.dev.modPeer peer (fun x => { x with downTick := s.dev.tick.count })).peer? peer = some { x with downTick := s.dev.tick.count } := by
      rw [peer_modPeer, hx, Option.map_some]
    refine ⟨_, exec_running (exec_peerProbe peer s) h, rfl, rfl, ?_, r.dataset, ?_⟩
    · dsimp only
      rw [hprobe, peer_of_peers (peers_queryReplica _ r), hasked]
    · dsimp only
      rw [hprobe, queryReplica_known _ r (by rw [hr, hasked]; rfl), hr]
      rfl
  case manifest =>
    obtain ⟨l, hreply⟩ := manifestReply_up s.dev peer m x k t hx hdown ht hseal hhash hmine
    refine ⟨_, repliedPlacement peer m t, exec_running (exec_manifestReply peer b s) h, rfl, rfl, ?_⟩
    have hknown : (s.dev.peer? peer).isSome = true := by rw [hx]; rfl
    simp only [hm, htype, hknown, decide_true, Bool.and_self, if_true, hreply]
    refine ⟨?_, ?_, ?_⟩
    · rw [peer_of_peers (peers_foldl _ peers_queryReplica l _), peer_event, peer_modPeer]
      exact congrArg (Option.map _) hx
    · rw [face_queryReplicas, event_face]
      exact (amap_get_mapKV (fun _ => repliedPlacement peer m) s.dev.face.datasets k).trans (congrArg (Option.map _) ht)
    · simp [repliedPlacement, hseal, hhash]

end Sys2Proof.Proofs
end
